-- ==== Sys2Proof/Word.lean ====
section
/-! DEFINITION. The word types of the model: bytes, half-words, words and doublewords (spec R9: bit 0 is the least
significant bit of every field). -/

namespace Sys2Proof

/-- One byte of a memory or of a message. -/
abbrev Byte := BitVec 8

/-- A 16-bit half-word. -/
abbrev Half := BitVec 16

/-- A 32-bit word. -/
abbrev Word32 := BitVec 32

/-- A 64-bit doubleword: a general register, a control register, a memory-mapped register. -/
abbrev Word := BitVec 64

end Sys2Proof
end

