-- ==== Sys2Proof/Syntax.lean ====
section
/-! DEFINITION. The commands of the block as syntax: one constructor per row of spec/opcode_table.json, with its operands. -/

namespace Sys2Proof

/-- A hardware thread: station number and thread (R49, R50 TID). -/
structure Hart where
  stn : Fin 128
  thr : Fin 4
  deriving DecidableEq, Repr

/-- The fields of format V other than OP and FN (R121): vs3, KM, ZM, ET, RM, SX, IMM13, vd, vs1, vs2. -/
structure VF where
  vs3 : Fin 32
  km : Fin 16
  zm : Bool
  et : BitVec 5
  rm : BitVec 3
  sx : Bool
  imm : BitVec 13
  vd : Fin 32
  vs1 : Fin 32
  vs2 : Fin 32
  deriving DecidableEq, Repr

/-- The fields of format VM other than OP and FN (R121): vs3, KM, ZM, ET, IW, IX, IMM13, vd or vs, rs1, rs2 or vs2. -/
structure VmF where
  vs3 : Fin 32
  km : Fin 16
  zm : Bool
  et : BitVec 5
  iw : BitVec 2
  ix : Bool
  imm : BitVec 13
  vd : Fin 32
  rs1 : Fin 32
  rs2 : Fin 32
  deriving DecidableEq, Repr

/-- The fields of format T other than OP and FN (R167): rd or vd/vs, rs1, rs2, TN, IMM32. -/
structure TF where
  rd : Fin 32
  rs1 : Fin 32
  rs2 : Fin 32
  tn : Fin 8
  imm : BitVec 32
  deriving DecidableEq, Repr

/-- The core loads (R65). -/
inductive LdK where
  | b
  | bu
  | h
  | hu
  | w
  | wu
  | d
  deriving DecidableEq, Repr

/-- The core stores (R65). -/
inductive StK where
  | b
  | h
  | w
  | d
  deriving DecidableEq, Repr

/-- The scratchpad atomics (R67). -/
inductive AmoK where
  | addW
  | addD
  | addF
  | swapW
  | swapD
  deriving DecidableEq, Repr

/-- The vector memory forms (R130). -/
inductive VmForm where
  | unit
  | strided
  | indexed
  | wholeV
  | wholeK
  deriving DecidableEq, Repr


/-- A flit as the link layer passes it (R394): KIND, SYS, whether a reserved header bit is nonzero, TC, VER, CONSIST, SRC, DST
and the bytes of DATA. -/
structure Flit where
  kind : BitVec 4
  sys : Bool
  rsv : Bool
  tc : BitVec 3
  ver : BitVec 4
  consist : BitVec 12
  src : BitVec 16
  dst : BitVec 16
  data : List (BitVec 8)
  deriving DecidableEq, Repr

/-- Where a dictionary message comes from (R518, R519, R527): the 10BASE-T1S port, with address and UDP port; a queue pair of
a host port; the signal box program. -/
inductive Peer where
  | t1s (addr port : Nat)
  | qp (port : Fin 4) (qpn : Nat)
  | box
  deriving DecidableEq, Repr

/-- A dictionary message (R521): VER, TYPE, TID, INDEX, SUB, FLAGS, DEVID, LEN, ARG and DATA. -/
structure DMsg where
  ver : BitVec 8
  typ : BitVec 8
  tid : BitVec 16
  index : BitVec 16
  sub : BitVec 8
  flags : BitVec 8
  devid : BitVec 16
  len : BitVec 16
  arg : BitVec 32
  data : List (BitVec 8)
  deriving DecidableEq, Repr

/-- An extended algorithm structure of NEGOTIATE_ALGORITHMS (R513): Registry ID, reserved byte, Algorithm ID. -/
structure ExtAlg where
  registry : BitVec 8
  rsv : BitVec 8
  alg : BitVec 16
  deriving DecidableEq, Repr

/-- What is done on the test access port (R575): a TAP reset, an instruction scan, or a data scan of as many bits as the list
has, the first shifted in first. -/
inductive TapOp where
  | reset
  | ir (v : BitVec 8)
  | dr (bits : List Bool)
  deriving DecidableEq, Repr


/-- What an RDMA operation of the device on a host window was for (R448): the access a thread waits for; a store of a thread
at an offset of the windows' range; a shunter channel's stream, with the bytes a host delivered and the stream byte at which
it failed. -/
inductive RdmaFor where
  | thread (h : Hart)
  | store (h : Hart) (off : BitVec 40)
  | chan (e : Fin 16) (c : Fin 16) (data : List (BitVec 8)) (done : Nat)
  deriving DecidableEq, Repr

/-- Where a device-fatal error of the I/O dies or of a supply is found (R487). A trip and the loss of the reference have
commands of their own. -/
inductive FatalSrc where
  | timetable
  | routeTable
  | junction
  | ledger
  | keySlot
  | regulator
  deriving DecidableEq, Repr

/-- An SPDM 1.3 request, by its fields that the responder uses (R512, R513). -/
inductive SpdmReq where
  | version
  | capabilities
  | negotiate (ext : List ExtAlg) (sha3 : Bool)
  | digests
  | certificate (slot : BitVec 8) (off len : BitVec 16)
  | challenge (slot : BitVec 8) (nonce : List (BitVec 8))
  | measurements (op : BitVec 8) (sign : Bool) (nonce : List (BitVec 8))
  | other (code : BitVec 8)
  deriving DecidableEq, Repr

/-- The commands the block takes: one constructor per row of the opcode table (spec 95 says what each step holds). A station
instruction carries the hardware thread it belongs to and the fields of its encoding (R57, R121, R167) other than those
that name it; `hit` says whether a cacheable access finds its line in the L1 (log entry 9). -/
inductive Instr where
  /-- ADD (R60): Writes rs1 plus rs2, wrapping modulo 2^64, to rd. -/
  | add (h : Hart) (rd rs1 rs2 : Fin 32)
  /-- SUB (R60): Writes rs1 minus rs2 to rd. -/
  | sub (h : Hart) (rd rs1 rs2 : Fin 32)
  /-- AND (R60): Writes the bitwise and of rs1 and rs2 to rd. -/
  | and (h : Hart) (rd rs1 rs2 : Fin 32)
  /-- OR (R60): Writes the bitwise or of rs1 and rs2 to rd. -/
  | or (h : Hart) (rd rs1 rs2 : Fin 32)
  /-- XOR (R60): Writes the bitwise xor of rs1 and rs2 to rd. -/
  | xor (h : Hart) (rd rs1 rs2 : Fin 32)
  /-- SLL (R60): Shifts rs1 left logically by rs2[5:0]. -/
  | sll (h : Hart) (rd rs1 rs2 : Fin 32)
  /-- SRL (R60): Shifts rs1 right logically by rs2[5:0]. -/
  | srl (h : Hart) (rd rs1 rs2 : Fin 32)
  /-- SRA (R60): Shifts rs1 right arithmetically by rs2[5:0]. -/
  | sra (h : Hart) (rd rs1 rs2 : Fin 32)
  /-- SLT (R60): Writes 1 if rs1 is less than rs2 as signed numbers, and 0 otherwise. -/
  | slt (h : Hart) (rd rs1 rs2 : Fin 32)
  /-- SLTU (R60): Writes 1 if rs1 is less than rs2 as unsigned numbers, and 0 otherwise. -/
  | sltu (h : Hart) (rd rs1 rs2 : Fin 32)
  /-- MIN (R60): Writes the signed minimum of rs1 and rs2. -/
  | min (h : Hart) (rd rs1 rs2 : Fin 32)
  /-- MAX (R60): Writes the signed maximum of rs1 and rs2. -/
  | max (h : Hart) (rd rs1 rs2 : Fin 32)
  /-- MINU (R60): Writes the unsigned minimum of rs1 and rs2. -/
  | minu (h : Hart) (rd rs1 rs2 : Fin 32)
  /-- MAXU (R60): Writes the unsigned maximum of rs1 and rs2. -/
  | maxu (h : Hart) (rd rs1 rs2 : Fin 32)
  /-- CLZ (R60): Writes the number of leading zeros of rs1. -/
  | clz (h : Hart) (rd rs1 rs2 : Fin 32)
  /-- CTZ (R60): Writes the number of trailing zeros of rs1. -/
  | ctz (h : Hart) (rd rs1 rs2 : Fin 32)
  /-- POPC (R60): Writes the number of set bits of rs1. -/
  | popc (h : Hart) (rd rs1 rs2 : Fin 32)
  /-- ADDW (R60): Adds bits 31:0 of the operands and writes the result sign-extended. -/
  | addw (h : Hart) (rd rs1 rs2 : Fin 32)
  /-- SUBW (R60): Subtracts bits 31:0 of the operands and writes the result sign-extended. -/
  | subw (h : Hart) (rd rs1 rs2 : Fin 32)
  /-- ADDI (R61): Adds the sign-extended immediate to rs1. -/
  | addi (h : Hart) (rd rs1 : Fin 32) (imm : BitVec 15)
  /-- ANDI (R61): Ands rs1 with the sign-extended immediate. -/
  | andi (h : Hart) (rd rs1 : Fin 32) (imm : BitVec 15)
  /-- ORI (R61): Ors rs1 with the sign-extended immediate. -/
  | ori (h : Hart) (rd rs1 : Fin 32) (imm : BitVec 15)
  /-- XORI (R61): Xors rs1 with the sign-extended immediate. -/
  | xori (h : Hart) (rd rs1 : Fin 32) (imm : BitVec 15)
  /-- SLTI (R61): Compares rs1 with the immediate as signed numbers. -/
  | slti (h : Hart) (rd rs1 : Fin 32) (imm : BitVec 15)
  /-- SLTIU (R61): Compares rs1 with the immediate as unsigned numbers. -/
  | sltiu (h : Hart) (rd rs1 : Fin 32) (imm : BitVec 15)
  /-- SHI (R61): Shifts or rotates rs1 by an immediate amount, with the kind of shift selected by IMM[7:6]. -/
  | shi (h : Hart) (rd rs1 : Fin 32) (imm : BitVec 15)
  /-- LI (R61): Writes the sign-extended IMM32 to rd. -/
  | li (h : Hart) (rd rs1 rs2 : Fin 32) (fn : BitVec 10) (imm : BitVec 32)
  /-- LIH (R61): Writes IMM32 to rd[63:32] and keeps rd[31:0]. -/
  | lih (h : Hart) (rd rs1 rs2 : Fin 32) (fn : BitVec 10) (imm : BitVec 32)
  /-- BEQ (R62): Branches if rs1 equals rs2. -/
  | beq (h : Hart) (rs1 rs2 : Fin 32) (off : BitVec 12)
  /-- BNE (R62): Branches if rs1 differs from rs2. -/
  | bne (h : Hart) (rs1 rs2 : Fin 32) (off : BitVec 12)
  /-- BLT (R62): Branches if rs1 is less than rs2 as signed numbers. -/
  | blt (h : Hart) (rs1 rs2 : Fin 32) (off : BitVec 12)
  /-- BGE (R62): Branches if rs1 is greater than or equal to rs2 as signed numbers. -/
  | bge (h : Hart) (rs1 rs2 : Fin 32) (off : BitVec 12)
  /-- BLTU (R62): Branches if rs1 is less than rs2 as unsigned numbers. -/
  | bltu (h : Hart) (rs1 rs2 : Fin 32) (off : BitVec 12)
  /-- BGEU (R62): Branches if rs1 is greater than or equal to rs2 as unsigned numbers. -/
  | bgeu (h : Hart) (rs1 rs2 : Fin 32) (off : BitVec 12)
  /-- BEQI (R62): Branches if rs1 equals IMM5. -/
  | beqi (h : Hart) (rs1 : Fin 32) (imm : BitVec 5) (off : BitVec 12)
  /-- BNEI (R62): Branches if rs1 differs from IMM5. -/
  | bnei (h : Hart) (rs1 : Fin 32) (imm : BitVec 5) (off : BitVec 12)
  /-- BLTI (R62): Branches if rs1 is less than IMM5 as signed numbers. -/
  | blti (h : Hart) (rs1 : Fin 32) (imm : BitVec 5) (off : BitVec 12)
  /-- BGEI (R62): Branches if rs1 is greater than or equal to IMM5 as signed numbers. -/
  | bgei (h : Hart) (rs1 : Fin 32) (imm : BitVec 5) (off : BitVec 12)
  /-- BLTUI (R62): Branches if rs1 is less than IMM5 as unsigned numbers. -/
  | bltui (h : Hart) (rs1 : Fin 32) (imm : BitVec 5) (off : BitVec 12)
  /-- BGEUI (R62): Branches if rs1 is greater than or equal to IMM5 as unsigned numbers. -/
  | bgeui (h : Hart) (rs1 : Fin 32) (imm : BitVec 5) (off : BitVec 12)
  /-- J (R63): Jumps to PC plus 4 times OFF. -/
  | j (h : Hart) (off : BitVec 25)
  /-- CALL (R63): Writes PC plus 4 to lr and jumps. -/
  | call (h : Hart) (off : BitVec 25)
  /-- JR (R63): Jumps to rs1 plus IMM and, if rd is not g0, writes the link address to rd. -/
  | jr (h : Hart) (rd rs1 : Fin 32) (imm : BitVec 15)
  /-- CALLM (R68): Saves the masked registers and the return address in a frame, lowers sp and jumps. -/
  | callm (h : Hart) (off : BitVec 25) (mask : BitVec 32) (hit : Bool)
  /-- CALLMR (R68): Does what CALLM does, but jumps to rs1. -/
  | callmr (h : Hart) (rd rs1 rs2 : Fin 32) (fn : BitVec 10) (mask : BitVec 32) (hit : Bool)
  /-- RETM (R69): Restores the masked registers from the frame, raises sp and returns. -/
  | retm (h : Hart) (rd rs1 rs2 : Fin 32) (fn : BitVec 10) (mask : BitVec 32) (hit : Bool)
  /-- LB (R65): Loads a sign-extended byte. -/
  | lb (h : Hart) (rd rs1 : Fin 32) (imm : BitVec 15) (hit : Bool)
  /-- LBU (R65): Loads a zero-extended byte. -/
  | lbu (h : Hart) (rd rs1 : Fin 32) (imm : BitVec 15) (hit : Bool)
  /-- LH (R65): Loads a sign-extended half-word. -/
  | lh (h : Hart) (rd rs1 : Fin 32) (imm : BitVec 15) (hit : Bool)
  /-- LHU (R65): Loads a zero-extended half-word. -/
  | lhu (h : Hart) (rd rs1 : Fin 32) (imm : BitVec 15) (hit : Bool)
  /-- LW (R65): Loads a sign-extended word. -/
  | lw (h : Hart) (rd rs1 : Fin 32) (imm : BitVec 15) (hit : Bool)
  /-- LWU (R65): Loads a zero-extended word. -/
  | lwu (h : Hart) (rd rs1 : Fin 32) (imm : BitVec 15) (hit : Bool)
  /-- LD (R65): Loads a doubleword. -/
  | ld (h : Hart) (rd rs1 : Fin 32) (imm : BitVec 15) (hit : Bool)
  /-- SB (R65): Stores a byte. -/
  | sb (h : Hart) (rd rs1 : Fin 32) (imm : BitVec 15) (hit : Bool)
  /-- SH (R65): Stores a half-word. -/
  | sh (h : Hart) (rd rs1 : Fin 32) (imm : BitVec 15) (hit : Bool)
  /-- SW (R65): Stores a word. -/
  | sw (h : Hart) (rd rs1 : Fin 32) (imm : BitVec 15) (hit : Bool)
  /-- SD (R65): Stores a doubleword. -/
  | sd (h : Hart) (rd rs1 : Fin 32) (imm : BitVec 15) (hit : Bool)
  /-- AADD_W (R67): Performs an int32 atomic add at a scratchpad word and returns the old value. -/
  | aaddW (h : Hart) (rd rs1 rs2 : Fin 32)
  /-- AADD_D (R67): Performs an int64 atomic add at a scratchpad word and returns the old value. -/
  | aaddD (h : Hart) (rd rs1 rs2 : Fin 32)
  /-- AADD_F (R67): Performs an FP32 atomic add at a scratchpad word, or logs the addend in a reproducible phase. -/
  | aaddF (h : Hart) (rd rs1 rs2 : Fin 32)
  /-- ASWAP_W (R67): Swaps a 32-bit scratchpad word atomically. -/
  | aswapW (h : Hart) (rd rs1 rs2 : Fin 32)
  /-- ASWAP_D (R67): Swaps a 64-bit scratchpad word atomically. -/
  | aswapD (h : Hart) (rd rs1 rs2 : Fin 32)
  /-- PREF (R67): Hints that the line at rs1 plus IMM should be fetched, subject to the page rules of prefetch. -/
  | pref (h : Hart) (rd rs1 : Fin 32) (imm : BitVec 15)
  /-- FENCE (R66): Completes earlier accesses and makes earlier stores visible before any later access issues. -/
  | fence (h : Hart) (rd rs1 rs2 : Fin 32)
  /-- FENCE_I (R66): Makes later instruction fetches see earlier stores. -/
  | fenceI (h : Hart) (rd rs1 rs2 : Fin 32)
  /-- MFC (R84): Reads a control register into rd. -/
  | mfc (h : Hart) (rd rs1 : Fin 32) (imm : BitVec 15)
  /-- MTC (R84): Writes rs1 to a control register that has no behaviour of its own. -/
  | mtc (h : Hart) (rd rs1 : Fin 32) (imm : BitVec 15)
  /-- STATUS_WRITE (R89): An MTC to STATUS changes only the fields that the ring may change, as a mode change. -/
  | statusWrite (h : Hart) (rd rs1 : Fin 32)
  /-- XREL (R90): An MTC to XREL releases the shadow sets of the named rings. -/
  | xrel (h : Hart) (rd rs1 : Fin 32)
  /-- VSLFSR_WRITE (R299): An MTC to VSLFSR waits for earlier stochastic vector instructions and then loads the state. -/
  | vslfsrWrite (h : Hart) (rd rs1 : Fin 32)
  /-- QLFSR_WRITE (R77): An MTC to QLFSR loads the stochastic state, loading 1 for zero. -/
  | qlfsrWrite (h : Hart) (rd rs1 : Fin 32)
  /-- ME_FLAGS_WRITE (R226): Clears sticky engine flags, and clears ME_FIRST_NV.VALID when bit 0 is written. -/
  | meFlagsWrite (h : Hart) (rd rs1 : Fin 32)
  /-- ME_SRSEED_WRITE (R231): Waits for earlier drains to retire and then loads all 128 column LFSRs from the seed. -/
  | meSrseedWrite (h : Hart) (rd rs1 : Fin 32)
  /-- FREL (R162): A write of TC_OWN.FREL releases ownership from the owner as TREL does. -/
  | frel (h : Hart) (rd rs1 : Fin 32)
  /-- STOP (R282): A write of ME_CBCTL.STOP makes the sequencer evaluate no further command. -/
  | stop (h : Hart) (rd rs1 : Fin 32)
  /-- GATE (R103): Enters the gate's target ring at its vector, or takes GATE_FAULT. -/
  | gate (h : Hart) (rd rs1 : Fin 32) (imm : BitVec 15)
  /-- NOP (R84): Does nothing. -/
  | nop (h : Hart) (rd rs1 rs2 : Fin 32)
  /-- YIELD (R52): Switches the running thread out. -/
  | yield (h : Hart) (rd rs1 rs2 : Fin 32)
  /-- WFI (R55): Makes the thread not ready until an interrupt is pending for it. -/
  | wfi (h : Hart) (rd rs1 rs2 : Fin 32)
  /-- TSTART (R55): Enables the named thread at the given address. -/
  | tstart (h : Hart) (rd rs1 rs2 : Fin 32)
  /-- TSTOP (R55): Disables the executing thread and releases its ownership. -/
  | tstop (h : Hart) (rd rs1 rs2 : Fin 32)
  /-- XRET (R97): Returns from an entry, restoring PC, sp, STATUS and the loop flags, and clears the occupied bit. -/
  | xret (h : Hart) (rd rs1 rs2 : Fin 32)
  /-- MUL (R71): Writes the low 64 bits of the product to an mq register four cycles after issue. -/
  | mul (h : Hart) (rd rs1 rs2 : Fin 32)
  /-- MULH (R71): Writes the high half of a signed product to mq. -/
  | mulh (h : Hart) (rd rs1 rs2 : Fin 32)
  /-- MULHU (R71): Writes the high half of an unsigned product to mq. -/
  | mulhu (h : Hart) (rd rs1 rs2 : Fin 32)
  /-- MULHSU (R71): Writes the high half of a signed by unsigned product to mq. -/
  | mulhsu (h : Hart) (rd rs1 rs2 : Fin 32)
  /-- MFMQ (R71): Reads an mq register, without an interlock. -/
  | mfmq (h : Hart) (rd rs1 rs2 : Fin 32)
  /-- MTMQ (R71): Writes rs1 to an mq register four cycles after issue. -/
  | mtmq (h : Hart) (rd rs1 rs2 : Fin 32)
  /-- DIV (R73): Signed divide; the thread stalls for 36 cycles. -/
  | div (h : Hart) (rd rs1 rs2 : Fin 32)
  /-- DIVU (R73): Unsigned divide. -/
  | divu (h : Hart) (rd rs1 rs2 : Fin 32)
  /-- REM (R73): Signed remainder. -/
  | rem (h : Hart) (rd rs1 rs2 : Fin 32)
  /-- REMU (R73): Unsigned remainder. -/
  | remu (h : Hart) (rd rs1 rs2 : Fin 32)
  /-- QMAC (R75): Adds the exact Q product to ma, saturating at the 72-bit range. -/
  | qmac (h : Hart) (rd rs1 rs2 : Fin 32) (qf : BitVec 2)
  /-- QMSU (R75): Subtracts the exact Q product from ma. -/
  | qmsu (h : Hart) (rd rs1 rs2 : Fin 32) (qf : BitVec 2)
  /-- QMUL (R76): Rounds and saturates a Q product into rd. -/
  | qmul (h : Hart) (rd rs1 rs2 : Fin 32) (qf : BitVec 2)
  /-- QADD (R76): Writes the saturated Q sum to rd. -/
  | qadd (h : Hart) (rd rs1 rs2 : Fin 32) (qf : BitVec 2)
  /-- QSUB (R76): Writes the saturated Q difference to rd. -/
  | qsub (h : Hart) (rd rs1 rs2 : Fin 32) (qf : BitVec 2)
  /-- QRND (R76): Shifts, rounds and saturates ma into rd. -/
  | qrnd (h : Hart) (rd rs1 rs2 : Fin 32) (qf : BitVec 2)
  /-- QCLR (R78): Clears ma. -/
  | qclr (h : Hart) (rd rs1 rs2 : Fin 32)
  /-- MFMAL (R78): Reads ma[63:0] into rd. -/
  | mfmal (h : Hart) (rd rs1 rs2 : Fin 32)
  /-- MFMAH (R78): Reads ma[71:64], sign-extended, into rd. -/
  | mfmah (h : Hart) (rd rs1 rs2 : Fin 32)
  /-- MTMAL (R78): Writes rs1 to ma[63:0]. -/
  | mtmal (h : Hart) (rd rs1 rs2 : Fin 32)
  /-- MTMAH (R78): Writes rs1[7:0] to ma[71:64]. -/
  | mtmah (h : Hart) (rd rs1 rs2 : Fin 32)
  /-- LOOP (R80): Enters hardware loop N with the programmed count, or skips the body when the count is zero. -/
  | loop (h : Hart) (rd rs1 : Fin 32) (imm : BitVec 15)
  /-- LOOPI (R79): Writes the loop count from the immediate and enters the loop. -/
  | loopi (h : Hart) (rd rs1 rs2 : Fin 32) (fn : BitVec 10) (imm : BitVec 32)
  /-- MISS_REPLY (R54): The critical sector of a miss arrives; the instruction completes and its thread becomes ready. -/
  | missReply (h : Hart) (data : Word) (err : Bool) (crc : Fin 6)
  /-- IMPRECISE_DELIVERY (R107): A pending imprecise ARITH or ME_CMD is delivered at the first boundary that allows it. -/
  | impreciseDelivery (h : Hart)
  /-- MCHK_DELIVERY (R105): An uncorrectable error in consumed data enters ring 0 as MCHK. -/
  | mchkDelivery (h : Hart)
  /-- INTERRUPT_ENTRY (R104): A pending, unmasked and deliverable interrupt is taken at an instruction boundary. -/
  | interruptEntry (h : Hart)
  /-- NOINT_EXPIRY (R112): NOINT_CNT reaches MAX while IE is 0; IE and OVRSTAY are set. -/
  | nointExpiry (h : Hart)
  /-- SETVL (R114): Sets VL to the smaller of rs1 and VLEN/SEW and writes it to rd. -/
  | setvl (h : Hart) (f : VF)
  /-- VLD (R130): Unit-stride vector load, with every element checked before any data access. -/
  | vld (h : Hart) (f : VmF) (hit : Bool)
  /-- VLDS (R130): Strided vector load. -/
  | vlds (h : Hart) (f : VmF) (hit : Bool)
  /-- VLDX (R130): Indexed vector load (gather). -/
  | vldx (h : Hart) (f : VmF) (hit : Bool)
  /-- VLR (R130): Loads a whole vector register. -/
  | vlr (h : Hart) (f : VmF) (hit : Bool)
  /-- KLR (R130): Loads a whole predicate register. -/
  | klr (h : Hart) (f : VmF) (hit : Bool)
  /-- VST (R130): Unit-stride vector store. -/
  | vst (h : Hart) (f : VmF) (hit : Bool)
  /-- VSTS (R130): Strided vector store. -/
  | vsts (h : Hart) (f : VmF) (hit : Bool)
  /-- VSTX (R130): Indexed vector store (scatter). -/
  | vstx (h : Hart) (f : VmF) (hit : Bool)
  /-- VSR (R130): Stores a whole vector register. -/
  | vsr (h : Hart) (f : VmF) (hit : Bool)
  /-- KSR (R130): Stores a whole predicate register. -/
  | ksr (h : Hart) (f : VmF) (hit : Bool)
  /-- VFADD (R144): Floating-point vector add. -/
  | vfadd (h : Hart) (f : VF)
  /-- VFSUB (R144): Floating-point vector subtract. -/
  | vfsub (h : Hart) (f : VF)
  /-- VFMUL (R144): Floating-point vector multiply. -/
  | vfmul (h : Hart) (f : VF)
  /-- VFDIV (R144): Floating-point vector divide, correctly rounded. -/
  | vfdiv (h : Hart) (f : VF)
  /-- VFSQRT (R144): Floating-point vector square root. -/
  | vfsqrt (h : Hart) (f : VF)
  /-- VFMIN (R127): IEEE 754-2019 vector minimum. -/
  | vfmin (h : Hart) (f : VF)
  /-- VFMAX (R127): IEEE 754-2019 vector maximum. -/
  | vfmax (h : Hart) (f : VF)
  /-- VFABS (R144): Clears the sign bit of every active element. -/
  | vfabs (h : Hart) (f : VF)
  /-- VFNEG (R144): Inverts the sign bit of every active element. -/
  | vfneg (h : Hart) (f : VF)
  /-- VFMA (R144): Fused multiply-add into vd. -/
  | vfma (h : Hart) (f : VF)
  /-- VFMS (R144): Fused multiply, then subtract vd. -/
  | vfms (h : Hart) (f : VF)
  /-- VFNMA (R144): Negated fused multiply, then add vd. -/
  | vfnma (h : Hart) (f : VF)
  /-- VADD (R145): Wrapping integer vector add. -/
  | vadd (h : Hart) (f : VF)
  /-- VSUB (R145): Wrapping integer vector subtract. -/
  | vsub (h : Hart) (f : VF)
  /-- VMUL (R145): Low half of an integer vector multiply. -/
  | vmul (h : Hart) (f : VF)
  /-- VMULH (R145): High half of a signed integer vector multiply. -/
  | vmulh (h : Hart) (f : VF)
  /-- VMULHU (R145): High half of an unsigned integer vector multiply. -/
  | vmulhu (h : Hart) (f : VF)
  /-- VAND (R145): Bitwise vector and. -/
  | vand (h : Hart) (f : VF)
  /-- VOR (R145): Bitwise vector or. -/
  | vor (h : Hart) (f : VF)
  /-- VXOR (R145): Bitwise vector xor. -/
  | vxor (h : Hart) (f : VF)
  /-- VSLL (R145): Vector shift left logical. -/
  | vsll (h : Hart) (f : VF)
  /-- VSRL (R145): Vector shift right logical. -/
  | vsrl (h : Hart) (f : VF)
  /-- VSRA (R145): Vector shift right arithmetic. -/
  | vsra (h : Hart) (f : VF)
  /-- VMIN (R145): Integer vector minimum. -/
  | vmin (h : Hart) (f : VF)
  /-- VMAX (R145): Integer vector maximum. -/
  | vmax (h : Hart) (f : VF)
  /-- VQADD (R145): Saturating Q vector add. -/
  | vqadd (h : Hart) (f : VF)
  /-- VQSUB (R145): Saturating Q vector subtract. -/
  | vqsub (h : Hart) (f : VF)
  /-- VQMUL (R145): Rounded and saturating Q vector multiply. -/
  | vqmul (h : Hart) (f : VF)
  /-- VCMP (R146): Vector compare into a predicate. -/
  | vcmp (h : Hart) (f : VF)
  /-- KAND (R146): Predicate and. -/
  | kand (h : Hart) (f : VF)
  /-- KOR (R146): Predicate or. -/
  | kor (h : Hart) (f : VF)
  /-- KXOR (R146): Predicate xor. -/
  | kxor (h : Hart) (f : VF)
  /-- KANDN (R146): Predicate and-not. -/
  | kandn (h : Hart) (f : VF)
  /-- KNOT (R146): Predicate not. -/
  | knot (h : Hart) (f : VF)
  /-- KPOPC (R146): Counts the active predicate bits below VL. -/
  | kpopc (h : Hart) (f : VF)
  /-- KFIRST (R146): Writes the index of the lowest set predicate bit, or -1. -/
  | kfirst (h : Hart) (f : VF)
  /-- VSEL (R146): Selects each element from vs1 or vs2 by the predicate. -/
  | vsel (h : Hart) (f : VF)
  /-- VSLIDEUP (R147): Slides the elements up. -/
  | vslideup (h : Hart) (f : VF)
  /-- VSLIDEDN (R147): Slides the elements down. -/
  | vslidedn (h : Hart) (f : VF)
  /-- VPERM (R147): Permutes the elements by index. -/
  | vperm (h : Hart) (f : VF)
  /-- VCOMPRESS (R147): Packs the active elements from element 0. -/
  | vcompress (h : Hart) (f : VF)
  /-- VIOTA (R147): Writes each element's index. -/
  | viota (h : Hart) (f : VF)
  /-- VRSUM (R135): Sums each segment by the fixed pairwise tree. -/
  | vrsum (h : Hart) (f : VF)
  /-- VRMAX (R135): Segmented maximum by the fixed tree. -/
  | vrmax (h : Hart) (f : VF)
  /-- VRMIN (R135): Segmented minimum by the fixed tree. -/
  | vrmin (h : Hart) (f : VF)
  /-- VRSEXP2 (R136): Segmented sum of exp2 of each element less the segment value. -/
  | vrsexp2 (h : Hart) (f : VF)
  /-- VTOPK (R138): Selects the k largest active elements with their indices. -/
  | vtopk (h : Hart) (f : VF)
  /-- VTOPKM (R139): Merges a strip into an existing top-k list. -/
  | vtopkm (h : Hart) (f : VF)
  /-- VCVT (R141): Converts between element types, with rounding and saturation. -/
  | vcvt (h : Hart) (f : VF)
  /-- VEXP2 (R137): Approximate base-2 exponential. -/
  | vexp2 (h : Hart) (f : VF)
  /-- VLOG2 (R137): Approximate base-2 logarithm. -/
  | vlog2 (h : Hart) (f : VF)
  /-- VBQ (R140): Quantizes into block-scaled FP8 or INT8 with E8M0 scales. -/
  | vbq (h : Hart) (f : VF)
  /-- VBD (R140): Decodes block-scaled elements to FP32 or BF16. -/
  | vbd (h : Hart) (f : VF)
  /-- VBCAST (R148): Broadcasts a general register to every element. -/
  | vbcast (h : Hart) (f : VF)
  /-- VMVGV (R148): Moves a general register into element 0. -/
  | vmvgv (h : Hart) (f : VF)
  /-- VMVVG (R148): Moves element 0 into a general register. -/
  | vmvvg (h : Hart) (f : VF)
  /-- LANE_GROUP_GATE (R126): A lane group idle for VU_PGCTL.IDLE cycles is gated. -/
  | laneGroupGate (n : Fin 128) (g : Fin 8)
  /-- TSHAPE (R153): Checks ownership and V, waits for operations on the tile, then writes TC_CFGn. -/
  | tshape (h : Hart) (f : TF)
  /-- TFILL (R155): Fills the configured rows of a tile from memory, after all checks pass. -/
  | tfill (h : Hart) (f : TF)
  /-- TDUMP (R155): Writes the configured rows of a tile to memory. -/
  | tdump (h : Hart) (f : TF)
  /-- TBLANK (R159): Zeroes the configured rows of a tile. -/
  | tblank (h : Hart) (f : TF)
  /-- TRV (R159): Copies a tile row into a vector register. -/
  | trv (h : Hart) (f : TF)
  /-- TWV (R159): Copies a vector register into a tile row. -/
  | twv (h : Hart) (f : TF)
  /-- TACQ (R161): Acquires ownership of the tiles and the engine, or returns 0, or waits. -/
  | tacq (h : Hart) (f : TF)
  /-- TREL (R162): Ends the owner's right, and frees ownership once its operations retire. -/
  | trel (h : Hart) (f : TF)
  /-- OWNERSHIP_FREE (R162): The former owner's operations retire; ownership passes to the chosen waiting thread. -/
  | ownershipFree (n : Fin 128)
  /-- MEB (R178): Moves a stationary tile into the free stationary buffer, or reuses the latched one. -/
  | meb (h : Hart) (f : TF)
  /-- MEA (R180): Appends a tile to the A list. -/
  | mea (h : Hart) (f : TF)
  /-- MEACC (R188): Zeroes the active accumulator set, or loads tile rows into it. -/
  | meacc (h : Hart) (f : TF)
  /-- MEST (R245): Checks a drain descriptor and queues a drain of the shadow set. -/
  | mest (h : Hart) (f : TF)
  /-- MEGO (R184): Checks an operation descriptor and queues one engine operation. -/
  | mego (h : Hart) (f : TF)
  /-- MERUN (R189): Queues a command block for the engine sequencer. -/
  | merun (h : Hart) (f : TF)
  /-- MESYNC (R190): Switches the thread out until the queued engine instructions retire. -/
  | mesync (h : Hart) (f : TF)
  /-- STATIONARY_LOAD (R182): A stationary load starts once its conditions hold and reads the tile into a buffer. -/
  | stationaryLoad (n : Fin 128)
  /-- STATIONARY_LOAD_END (R186): A stationary load ends and its MEB retires. -/
  | stationaryLoadEnd (n : Fin 128)
  /-- OPERATION_START (R187): The first row of an operation enters the grid once its conditions hold. -/
  | operationStart (n : Fin 128)
  /-- SWAP (R239): The active and shadow sets are exchanged once earlier commits and drain reads are done. -/
  | swap (n : Fin 128)
  /-- ROW_COMMIT (R172): A row is compared with its check sum and committed to the active set. -/
  | rowCommit (n : Fin 128) (mismatch : Bool)
  /-- MEACC_END (R188): A MEACC completes and later commits may proceed. -/
  | meaccEnd (n : Fin 128)
  /-- BALLAST_STEP (R195): At the end of a 32-cycle step the ballast level rises, falls or holds. -/
  | ballastStep (n : Fin 128)
  /-- DRAIN_START (R246): A drain reads its first shadow entry once its conditions hold. -/
  | drainStart (n : Fin 128)
  /-- DRAIN_ROW (R247): An output row passes through combine, scale, clip, convert and write. -/
  | drainRow (n : Fin 128)
  /-- DRAIN_RETIRE (R247): A drain or spill retires and its scratchpad writes become visible. -/
  | drainRetire (n : Fin 128)
  /-- BLOCK_START (R276): The sequencer reads and checks a command block when the engine reaches the MERUN. -/
  | blockStart (n : Fin 128)
  /-- CB_NOP (R265): Command-block NOP. -/
  | cbNop (n : Fin 128)
  /-- CB_LOOP (R269): Latches a count and enters or skips a loop level. -/
  | cbLoop (n : Fin 128)
  /-- CB_FILL (R265): Issues a TFILL from the slot address. -/
  | cbFill (n : Fin 128)
  /-- CB_DUMP (R265): Issues a TDUMP to the slot address. -/
  | cbDump (n : Fin 128)
  /-- CB_SHAPE (R265): Issues a TSHAPE. -/
  | cbShape (n : Fin 128)
  /-- CB_BLANK (R265): Issues a TBLANK. -/
  | cbBlank (n : Fin 128)
  /-- CB_MB (R265): Issues a MEB. -/
  | cbMb (n : Fin 128)
  /-- CB_MA (R265): Issues a MEA. -/
  | cbMa (n : Fin 128)
  /-- CB_MACC (R265): Issues a MEACC. -/
  | cbMacc (n : Fin 128)
  /-- CB_GO (R265): Issues an operation. -/
  | cbGo (n : Fin 128)
  /-- CB_ST (R265): Issues a drain. -/
  | cbSt (n : Fin 128)
  /-- PSET (R265): Sets and clears command-block predicates. -/
  | pset (n : Fin 128)
  /-- PLOOP (R265): Sets a predicate from the first or last iteration of a loop. -/
  | ploop (n : Fin 128)
  /-- PTEST (R267): Waits for earlier commands, then sets a predicate from a memory word. -/
  | ptest (n : Fin 128)
  /-- CB_SYNC (R267): Waits until every earlier command has retired. -/
  | cbSync (n : Fin 128)
  /-- EXIT (R265): Ends the block with DONE. -/
  | exit (n : Fin 128)
  /-- BLOCK_END (R278): The block ends once evaluation has stopped and its commands have retired; status is written and the interrupt is raised. -/
  | blockEnd (n : Fin 128)
  /-- TICK_BOUNDARY (R27): A tick boundary occurs and the tick number advances. -/
  | tickBoundary (p tj : BitVec 16) (mj : Nat)
  /-- PHASE_START (R34): A phase starts at its boundary: it dispatches waybills, raises the phase-start interrupt and clears the phase flags. -/
  | phaseStart (hosts : List (List (BitVec 8)))
  /-- PHASE_DEADLINE (R37): A running phase reaches its deadline boundary and enters LATE. -/
  | phaseDeadline 
  /-- TT_DONE (R35): The runtime declares the current phase done. -/
  | ttDone (h : Hart) (v : Word)
  /-- PHASE_END (R35): All end conditions hold; the phase ends and its record is written. -/
  | phaseEnd 
  /-- REPRO_LOG_APPLY (R302): Each bank applies its AADD.F log in fixed order once the other end conditions hold. -/
  | reproLogApply (n : Fin 128)
  /-- ENABLE (R32): A write of TT_CTRL.ENABLE checks the table and starts a cycle, or stops the timetable at cycle end when 0. -/
  | enable (h : Hart) (v : Word)
  /-- TT_PERIOD_WRITE (R29): A TT_PERIOD write is accepted or refused by state and range. -/
  | ttPeriodWrite (h : Hart) (v : Word)
  /-- HALT (R40): A write of TT_CTRL.HALT requests a halt. -/
  | halt (h : Hart) (v : Word)
  /-- HALT_N (R40): HALT_N held low for at least 1 µs requests a halt. -/
  | haltN 
  /-- HALT_TICK (R42): At the halt tick threads, engines, channels and transfers stop and the phase is recorded HALTED. -/
  | haltTick 
  /-- HALT_COMPLETE (R42): The halt steps end and the timetable enters HELD. -/
  | haltComplete 
  /-- RESUME (R46): A write of TT_CTRL.RESUME on a standalone device schedules a resume boundary. -/
  | resume (h : Hart) (v : Word)
  /-- RESUME_BOUNDARY (R46): At the resume boundary a new cycle begins with phase 0, and STARTED waybills return to ACCEPTED. -/
  | resumeBoundary 
  /-- TICK_SEND (R428): The master sends the BOUNDARY TICK TT_HALT_LEAD before each boundary. -/
  | tickSend 
  /-- TICK_RECEIVE (R429): A follower accepts or discards a TICK and places its boundary. -/
  | tickReceive 
  /-- MISSED_TICK (R435): No TICK arrives by the expected boundary; the follower freewheels. -/
  | missedTick (p tj : BitVec 16) (mj : Nat)
  /-- REPORT_RECEIVE (R431): A node takes a child's REPORT and forwards the subtree's report. -/
  | reportReceive 
  /-- REPORT_TIMEOUT (R432): A node sends its REPORT with missing children counted after its wait expires. -/
  | reportTimeout 
  /-- PARTITION_DETECT (R437): After three incomplete evaluations the master marks a halt tick with PARTITION. -/
  | partitionDetect 
  /-- LEASE_EXPIRY (R439): The lease expires; the boundary becomes a halt tick with LEASE_LOST and HOLD clears. -/
  | leaseExpiry 
  /-- ORDER_FLIT (R441): Segments of a signed order arrive in ORDER flits and are forwarded or passed to the order path. -/
  | orderFlit (ret : Option (BitVec 32 × BitVec 8))
  /-- ORDER_HALT (R442): HALT order: a halt request. -/
  | orderHalt 
  /-- ORDER_RESUME (R442): RESUME order to the staff holder names the resume boundary. -/
  | orderResume (tick : Word)
  /-- ORDER_LEASE (R442): LEASE order renews TT_LEASE.EXPIRY. -/
  | orderLease (epoch : BitVec 32) (expiry : Word)
  /-- ORDER_STAFF (R442): STAFF order makes a held device the master with a new epoch. -/
  | orderStaff (epoch : BitVec 32) (expiry : Word)
  /-- ORDER_BIND (R475): BIND order checks the staged record and binds or rebinds the device. -/
  | orderBind (digest : List (BitVec 8))
  /-- ORDER_UNBIND (R479): UNBIND order runs steps 1 to 6 and loads a fresh slot 0 key. -/
  | orderUnbind 
  /-- ORDER_SEAL (R475): SEAL order makes an interim seal with CAUSE REQUEST. -/
  | orderSeal 
  /-- ORDER_RETIRE_STN (R492): RETIRE_STN order retires a station at once or marks it pending. -/
  | orderRetireStn (n : BitVec 16)
  /-- ORDER_DEBUG (R516): DEBUG order enables the private JTAG instructions and extends M5. -/
  | orderDebug (env : List (BitVec 8))
  /-- ORDER_FORWARD_TIMEOUT (R538): A forwarded order without a result after 40 ms is answered FORWARDED. -/
  | orderForwardTimeout 
  /-- SEAL_SIGN (R483): The security engine signs a seal within 50 ms of its snapshot. -/
  | sealSign 
  /-- LINK_ENABLE (R401): A write of LK_CTRL.EN lets a link with signal leave DOWN and train. -/
  | linkEnable (h : Hart) (l : Fin 24) (v : Word)
  /-- LANE_TRAIN_TIMEOUT (R401): A lane that fails to train within 50 ms is marked unusable. -/
  | laneTrainTimeout (l : Fin 24) (lane : Fin 8)
  /-- CAPS (R402): A received CAPS sets the versions and active lanes, or the link enters FAILED. -/
  | caps (l : Fin 24) (vmask : BitVec 16) (vhi vmin : BitVec 8) (devid : BitVec 16) (lanes : BitVec 8)
  /-- CAPS_SEND (R401): In NEGOTIATE each end sends CAPS every 1 µs. -/
  | capsSend (l : Fin 24)
  /-- ECHO (R403): Each end sends ECHO every 1 ms while UP. -/
  | echo (l : Fin 24) (answer : Option (Nat × Nat))
  /-- ECHOR (R403): A received ECHOR updates LK_LAT. -/
  | echor (l : Fin 24) (t hold : Nat)
  /-- FLIT_RECEIVE (R398): A received flit is accepted in order and passed to the junction, or counted as a failure with NAK. -/
  | flitReceive (l : Fin 24) (lane : Fin 8) (ok : Bool) (lseq lack : BitVec 16) (nak : Bool) (f : Flit)
  /-- NAK_REPLAY (R399): A NAK makes the transmitter resend every unacknowledged flit. -/
  | nakReplay (l : Fin 24) (lane : Fin 8) (lack : BitVec 16)
  /-- REPLAY_TIMEOUT (R399): LACK has not advanced for 4 µs; unacknowledged flits are resent. -/
  | replayTimeout (l : Fin 24) (lane : Fin 8)
  /-- RECOVER (R400): An exhausted flit makes both ends recover, realign and resend from LACK plus 1. -/
  | recover (l : Fin 24) (lack : BitVec 16)
  /-- LANE_THRESHOLD (R406): A lane exceeds its failure threshold and is retired, or OVER is set. -/
  | laneThreshold (l : Fin 24) (lane : Fin 8)
  /-- RETIRE (R407): A received RETIRE makes both ends stop using the lane from FROM. -/
  | retire (l : Fin 24) (lane : Fin 8) (from_ : BitVec 16)
  /-- CREDIT (R414): A received CREDIT returns flit credits per traffic class. -/
  | credit (l : Fin 24) (ret : List (BitVec 8))
  /-- ROUTED_FLIT (R409): The junction delivers, forwards or discards a routed flit by DST, route and consist tag. -/
  | routedFlit (l : Fin 24)
  /-- RDREQ (R396): A remote read request is served or refused, and a RESP is returned. -/
  | rdreq 
  /-- WRREQ (R396): A remote write request is served or refused, and a RESP follows unless the request is posted. -/
  | wrreq 
  /-- RESP (R396): A response completes the originating remote access. -/
  | resp 
  /-- REMOTE_TIMEOUT (R396): A request unanswered for 10 ms ends the shunter transfer with REMOTE. -/
  | remoteTimeout (e : Fin 16) (c : Fin 16)
  /-- LINK_RESET (R558): LK_CTRL.RESET returns the link to DOWN, discards replay and retrains every lane. -/
  | linkReset (h : Hart) (l : Fin 24) (v : Word)
  /-- ROUTE_DATA_ACCESS (R410): A JN_RTDATA access reads or writes the selected route entry and may advance the index. -/
  | routeDataAccess (h : Hart) (v : Option Word)
  /-- REDUCTION_GO (R419): A write of JN_RGOg.GO starts a reduction instance from its descriptor. -/
  | reductionGo (h : Hart) (g : Fin 16) (v : Word)
  /-- RED (R421): A RED chunk arrives and is folded into the node's operand list. -/
  | red 
  /-- REDUCTION_END (R419): An instance completes; its descriptor status is written and OWN is cleared. -/
  | reductionEnd (g : Fin 16)
  /-- SH_GO (R378): SH_CTRLn.GO with CHAIN = 0 starts a direct contiguous transfer. -/
  | shGo (h : Hart) (e : Fin 16) (c : Fin 16) (v : Word)
  /-- SH_GO_CHAIN (R379): GO with CHAIN starts a descriptor chain at SH_CHAINn. -/
  | shGoChain (h : Hart) (e : Fin 16) (c : Fin 16) (v : Word)
  /-- SH_STOP (R388): SH_CTRLn.STOP stops a busy channel at the next 64-byte boundary. -/
  | shStop (h : Hart) (e : Fin 16) (c : Fin 16) (v : Word)
  /-- DESCRIPTOR_START (R379): The channel reads the next descriptor, checks OWN and R383, and begins its transfer. -/
  | descriptorStart (e : Fin 16) (c : Fin 16)
  /-- TRANSFER_END (R387): A transfer ends with a status; the status word is written, OWN cleared and the interrupt raised. -/
  | transferEnd (e : Fin 16) (c : Fin 16) (data : List (BitVec 8)) (reached : Nat)
  /-- GE_START (R335): GE_CMD start checks a stream entry and makes it ACTIVE, DONE or FAULT. -/
  | geStart (h : Hart) (n : Fin 128) (k : Fin 64)
  /-- GE_RESUME (R335): GE_CMD resume continues a stream from POS. -/
  | geResume (h : Hart) (n : Fin 128) (k : Fin 64)
  /-- GE_STOP (R338): GE_CMD stop makes the stream issue no further element. -/
  | geStop (h : Hart) (n : Fin 128) (k : Fin 64)
  /-- GATHER_ELEMENT (R336): The engine starts one element of an active stream, or stops the stream at a failing element. -/
  | gatherElement (n : Fin 128) (err : Bool)
  /-- STREAM_END (R338): A stream leaves ACTIVE, updating STATE, GE_DONE or GE_FAULT and the interrupt. -/
  | streamEnd (n : Fin 128) (k : Fin 64)
  /-- SP_PWR_WRITE (R316): A write of SP_PWR.TARGET requests RETAIN, OFF or a wake. -/
  | spPwrWrite (h : Hart) (n : Fin 128) (v : Word)
  /-- SP_POWER_DOWN (R316): Once the station's engines and accesses are idle, the scratchpad enters RETAIN or OFF. -/
  | spPowerDown (n : Fin 128)
  /-- SP_WAKE_END (R317): A wake completes, the scratchpad is ON and waiting accesses are served. -/
  | spWakeEnd (n : Fin 128)
  /-- MM_ROOT_WRITE (R355): A write of MM_ROOT invalidates every TLB of the station and its gather engine. -/
  | mmRootWrite (h : Hart) (n : Fin 128) (v : Word)
  /-- MM_TLBINV (R354): Drops the matching TLB entries before acknowledging the store. -/
  | mmTlbinv (h : Hart) (n : Fin 128) (v : Word)
  /-- FT_SMBASE_WRITE (R363): A write of FT_SMBASE is accepted only with a valid GDDR7 base. -/
  | ftSmbaseWrite (h : Hart) (v : Word)
  /-- FT_INVAL (R366): Drops cached siding entries, first writing back the windows when WB is set. -/
  | ftInval (h : Hart) (v : Word)
  /-- CXL_PORT_DOWN (R368): A CXL port goes down; accesses fail and the event is recorded. -/
  | cxlPortDown (p : Fin 4)
  /-- PROD (R449): A doorbell PROD write makes new slots available, or is ignored with DBOVF. -/
  | prod (q : Fin 16) (v : BitVec 32)
  /-- RETIRE_DOORBELL (R450): The host writes the lowest sequence number whose ledger entry it still needs. -/
  | retireDoorbell (q : Fin 16) (v : Word)
  /-- WAYBILL_CHECK (R453): The device checks the next slot and rejects, answers as a duplicate or accepts the waybill. -/
  | waybillCheck (q : Fin 16)
  /-- FLUSH_COMPLETE (R454): A global persistent flush completes, and the waiting replies or ledger steps proceed. -/
  | flushComplete (q : Fin 16)
  /-- GPFTO (R454): A flush exceeds GPFTO; the queue is locked. -/
  | gpfto (q : Fin 16)
  /-- START (R459): LD_OP START moves an ACCEPTED entry to STARTED. -/
  | start (h : Hart) (v : Word)
  /-- COMMIT (R462): LD_OP COMMIT requests the ledger switch. -/
  | commit (h : Hart) (v : Word)
  /-- FAIL (R459): LD_OP FAIL moves a STARTED entry to FAILED. -/
  | fail (h : Hart) (v : Word)
  /-- LEDGER_SWITCH (R463): Once s - 1 is settled, the switch writes back outputs, writes COMMITTED and COMPLETED, and replies. -/
  | ledgerSwitch (q : Fin 16)
  /-- RECOVER_LEDGER (R466): LD_CTRL.RECOVER rebuilds NEXT, returns STARTED entries and repeats replies for each queue. -/
  | recoverLedger (h : Hart) (v : Word)
  /-- RDMA_WRITE (R446): A host RDMA WRITE reaches a registered range, or is refused with NAK. -/
  | rdmaWrite (p : Fin 4) (qpn : Fin 1024) (pa : BitVec 48) (rkey : BitVec 32) (bytes : List (BitVec 8)) (ecn : Bool)
  /-- RDMA_READ (R446): A host RDMA READ of a registered range is answered. -/
  | rdmaRead (p : Fin 4) (qpn : Fin 1024) (pa : BitVec 48) (rkey n : BitVec 32) (ecn : Bool)
  /-- RDMA_ATOMIC (R446): An RDMA atomic is answered with NAK invalid request. -/
  | rdmaAtomic (p : Fin 4) (qpn : Fin 1024) (ecn : Bool)
  /-- CONGESTION_NOTIFICATION (R445): A congestion notification lowers the queue pair's send rate. -/
  | congestionNotification (p : Fin 4) (qpn : Fin 1024)
  /-- HPRST (R559): CK_RST.HPRST resets a host port and its queue pairs. -/
  | hprst (h : Hart) (v : Word)
  /-- HOST_LINK_DOWN (R487): A host port link goes down and is recorded. -/
  | hostLinkDown (p : Fin 4)
  /-- DICT_READ (R522): Expedited read of an entry. -/
  | dictRead (p : Peer) (m : DMsg) (serve : Bool)
  /-- DICT_WRITE (R522): Expedited write of an entry. -/
  | dictWrite (p : Peer) (m : DMsg) (serve : Bool)
  /-- READ_INIT (R525): Opens a segmented read and latches the entry. -/
  | readInit (p : Peer) (m : DMsg) (serve : Bool)
  /-- WRITE_INIT (R525): Opens a segmented write. -/
  | writeInit (p : Peer) (m : DMsg) (serve : Bool)
  /-- SEG (R523): Carries or requests one segment; the last write segment makes the write take effect. -/
  | seg (p : Peer) (m : DMsg) (serve : Bool)
  /-- DICT_ABORT (R522): The requester closes its open transfer. -/
  | dictAbort (p : Peer) (m : DMsg)
  /-- TRANSFER_TIMEOUT (R524): A transfer with no message for 1 s is aborted. -/
  | transferTimeout 
  /-- QUEUE_TIMEOUT (R539): A request not served 50 ms after arrival is answered busy. -/
  | queueTimeout 
  /-- TELEMETRY_SAMPLE (R540): The signal box takes a telemetry record and adjusts the degraded period. -/
  | telemetrySample (pin iin vin tjmax tjstn : BitVec 16)
  /-- SIGNAL_BOX_RESTART (R541): The signal box restarts, dropping messages and closing transfers. -/
  | signalBoxRestart 
  /-- GET_VERSION (R512): SPDM request answered with version 1.3. -/
  | getVersion 
  /-- GET_CAPABILITIES (R512): SPDM request answered with the capabilities. -/
  | getCapabilities 
  /-- NEGOTIATE_ALGORITHMS (R513): Selects ML-DSA-87 and SHA3-512, or fails. -/
  | negotiateAlgorithms (ext : List ExtAlg) (sha3 : Bool)
  /-- GET_DIGESTS (R512): Returns the slot 0 digests. -/
  | getDigests 
  /-- GET_CERTIFICATE (R512): Returns the slot 0 chain. -/
  | getCertificate (slot : BitVec 8) (off len : BitVec 16)
  /-- CHALLENGE (R513): Returns a signed CHALLENGE_AUTH. -/
  | challenge (slot : BitVec 8) (nonce : List (BitVec 8))
  /-- GET_MEASUREMENTS (R512): Returns M0 to M5, signed. -/
  | getMeasurements (op : BitVec 8) (sign : Bool) (nonce : List (BitVec 8))
  /-- UNSUPPORTED_REQUEST (R512): Any other SPDM request is answered with ERROR UnsupportedRequest. -/
  | unsupportedRequest (code : BitVec 8)
  /-- BOOT_IMAGE_VERIFY (R505): The end of the 0x7100 transfer starts the image checks. -/
  | bootImageVerify (bad : Option (Fin 132))
  /-- CM_CONNECT (R503): A connection request to queue pair 1 makes the administrator connection of the boot. -/
  | cmConnect (p : Fin 4) (rqpn : BitVec 24) (rc qp0 : Bool) (mtu : BitVec 16)
  /-- BOOT_LINK_TIMEOUT (R503): The boot host port alternates LMODE every 500 ms until the link is up. -/
  | bootLinkTimeout 
  /-- RC_FREEZE (R499): RC_CTRL.FREEZE freezes the recorder. -/
  | rcFreeze (h : Hart) (v : Word)
  /-- UNFREEZE (R499): RC_CTRL.UNFREEZE releases the freeze and clears POSTDONE and LOST. -/
  | unfreeze (h : Hart) (v : Word)
  /-- CLEAR (R500): RC_CTRL.CLEAR empties a frozen ring and writes the cleared entry. -/
  | clear (h : Hart) (v : Word)
  /-- RC_RIDX_WRITE (R500): A write of RC_RIDX latches the entry into RC_RDATA0 to RC_RDATA3. -/
  | rcRidxWrite (h : Hart) (v : Word)
  /-- DEVICE_FATAL (R490): A device-fatal error stops everything, destroys the keys and freezes the recorder. -/
  | deviceFatal (x : FatalSrc) (iod : Fin 4) (data : Word)
  /-- THERMAL_TRIP (R549): A sensor at 110 °C for 10 µs trips the device and removes the rails. -/
  | thermalTrip 
  /-- REFERENCE_LOSS (R550): Loss of the reference or of PLL lock causes a device-fatal stop. -/
  | referenceLoss (lost : BitVec 8)
  /-- VIN_LOSS (R566): VIN_12V below 10.8 V for 10 µs stops the device and enters STANDBY. -/
  | vinLoss 
  /-- VDD_STBY_LOSS (R566): VDD_STBY below 2.9 V for 10 µs stops the device and enters OFF. -/
  | vddStbyLoss 
  /-- STANDBY_POWER_APPLIED (R555): Standby power comes up and the recorder records it. -/
  | standbyPowerApplied 
  /-- RAILS_UP (R555): VIN_12V in range for 10 ms brings the rails up and runs the cold reset. -/
  | railsUp (strap : BitVec 4) (bad : List (Fin 96))
  /-- COLD_RST_N (R555): COLD_RST_N low for 1 ms runs a cold reset. -/
  | coldRstN (strap : BitVec 4) (bad : List (Fin 96)) (cool : Bool)
  /-- WARM_RST_N (R556): WARM_RST_N low for 10 µs runs a warm reset. -/
  | warmRstN (strap : BitVec 4)
  /-- WARM (R556): A ring 0 write of CK_RST.WARM runs a warm reset. -/
  | warm (h : Hart) (v : Word)
  /-- STATION_RESET (R557): A write of CK_SRSTj resets the named stations. -/
  | stationReset (h : Hart) (j : Fin 2) (v : Word)
  /-- REGISTER_WRITE (R10): A write to a register with no behaviour of its own updates its fields by type. -/
  | registerWrite (h : Hart) (pa : BitVec 48) (v : Word)
  /-- LINK_SIGNAL_DETECT (R401): An enabled link in DOWN detects signal from its partner and starts EQUALISE. -/
  | linkSignalDetect (l : Fin 24)
  /-- LINK_SIGNAL_LOSS (R558): A link loses signal, for example at a partner's reset or a cut cable, and leaves UP. -/
  | linkSignalLoss (l : Fin 24)
  /-- LANE_EQUALISED (R401): A lane finishes equalisation in EQUALISE, so the link can go on to ALIGN. -/
  | laneEqualised (l : Fin 24) (lane : Fin 8)
  /-- ALIGNMENT_LOCK (R401): The receiver locks on alignment codewords and deskews the lanes, in ALIGN or during recovery. -/
  | alignmentLock (l : Fin 24)
  /-- HOST_LINK_UP (R503): A host port's Ethernet link comes up and HI_CTRL.UP is set. -/
  | hostLinkUp (p : Fin 4)
  /-- CXL_LINK_UP (R361): A CXL port finishes bring-up and enumeration and sets FT_PORTn.UP, or sets UNSUP. -/
  | cxlLinkUp (p : Fin 4) (sw dcd gpf : Bool) (width : Fin 16) (unsup : Bool)
  /-- TRANSLATION_WALK_END (R52): A page-table or siding-map walk ends, and the thread's access is served or faults. -/
  | translationWalkEnd (h : Hart)
  /-- STORE_ACKNOWLEDGE (R321): A posted store is acknowledged, which frees its request slot and lets FENCE and slot waiters proceed. -/
  | storeAcknowledge (h : Hart)
  /-- VECTOR_INSTRUCTION_COMPLETE (R124): A vector instruction's last beat is written, raising its events and freeing queue entries and precise-mode waits. -/
  | vectorInstructionComplete (n : Fin 128)
  /-- TILE_OPERATION_RETIRE (R157): A TFILL, TDUMP, TBLANK, TRV or TWV finishes its transfer and retires on the scoreboard. -/
  | tileOperationRetire (n : Fin 128)
  /-- ARCHITECTURAL_STATE_ERROR (R487): An uncorrectable error is found in station registers, tile registers or accumulator sets, which is a contained error of the halting kind. -/
  | architecturalStateError (n : Fin 128) (kind : Fin 3)
  /-- RECORDER_QUEUE_DRAIN (R498): The recorder writes the next queued entry every 10 ns and admits a held class-4 or class-5 event into a freed slot. -/
  | recorderQueueDrain 
  /-- SIGNAL_BOX_RESTART_END (R541): The signal box finishes restarting and resumes dictionary service with an empty queue. -/
  | signalBoxRestartEnd 
  /-- LEDGER_RECOVERY_END (R466): Ledger recovery of a queue finishes, clears LOCKED and reopens acceptance. -/
  | ledgerRecoveryEnd (q : Fin 16)
  /-- REBIND_STEP_END (R477): A step of the bind, rebind or unbind sequence completes and the next step begins, or the device reaches BOUND or UNBOUND. -/
  | rebindStepEnd 
  /-- LOCAL_OPERAND_ARRIVAL (R421): A reduction node's read of its local operand completes and enters the fold. -/
  | localOperandArrival (g : Fin 16)
  /-- RDMA_RETRY_EXHAUSTED (R448): A device-initiated RDMA operation ends with a NAK or exhausts its retries, giving MCHK or DATA. -/
  | rdmaRetryExhausted (w : RdmaFor)
  /-- JTAG_TAP_OPERATION (R575): A JTAG instruction or data scan on the TAP, including the private station read-out, is performed. -/
  | jtagTapOperation (o : TapOp)
  deriving DecidableEq, Repr

end Sys2Proof
end

