-- ==== Sys2Proof/Machine/Bits.lean ====
section
/-! DEFINITION. Bit fields, sign extension and byte order: the helpers every layer of the model shares (spec R9). -/

namespace Sys2Proof.Machine

/-- The field NAME[hi:lo] of a number, as a number. -/
def fld (w : Nat) (hi lo : Nat) : Nat := (w >>> lo) % 2 ^ (hi + 1 - lo)

/-- Bit i of a number. -/
def bitOf (w : Nat) (i : Nat) : Bool := w.testBit i

/-- The field [hi:lo] of a 64-bit register value, as a number. -/
def wfld (w : Word) (hi lo : Nat) : Nat := fld w.toNat hi lo

/-- Bit i of a 64-bit register value. -/
def wbit (w : Word) (i : Nat) : Bool := w.getLsbD i

/-- The number of a Boolean. -/
def b2n (b : Bool) : Nat := if b then 1 else 0

/-- A 64-bit value of a number. -/
def word (n : Nat) : Word := BitVec.ofNat 64 n

/-- The low w bits of a 64-bit value, sign-extended to 64 bits. -/
def sext (w : Nat) (x : Word) : Word := (x.truncate w).signExtend 64

/-- The low w bits of a 64-bit value, zero-extended to 64 bits. -/
def zext (w : Nat) (x : Word) : Word := (x.truncate w).zeroExtend 64

/-- A truth value in a general register: 1 or 0. -/
def boolWord (b : Bool) : Word := if b then 1 else 0

/-- The number with bit i set to b. -/
def setBit (w : Nat) (i : Nat) (b : Bool) : Nat :=
  if b then w ||| 2 ^ i else if w.testBit i then w - 2 ^ i else w

/-- The number with its field [hi:lo] set to v. -/
def setFld (w : Nat) (hi lo v : Nat) : Nat :=
  (w >>> (hi + 1)) <<< (hi + 1) + (v % 2 ^ (hi + 1 - lo)) * 2 ^ lo + w % 2 ^ lo

/-- The n low bytes of a number, the lowest first (little-endian, R9). -/
def bytesLE : Nat → Nat → List Byte
  | 0, _ => []
  | n + 1, x => BitVec.ofNat 8 x :: bytesLE n (x / 256)

/-- The number of a list of bytes, the lowest first (little-endian, R9). -/
def natLE : List Byte → Nat
  | [] => 0
  | b :: r => b.toNat + 256 * natLE r

/-- The two's-complement value of the low w bits of a number. -/
def sval (w x : Nat) : Int :=
  let m := x % 2 ^ w
  if w = 0 then 0 else if m < 2 ^ (w - 1) then (m : Int) else (m : Int) - 2 ^ w

/-- An integer modulo 2^w, as a number. -/
def wrap (w : Nat) (x : Int) : Nat := (x % (2 ^ w : Int)).toNat

/-- The numbers lo, lo + 1, … (n of them). -/
def upFrom (lo n : Nat) : List Nat := (List.range n).map (lo + ·)

/-- The list with its element i replaced, unchanged where there is none. -/
def listSet {α : Type} : List α → Nat → α → List α
  | [], _, _ => []
  | _ :: r, 0, v => v :: r
  | a :: r, i + 1, v => a :: listSet r i v

end Sys2Proof.Machine
end

