-- ==== Sys2Proof/Config.lean ====
section
/-! DEFINITION. What an implementation fixes and what the spec leaves open: constants with no body, so that no proof can
use a value of theirs. Each is named in a log entry of notes/assumptions. -/

namespace Sys2Proof.Config

/-- A value the spec leaves undefined, drawn by a plain counter of the state (log entry 5). -/
opaque freeValue : Nat → Nat

/-- FEAT_DEV0.STEP, the stepping: 0xA0, 0xA1 or 0xB0 (R344: per part). -/
opaque stepping : BitVec 8

/-- VEXP2 where the result is not one of the exact and special cases of R137: the bits proposed for a format code and
input bits, taken where they lie within the bound of R137 (log entry 12). -/
opaque exp2Approx : Nat → Nat → Nat

/-- VLOG2 where the result is not one of the exact and special cases of R137, likewise. -/
opaque log2Approx : Nat → Nat → Nat

/-- The second element type of VBQ and VBD: a number whose residue names one of the types R140 allows, by FN and IMM13[12:1].
R140 does not say where that type stands in the encoding (log entry 11). -/
opaque blockType : Nat → Nat → Nat

/-- The bytes of the boot ROM, by offset (R579: its actual contents, which the spec does not list). -/
opaque bootRom : Nat → Byte

/-- A byte the spec leaves undefined: the i-th byte of a draw (log entry 5). -/
opaque freeByte : Nat → Nat → Byte

/-- A 64-bit entry the spec leaves undefined: the i-th entry of a draw (log entry 5). -/
opaque freeWord : Nat → Nat → Word

/-- A register of any width the spec leaves undefined: the i-th register of a draw (log entry 5). -/
opaque freeBits : Nat → Nat → Nat

/-! ### Per part (R505, R511, R532; log entry 14) -/

/-- The serial number, 0x1002. -/
opaque serial : Nat

/-- The MAC address, 0x1003, as a 48-bit number. -/
opaque mac : Nat

/-- The fused key hashes, by slot (R505). -/
opaque keyHash : Nat → List Byte

/-- The certificate store (R511). -/
opaque certChain : List Byte

/-- The number of cells of the boundary register (R575, which names the lands it covers). -/
opaque boundaryLen : Nat

/-! ### Published algorithms, which the spec names and does not define (log entry 14) -/

/-- SHA3-512. -/
opaque sha3 : List Byte → List Byte

/-- ML-DSA-87 verification: public key, context, message, signature. -/
opaque dsaVerify : List Byte → List Byte → List Byte → List Byte → Bool

/-- ML-DSA-87 signature under the device identity key: context and message (R510). -/
opaque dsaSign : List Byte → List Byte → List Byte

/-- ML-KEM-1024 decapsulation under the device key-encapsulation key (R510, R514). -/
opaque decapsulate : List Byte → List Byte

/-- AES-256 key unwrap (RFC 3394): key and wrapped bytes; none where its integrity check fails. -/
opaque keyUnwrap : List Byte → List Byte → Option (List Byte)

/-- The DKK certificate issued for M0 to M3 (R511). -/
opaque dkkCert : List Byte → List Byte

/-- The bytes SPDM 1.3 gives a response, by a number that names it and its contents (R512). -/
opaque spdmBytes : Nat → List Byte → List Byte

/-- The bytes SPDM 1.3 gives a request. -/
opaque spdmReqBytes : SpdmReq → List Byte

/-- The request that bytes written to 0x7001 spell; none where they spell none. -/
opaque spdmParse : List Byte → Option SpdmReq

/-- The signing input of a response before its hash: the combined prefix of a response of a kind (R513). -/
opaque spdmPrefix : Nat → List Byte

/-- The message transcript SPDM 1.3 defines for a signed response of a kind, from the messages since the last GET_VERSION
(R513). -/
opaque spdmTranscript : Nat → List Byte → List Byte

/-! ### The object dictionary -/

/-- Type (bits 7:0) and size (bits 23:8) in the descriptor of an entry whose subindexes differ in type, by index: R530 does not
say which they are (log entry 14). -/
opaque mixedDesc : Nat → Nat

end Sys2Proof.Config
end

