-- ==== Sys2Proof/Machine/Flags.lean ====
section
/-! DEFINITION. Arithmetic events and the flag registers they go to (R128 VU_CSR, R225 ME_FLAGS and the phase flag set,
R87 and R92 AXEN and the DETAIL of ARITH). -/

namespace Sys2Proof.Machine

/-- The arithmetic events one operation raises: invalid, divide by zero, overflow, underflow, inexact, and the
saturation event SAT that has no trap enable. -/
structure Ev where
  nv : Bool
  dz : Bool
  of : Bool
  uf : Bool
  nx : Bool
  sat : Bool
  deriving DecidableEq, Repr

/-- No event. -/
def Ev.none : Ev := ⟨false, false, false, false, false, false⟩

/-- The invalid event alone. -/
def Ev.inv : Ev := { Ev.none with nv := true }

/-- The events of two operations together. -/
def Ev.or (a b : Ev) : Ev :=
  ⟨a.nv || b.nv, a.dz || b.dz, a.of || b.of, a.uf || b.uf, a.nx || b.nx, a.sat || b.sat⟩

/-- The events as the sticky bits of VU_CSR: NV 0, DZ 1, OF 2, UF 3, NX 4, SAT 5 (R128). -/
def Ev.vuBits (e : Ev) : BitVec 6 :=
  BitVec.ofNat 6 (b2n e.nv + 2 * b2n e.dz + 4 * b2n e.of + 8 * b2n e.uf + 16 * b2n e.nx + 32 * b2n e.sat)

/-- The events as the sticky bits of ME_FLAGS: NV 0, OF 1, UF 2, NX 3, SAT 4 (R225, R226). -/
def Ev.meBits (e : Ev) : BitVec 5 :=
  BitVec.ofNat 5 (b2n e.nv + 2 * b2n e.of + 4 * b2n e.uf + 8 * b2n e.nx + 16 * b2n e.sat)

/-- The events as bits 0 to 3 of a phase flag set: NV, OF, UF, NX (R225; SAT has no bit in the record). -/
def Ev.phaseBits (e : Ev) : BitVec 7 :=
  BitVec.ofNat 7 (b2n e.nv + 2 * b2n e.of + 4 * b2n e.uf + 8 * b2n e.nx)

/-- The events in AXEN order: invalid, divide by zero, overflow, underflow, inexact (STATUS bits 6 to 10, R87). -/
def Ev.axBits (e : Ev) : BitVec 5 :=
  BitVec.ofNat 5 (b2n e.nv + 2 * b2n e.dz + 4 * b2n e.of + 8 * b2n e.uf + 16 * b2n e.nx)

/-- The enabled events of a set of events, in AXEN order (R92). -/
def Ev.enabled (e : Ev) (axen : BitVec 5) : BitVec 5 := e.axBits &&& axen

end Sys2Proof.Machine
end

