-- ==== Sys2Proof/Machine/Tab.lean ====
section
/-! DEFINITION. Tables kept as data: a list of (key, value) pairs with rising keys. A register file, an accumulator
set, a route table or a list of units is such a table; a key that is not listed has the default its accessor names. -/

namespace Sys2Proof.Machine

/-- A sparse table from numbers to values. -/
structure Tab (α : Type) where
  entries : List (Nat × α)
  deriving DecidableEq, Repr

/-- The value listed under a key. -/
def tabFind {α : Type} : List (Nat × α) → Nat → Option α
  | [], _ => none
  | (k', v) :: r, k => if k' = k then some v else tabFind r k

/-- The list with the value of one key put in place. -/
def tabPut {α : Type} : List (Nat × α) → Nat → α → List (Nat × α)
  | [], k, v => [(k, v)]
  | (k', v') :: r, k, v =>
    if k' = k then (k, v) :: r
    else if k < k' then (k, v) :: (k', v') :: r
    else (k', v') :: tabPut r k v

/-- The table with nothing listed. -/
def Tab.empty {α : Type} : Tab α := ⟨[]⟩

/-- The value of a key, if listed. -/
def Tab.get? {α : Type} (t : Tab α) (k : Nat) : Option α := tabFind t.entries k

/-- The value of a key, or the default. -/
def Tab.getD {α : Type} (t : Tab α) (k : Nat) (d : α) : α := (t.get? k).getD d

/-- The table with one key's value replaced. -/
def Tab.set {α : Type} (t : Tab α) (k : Nat) (v : α) : Tab α := ⟨tabPut t.entries k v⟩

/-- The table without a key. -/
def Tab.drop {α : Type} (t : Tab α) (k : Nat) : Tab α := ⟨t.entries.filter (fun e => e.1 != k)⟩

/-- The table with every value replaced by a function of key and value. -/
def Tab.mapVal {α : Type} (t : Tab α) (f : Nat → α → α) : Tab α := ⟨t.entries.map (fun e => (e.1, f e.1 e.2))⟩

/-- The keys listed. -/
def Tab.keys {α : Type} (t : Tab α) : List Nat := t.entries.map (·.1)

/-- Membership of a number in a set kept as a rising list. -/
def setHas (s : List Nat) (k : Nat) : Bool := s.contains k

/-- The set with a number added, in rising order. -/
def setAdd : List Nat → Nat → List Nat
  | [], k => [k]
  | a :: r, k => if a = k then a :: r else if k < a then k :: a :: r else a :: setAdd r k

/-- The set without a number. -/
def setDel (s : List Nat) (k : Nat) : List Nat := s.filter (· != k)

end Sys2Proof.Machine
end

