-- ==== Sys2Proof/Machine/Mem.lean ====
section
/-! DEFINITION. Memory: a list of (address, byte) pairs in one canonical form: addresses strictly rising, and no entry
equal to what an unlisted address reads as (`Mem.unlisted`, zero; log entries 3 and 4). Wider accesses are built from
bytes, the lowest address first (R9). -/

namespace Sys2Proof.Machine

/-- A memory as data. -/
structure Mem where
  cells : List Host.Cell
  deriving DecidableEq, Repr

/-- What an address with no entry reads as (R318 for scratchpads; DESIGN CHOICE for GDDR7 and the far tier, whose
value before the first write R370 leaves open: log entry 4, unsafe). -/
def Mem.unlisted : Byte := 0

/-- The memory with nothing listed. -/
def Mem.empty : Mem := ⟨[]⟩

/-- One byte. -/
def Mem.get (m : Mem) (a : Nat) : Byte := (tabFind m.cells a).getD Mem.unlisted

/-- One byte written: the entry is removed where the byte is what an unlisted address reads as. -/
def Mem.set (m : Mem) (a : Nat) (b : Byte) : Mem :=
  if b = Mem.unlisted then ⟨m.cells.filter (fun c => c.1 != a)⟩
  else ⟨tabPut (m.cells.filter (fun c => c.1 != a)) a b⟩

/-- Addresses strictly rise from a bound, and no entry holds the unlisted byte. -/
def cellsWf : Nat → List Host.Cell → Bool
  | _, [] => true
  | lo, c :: r => decide (lo ≤ c.1) && decide (c.2 ≠ Mem.unlisted) && cellsWf (c.1 + 1) r

/-- The canonical form of a memory. -/
def Mem.wf (m : Mem) : Bool := cellsWf 0 m.cells

/-- n bytes from an address upward, as a number (little-endian). -/
def Mem.readN (m : Mem) (a : Nat) : Nat → Nat
  | 0 => 0
  | n + 1 => (m.get a).toNat + 256 * m.readN (a + 1) n

/-- n bytes from an address upward. -/
def Mem.readBytes (m : Mem) (a : Nat) : Nat → List Byte
  | 0 => []
  | n + 1 => m.get a :: m.readBytes (a + 1) n

/-- A list of bytes written from an address upward. -/
def Mem.writeBytes (m : Mem) (a : Nat) : List Byte → Mem
  | [] => m
  | b :: r => (m.set a b).writeBytes (a + 1) r

/-- The low n bytes of a number written from an address upward (little-endian). -/
def Mem.writeN (m : Mem) (a n v : Nat) : Mem := m.writeBytes a (bytesLE n v)

/-- The memory with n bytes from an address upward dropped, so that they read as unlisted. -/
def Mem.clearRange (m : Mem) (a n : Nat) : Mem := ⟨m.cells.filter (fun c => !(decide (a ≤ c.1) && decide (c.1 < a + n)))⟩

end Sys2Proof.Machine
end

