-- ==== Sys2Proof/Machine/State/Station.lean ====
section
/-! DEFINITION. The state of one station: its four threads, vector unit, tile registers, matrix engine, accumulator sets,
scratchpad and gather engine (03_station_core.md to 12_station_memory_and_latency.md), with the values of a station reset. -/

namespace Sys2Proof.Machine

/-- A pending imprecise or precise-arithmetic exception of a thread (R107, R105): XADDR, DETAIL, the target ring fixed
when it was raised, MULTI, its place in the order of raising, and for a vector ARITH the element it reports (R128). -/
structure PendX where
  xaddr : Word
  detail : Nat
  target : Nat
  multi : Bool
  order : Nat
  elem : Option Nat
  deriving DecidableEq, Repr

/-- An instruction that accesses memory, as its thread holds it while it waits (R52, R54). -/
inductive MemOp where
  /-- a core load -/
  | ld (k : LdK) (rd rs1 : Fin 32) (imm : BitVec 15)
  /-- a core store -/
  | st (k : StK) (rd rs1 : Fin 32) (imm : BitVec 15)
  /-- a scratchpad atomic -/
  | amo (k : AmoK) (rd rs1 rs2 : Fin 32)
  /-- CALLM -/
  | callm (off : BitVec 25) (mask : BitVec 32)
  /-- CALLMR -/
  | callmr (rs1 : Fin 32) (mask : BitVec 32)
  /-- RETM -/
  | retm (mask : BitVec 32)
  /-- a vector memory form -/
  | vm (form : VmForm) (store : Bool) (f : VmF)
  /-- TFILL -/
  | tfill (f : TF)
  /-- TDUMP -/
  | tdump (f : TF)
  deriving DecidableEq, Repr

/-- A cached translation of one 4 KiB page (R353): page number, the 4 KiB pages its leaf or 64 KiB group covers (R350), physical
page base, the leaf's attributes, and for a far-tier page its siding entry. -/
structure TlbE where
  vpn : Nat
  span : Nat
  base : Nat
  ring : Nat
  w : Bool
  nx : Bool
  dev : Bool
  frz : Bool
  pf : Bool
  siding : Option Nat
  deriving DecidableEq, Repr

/-- What a thread that is not ready waits for (R52, R54, R55, R161, R190, R317, R42). -/
inductive Wait where
  /-- ready -/
  | ready
  /-- a page-table or siding-map walk of its access -/
  | walk (op : MemOp)
  /-- the reply to its access, translated and checked to these physical places -/
  | reply (op : MemOp) (locs : List (Nat × TlbE))
  /-- the scratchpad it accesses to be ON -/
  | wake (op : MemOp) (locs : List (Nat × TlbE))
  /-- a request slot -/
  | slot
  /-- the acknowledgement of its stores (FENCE) -/
  | fence
  /-- the scoreboard: its instruction is presented again -/
  | score
  /-- TSHAPE: the operations on its tile -/
  | shape (f : TF)
  /-- MESYNC: every engine queue entry numbered below n -/
  | sync (n : Nat)
  /-- TACQ: ownership -/
  | tacq (rd : Fin 32)
  /-- WFI: an interrupt -/
  | wfi
  /-- precise mode: its vector, tile or engine operation to complete (R108) -/
  | precise
  /-- stopped at a halt tick (R42) -/
  | halted
  deriving DecidableEq, Repr

/-- One thread (R49, R86, R113). -/
structure Thread where
  /-- PC (R49) -/
  pc : Word
  /-- g1 to g31, by number (R49) -/
  g : Tab Word
  /-- v0 to v31 (R113) -/
  v : Tab (BitVec 16384)
  /-- k1 to k15 (R113) -/
  k : Tab (BitVec 2048)
  /-- VCFG.SEW (R113) -/
  sew : BitVec 2
  /-- VCFG.VL (R113) -/
  vl : BitVec 16
  /-- VU_CSR.FRM (R128) -/
  frm : BitVec 3
  /-- VU_CSR flags: NV 0, DZ 1, OF 2, UF 3, NX 4, SAT 5 (R128) -/
  vflags : BitVec 6
  /-- VU_FAULT_ELEM (R132) -/
  vfault : BitVec 16
  /-- VSLFSR (R129) -/
  vslfsr : BitVec 32
  /-- mq0 to mq3 (R71) -/
  mq : Tab Word
  /-- mq writes on their way: landing cycle, register, value (R71) -/
  mqPend : List (Nat × Nat × Word)
  /-- ma0, ma1 (R74) -/
  ma : Tab (BitVec 72)
  /-- lc0, lc1 (R50) -/
  lc : Tab (BitVec 24)
  /-- LREM0, LREM1 (R80) -/
  lrem : Tab (BitVec 24)
  /-- LHEAD0, LHEAD1 (R80) -/
  lhead : Tab Word
  /-- LTAIL0, LTAIL1 (R80) -/
  ltail : Tab Word
  /-- LFLAGS: ACT0, ACT1, ORDER (R80) -/
  lflags : BitVec 3
  /-- FXCSR.QRM (R77) -/
  qrm : BitVec 2
  /-- FXCSR.SAT (R76) -/
  fxSat : Bool
  /-- FXCSR.OV (R75) -/
  fxOv : Bool
  /-- QLFSR (R77) -/
  qlfsr : BitVec 32
  /-- INSTRET (R50) -/
  instret : Word
  /-- STATUS (R87) -/
  status : BitVec 16
  /-- XPCr, by ring (R86) -/
  xpc : Tab Word
  /-- XSTr (R88) -/
  xst : Tab Word
  /-- XCAUSEr (R91) -/
  xcause : Tab Word
  /-- XADDRr (R93) -/
  xaddr : Tab Word
  /-- XSPr (R95) -/
  xsp : Tab Word
  /-- GATE_SPr (R86) -/
  gateSp : Tab Word
  /-- the station cycle at which STATUS.IE last became 0 (NOINT_CNT counts from it, R86) -/
  nointFrom : Nat
  /-- IPEND (R104) -/
  ipend : BitVec 4
  /-- IMASK (R104) -/
  imask : BitVec 4
  /-- TC_FAULT (R166) -/
  tcFault : Word
  /-- the pending machine check (R105) -/
  mchk : Option PendX
  /-- the pending precise ARITH (R105, R108) -/
  parith : Option PendX
  /-- the pending imprecise ARITH (R107) -/
  arith : Option PendX
  /-- the pending ME_CMD (R107) -/
  mecmd : Option PendX
  /-- enabled (THREN, R55) -/
  enabled : Bool
  /-- what the thread waits for -/
  wait : Wait
  /-- its stores not yet acknowledged (R321) -/
  acks : Nat
  deriving DecidableEq, Repr

/-- A thread after a station reset, but for the enable of thread 0 (R55; reset columns of R78, R77, R87, R113, R129). -/
def Thread.reset : Thread :=
  { pc := 0, g := .empty, v := .empty, k := .empty, sew := 3, vl := 0, frm := 0, vflags := 0, vfault := 0, vslfsr := 1,
    mq := .empty, mqPend := [], ma := .empty, lc := .empty, lrem := .empty, lhead := .empty, ltail := .empty,
    lflags := 0, qrm := 2, fxSat := false, fxOv := false, qlfsr := 1, instret := 0, status := 0, xpc := .empty,
    xst := .empty, xcause := .empty, xaddr := .empty, xsp := .empty, gateSp := .empty, nointFrom := 0, ipend := 0,
    imask := 0, tcFault := 0, mchk := none, parith := none, arith := none, mecmd := none, enabled := false,
    wait := .ready, acks := 0 }

/-- An instruction in the vector queue (R124): its thread, the events it raised, the lowest element with an enabled event,
the AXEN bits and ring in force at its issue, its address, whether it issued in precise mode, whether it rounds stochastically (R129), and the lane groups
it needs (R122). -/
structure VqEntry where
  thr : Nat
  ev : Ev
  elem : Option Nat
  axen : BitVec 5
  ring : Nat
  addr : Word
  precise : Bool
  sto : Bool
  groups : Nat
  deriving DecidableEq, Repr

/-- A tile operation in flight (R157): its tile, whether it writes it, the thread that waits for it in precise mode, and
whether a command block issued it. -/
structure TileOp where
  tile : Nat
  write : Bool
  prec : Option (Fin 4)
  inBlk : Bool
  deriving DecidableEq, Repr

/-- An operand move (R176): tile, format, block scale code and scale tile; an entry of the A list (R180) or a stationary load. -/
structure AEnt where
  tile : Nat
  fmt : Nat
  bs : Nat
  stile : Nat
  deriving DecidableEq, Repr

/-- A stationary buffer of the grid (R179): what its load named, the operand tile's bytes and its scales as they were read,
and the write generations for the reuse latch (R164). -/
structure SBuf where
  ent : AEnt
  tr : Bool
  data : Mem
  scale : Mem
  gen : Nat
  sgen : Nat
  deriving DecidableEq, Repr

/-- Who raised an engine event: thread, address of the raising instruction, ring and AXEN bits at its issue, precise mode
(R185, R227). -/
structure Raiser where
  thr : Nat
  pc : Word
  ring : Nat
  axen : BitVec 5
  precise : Bool
  deriving DecidableEq, Repr

/-- An engine operation (R183, R185): descriptor fields, latched registers and its progress through the grid. -/
structure EngOp where
  acc : Bool
  swap : Bool
  tag : Nat
  row0 : Nat
  rows : Nat
  buf : Nat
  alist : List AEnt
  kstep : BitVec 32
  wseq : Word
  ovm : Bool
  by_ : Raiser
  /-- its first row has entered the grid -/
  started : Bool
  /-- its swap has taken place, or it has none -/
  swapped : Bool
  /-- the next row to be compared and committed -/
  next : Nat
  /-- the next row has failed its check once -/
  failed : Bool
  /-- some row was streamed again (R274) -/
  retried : Bool
  /-- the events it has raised -/
  ev : Ev
  deriving DecidableEq, Repr

/-- A drain or spill (R240, R246): descriptor, latched registers and its progress. -/
structure Drn where
  desc : Word
  rm : BitVec 3
  ovm : Bool
  daddr : Word
  spaddr : Word
  wseq : Word
  by_ : Raiser
  /-- an automatic spill (R259) -/
  auto : Bool
  started : Bool
  /-- its swap has taken place, or it has none -/
  swapped : Bool
  next : Nat
  ev : Ev
  deriving DecidableEq, Repr

/-- The kinds of engine queue entry (R186). -/
inductive QKind where
  /-- a stationary load: tile and control word, load mode, target buffer, whether it has started -/
  | meb (ent : AEnt) (tr : Bool) (buf : Nat) (started : Bool)
  /-- a load or zeroing of the active set -/
  | meacc (zero : Bool) (tile : Nat) (row0 : Nat)
  /-- an operation -/
  | mego (op : EngOp)
  /-- a drain -/
  | mest (d : Drn)
  /-- a command block -/
  | merun (addr : Word) (by_ : Raiser) (started : Bool)
  deriving DecidableEq, Repr

/-- An entry of the engine queue, or an automatic spill in it: its number in issue order, the thread that waits for it in precise
mode, whether a command block issued it, and the predicate write its SETP field asks for (COND, PDST) (R274). -/
structure QEntry where
  id : Nat
  kind : QKind
  prec : Option (Fin 4)
  inBlk : Bool
  setp : Option (Nat × Nat)
  deriving DecidableEq, Repr

/-- An active loop level of a block (R269): the LOOP's index, its body, its count and its iteration index. -/
structure BLoop where
  cmd : Nat
  body : Nat
  count : Nat
  iter : Nat
  deriving DecidableEq, Repr

/-- How a block stopped before its end (R280, R282): status, cause code, command, XADDR, whether it can be resumed. -/
structure BStop where
  status : Nat
  fcode : Nat
  cmd : Nat
  depth : Nat
  rsm : Bool
  xaddr : Word
  deriving DecidableEq, Repr

/-- A running command block (R276 to R278): the sequencer's own copy of slots and commands, as numbers of 32 and 16 bytes,
the next command and the active loops, innermost first. -/
structure Blk where
  addr : Word
  by_ : Raiser
  slots : List Nat
  cmds : List Nat
  next : Nat
  loops : List BLoop
  stop : Option BStop
  exit : Bool
  /-- the enabled events its operations and drains have raised, in order (R266) -/
  ariths : List (BitVec 5)
  deriving DecidableEq, Repr

/-- An accumulator set: entries by row × 128 + column, and the draw of free values that an entry not listed holds since a
halt left the set undefined (R233, R237, log entry 5). -/
structure AccSet where
  entries : Tab Word
  free : Option Nat
  deriving DecidableEq, Repr

/-- A set of zeros. -/
def AccSet.zero : AccSet := ⟨.empty, none⟩

/-- The matrix engine, its drain path and its sequencer (07 to 10). -/
structure Engine where
  /-- the engine queue in order (R186), with the automatic spills in it, which take no entry of its eight (R259) -/
  queue : List QEntry
  nextId : Nat
  sbuf0 : Option SBuf
  sbuf1 : Option SBuf
  /-- the buffer written or designated by the last MEB (ME_STAT.SBUF) -/
  sbuf : Nat
  /-- what the last MEB moved, if one has issued since reset, halt or rebind -/
  bInfo : Option AEnt
  /-- the buffer of the last stationary load (the stationary latch, R164) -/
  latch : Option Nat
  /-- the buffer the most recently issued operation uses, if any has issued -/
  lastUsed : Option Nat
  alist : List AEnt
  /-- the next MEA empties the list first (R180) -/
  aNew : Bool
  /-- ME_STAT.ASET -/
  aset : Nat
  acc0 : AccSet
  acc1 : AccSet
  lastTag : BitVec 8
  retreq : Bool
  /-- ballast level, in eighths (R195) -/
  level : Nat
  /-- station cycles of the present gap at the end of the last step -/
  gap : Nat
  /-- a rise is in progress (R195) -/
  rising : Bool
  /-- engine work has ended at once and the level only falls (R195) -/
  falling : Bool
  skipped : BitVec 32
  fails : BitVec 16
  retries : BitVec 16
  wseq : Word
  kstep : BitVec 32
  /-- ME_FLAGS: NV 0, OF 1, UF 2, NX 3, SAT 4 (R226) -/
  flags : BitVec 5
  ovm : Bool
  rm : BitVec 3
  srseed : BitVec 32
  /-- the 128 column LFSRs (R224); an unlisted column holds what seed 1 gives it -/
  lfsr : Tab (BitVec 32)
  firstNv : Word
  firstNvK : BitVec 32
  firstNvSeq : Word
  phNv : Word
  phNvK : BitVec 32
  phSeq : Word
  spctl : Word
  spaddr : Word
  daddr : Word
  cbStatus : BitVec 8
  cbFcode : BitVec 6
  cbRsm : Bool
  cbDepth : BitVec 3
  cbCmd : BitVec 11
  cbResume : Bool
  cbPred : BitVec 8
  cbCnt : Tab (BitVec 24)
  cbLv : Tab Word
  blk : Option Blk
  deriving DecidableEq, Repr

/-- The engine after a station reset (R202, R232, R237, R260, R283, R285). -/
def Engine.reset : Engine :=
  { queue := [], nextId := 0, sbuf0 := none, sbuf1 := none, sbuf := 0, bInfo := none, latch := none,
    lastUsed := none, alist := [], aNew := true, aset := 0, acc0 := .zero, acc1 := .zero, lastTag := 0, retreq := false, level := 0,
    gap := 0, rising := false, falling := false, skipped := 0, fails := 0, retries := 0, wseq := 0, kstep := 0, flags := 0,
    ovm := false, rm := 0, srseed := 1, lfsr := .empty, firstNv := 0, firstNvK := 0, firstNvSeq := 0, phNv := 0, phNvK := 0,
    phSeq := 0, spctl := 0x000004FF00010000, spaddr := 0x0000002000000000, daddr := 0x0000000400000000, cbStatus := 0,
    cbFcode := 0, cbRsm := false, cbDepth := 0, cbCmd := 0x7FF, cbResume := false, cbPred := 0, cbCnt := .empty,
    cbLv := .empty, blk := none }

/-- One stream of the gather engine (R333) with the thread and ring latched by its last command (R335). -/
structure GStream where
  idxaddr : Word
  dbase : Word
  spoff : BitVec 32
  count : BitVec 32
  cfg : BitVec 16
  state : Nat
  fcode : Nat
  pos : Nat
  thr : Nat
  ring : Nat
  /-- no further element is issued: the state, code and address the stream ends with (R336 to R338) -/
  ends : Option (Nat × Nat × Word)
  deriving DecidableEq, Repr

/-- A stream after a station reset: IDLE, every field zero (R339). -/
def GStream.reset : GStream := ⟨0, 0, 0, 0, 0, 0, 0, 0, 0, 0, none⟩

/-- An addend logged at a scratchpad bank in a reproducible phase (R302). -/
structure LogE where
  stn : Nat
  thr : Nat
  off : Nat
  addend : Nat
  deriving DecidableEq, Repr

/-- One station (R49, R86, R113, R149, R174, R306, R333). -/
structure Station where
  th : Tab Thread
  /-- the running thread (R51) -/
  running : Option (Fin 4)
  /-- CYCLE (R50) -/
  cycle : Nat
  /-- XVECr -/
  xvec : Tab Word
  /-- GATE_PCr -/
  gatePc : Tab Word
  xdel0 : Word
  xdel1 : Word
  nointMax : BitVec 15
  /-- GTAB0 to GTAB31 -/
  gtab : Tab Word
  /-- the vector queue, oldest first (R124) -/
  vq : List VqEntry
  /-- VU_PGCTL.EN -/
  pgEn : Bool
  /-- VU_PGCTL.IDLE -/
  pgIdle : BitVec 16
  /-- VU_PGSTAT.ON -/
  pgOn : BitVec 8
  /-- the cycle of the last use of each lane group -/
  pgLast : Tab Nat
  /-- t0 to t7 -/
  tiles : Tab Mem
  /-- TC_CFG0 to TC_CFG7 -/
  tcfg : Tab (BitVec 32)
  /-- the owner, or the former owner while PEND (R160, R162) -/
  owner : Option (Fin 4)
  /-- TC_OWN.PEND -/
  ownPend : Bool
  reuseStat : BitVec 32
  reuseRow : BitVec 32
  /-- write generations (R164) -/
  tgen : Tab Nat
  /-- the row latch: tile, generation, row (R164) -/
  rowLatch : Option (Nat × Nat × Nat)
  /-- tile operations in flight (R157), oldest first -/
  tops : List TileOp
  eng : Engine
  /-- the phase flag set (R34, R47, R225) -/
  phFlags : BitVec 7
  /-- rows retried in the phase (R199) -/
  phRetries : Nat
  /-- the scratchpad -/
  sp : Mem
  /-- poisoned 8-byte groups of the scratchpad (R307), by number -/
  spPoison : List Nat
  /-- SP_PWR.STATE -/
  spState : BitVec 2
  /-- SP_PWR.TARGET -/
  spTarget : BitVec 2
  /-- the AADD.F logs, by bank (R302) -/
  logs : Tab (List LogE)
  ge : Tab GStream
  geDone : Word
  geFault : Word
  geFaddr : Tab Word
  /-- the stream the gather engine served last (R336) -/
  geLast : Nat
  /-- translations of the gather engine -/
  geTlb : List TlbE
  /-- MM_ROOT.BASE, bits 47:12 -/
  mmBase : BitVec 36
  /-- MM_ROOT.EN -/
  mmEn : Bool
  /-- the cached translations of the station, oldest first -/
  tlb : List TlbE
  /-- request slots in use (R54) -/
  slots : Nat
  /-- locked up (R100) -/
  locked : Bool
  /-- held in station reset -/
  held : Bool
  /-- order of raising of imprecise exceptions -/
  xorder : Nat
  deriving DecidableEq, Repr

/-- A station after a station reset (R55, R86, R169, R202, R232, R237, R318, R339, R355). Only thread 0 is enabled. -/
def Station.reset : Station :=
  { th := Tab.empty.set 0 { Thread.reset with enabled := true }, running := some 0, cycle := 0, xvec := .empty,
    gatePc := .empty, xdel0 := 0, xdel1 := 0, nointMax := 0x4000, gtab := .empty, vq := [], pgEn := true,
    pgIdle := 0x2000, pgOn := 0xFF, pgLast := .empty, tiles := .empty, tcfg := .empty, owner := none, ownPend := false,
    reuseStat := 0, reuseRow := 0, tgen := .empty, rowLatch := none, tops := [], eng := Engine.reset, phFlags := 0,
    phRetries := 0, sp := .empty, spPoison := [], spState := 0, spTarget := 0, logs := .empty, ge := .empty, geDone := 0,
    geFault := 0, geFaddr := .empty, geLast := 0, geTlb := [], mmBase := 0, mmEn := false, tlb := [], slots := 0,
    locked := false, held := false, xorder := 0 }

end Sys2Proof.Machine
end

