-- ==== Sys2Proof/Machine/State/Device.lean ====
section
/-! DEFINITION. The device-level state that every unit shares: the timetable unit (02), the recorder (19), close memory,
the far tier and its keys (13), the boot window (20), and the way masks of the caches (12). -/

namespace Sys2Proof.Machine

/-- A boundary announced by a TICK and not yet taken (R428, R429): its number, its instant, and what it carries. -/
structure TickMsg where
  num : Nat
  at_ : Nat
  halt : Bool
  base : Bool
  start : Bool
  end_ : Bool
  phase : Nat
  cyc : Nat
  period : Nat
  deriving DecidableEq, Repr

/-- The latest report of a child link (R431). -/
structure Rep where
  link : Nat
  tick : Nat
  ready : Bool
  ended : Bool
  phase : Nat
  cyc : Nat
  nmiss : Nat
  lowmiss : Nat
  deriving DecidableEq, Repr

/-- The progress of a cycle: whether one is under way, its base B and number, the next or running phase, whether that phase
runs and since which boundary, and the end boundary C of the previous phase (R33, R36, R38). -/
structure Sched where
  active : Bool
  /-- the first cycle has not begun yet -/
  first : Bool
  base : Nat
  cyc : Nat
  k : Nat
  running : Bool
  start : Nat
  prevEnd : Nat
  deriving DecidableEq, Repr

/-- No cycle. -/
def Sched.idle : Sched := ⟨false, false, 0, 0, 0, false, 0, 0⟩

/-- The timetable unit (R27 to R48) and the coupling of its group (R425 to R443). Times are in units of 1/17 ns (log entry
6). -/
structure Tt where
  /-- TT_CTRL.ROLE -/
  role : BitVec 2
  /-- TT_CTRL.LATE_ALERT -/
  lateAlert : Bool
  /-- TT_CTRL.ENABLE -/
  enable : Bool
  /-- TT_STATE.STATE -/
  state : BitVec 4
  /-- TT_STATE.REASON -/
  reason : BitVec 4
  /-- TT_STATE.PHASE -/
  phase : BitVec 6
  /-- TT_PERIOD -/
  period : Nat
  /-- the period in force on the present grid -/
  curPeriod : Nat
  /-- TT_TICK -/
  tick : Nat
  /-- the instant of the last boundary -/
  lastB : Nat
  /-- TT_CYCLE.NPHASE -/
  nphase : Nat
  /-- TT_CYCLE.LEN -/
  len : Nat
  /-- TT_CYCNUM -/
  cycnum : Nat
  /-- TT_DONE has been written with the current index (R35) -/
  done : Bool
  /-- TT_HALT_LEAD -/
  lead : Nat
  /-- TT_REC_BASE, bytes -/
  recBase : Nat
  /-- TT_REC_CTRL.NEXT_SEQ -/
  recSeq : Nat
  /-- TT_REC_CTRL.EN -/
  recEn : Bool
  /-- TT_REC_CTRL.LOG2N -/
  log2n : Nat
  /-- the next position of the record ring -/
  recPos : Nat
  /-- TT_ERR: LATE 0, MISSED_TICK 1, REC_FAULT 2, BUSY 3, PERIOD 4, TABLE 5, DONE_BAD 6 -/
  err : BitVec 7
  /-- TT_ERR.TABLE_IDX -/
  errIdx : Nat
  /-- TT_PHASEn: first and second word, at 2n and 2n + 1 -/
  phases : Tab Word
  /-- the progress of the cycle at the last boundary -/
  sched : Sched
  /-- on a master: its progress at the last announced boundary -/
  plan : Sched
  /-- the instant of the boundary at which the running phase started -/
  startAt : Nat
  /-- a phase is running -/
  inPhase : Bool
  /-- the running phase has ended under R35, at this instant -/
  ended : Option Nat
  /-- a phase is due to start at the last boundary -/
  startDue : Option Nat
  /-- what of the last boundary's BASE and START is still to be done -/
  cur : Option TickMsg
  /-- a resume is due at the last boundary -/
  resumeDue : Bool
  /-- waybills of the phase that reached COMPLETED -/
  completed : Nat
  /-- commands of the phase that named an absent station (bit 6 of the record's FLAGS) -/
  absent : Bool
  /-- the pending halt tick: number, instant, reason -/
  halt : Option (Nat × Nat × Nat)
  /-- the reason of the halt whose steps are under way -/
  why : Nat
  /-- the boundary at which a resume takes place (R46) -/
  resume : Option Nat
  /-- TT_CPL.MASTER -/
  cplMaster : Nat
  /-- TT_CPL.CHILD -/
  cplChild : BitVec 24
  /-- TT_CPL.DEPTH -/
  cplDepth : Nat
  /-- TT_CPL.PARENT -/
  cplParent : Nat
  /-- TT_STAFF.EPOCH -/
  epoch : Nat
  /-- TT_STAFF.LEASELEN -/
  leaseLen : Nat
  /-- TT_STAFF.HOLD -/
  hold : Bool
  /-- TT_LEASE.EXPIRY -/
  expiry : Nat
  /-- TT_CSTAT.LOWMISS -/
  lowMiss : Nat
  /-- TT_CSTAT.NMISS -/
  nMiss : Nat
  /-- TT_CSTAT.MISSES -/
  misses : Nat
  /-- TT_LASTRX -/
  lastRx : Nat
  /-- TT_CERR: STALE 0, NOTPARENT 1, LATE 2, DIGEST 3, DUAL 4 -/
  cerr : BitVec 5
  /-- boundaries announced and not yet taken, in order (R41, R428) -/
  ann : List TickMsg
  /-- the latest report of each child link -/
  reports : List Rep
  /-- the last boundary this node has reported -/
  repSent : Nat
  /-- this node has reported its subtree's end of the running phase -/
  endSent : Bool
  /-- consecutive incomplete evaluations (R437) -/
  incomplete : Nat
  /-- the last evaluation found every device ready (R434) -/
  allReady : Bool
  /-- the third missed boundary has passed: the next boundary holds the device (R436) -/
  parting : Bool
  deriving DecidableEq, Repr

/-- The timetable unit after a reset. The tick number is kept by the reset itself (R27). -/
def Tt.reset : Tt :=
  { role := 0, lateAlert := false, enable := false, state := 0, reason := 0, phase := 0, period := 1000000,
    curPeriod := 1000000, tick := 0, lastB := 0, nphase := 0, len := 0, cycnum := 0, done := false, lead := 500,
    recBase := 0, recSeq := 1, recEn := false, log2n := 0, recPos := 0, err := 0, errIdx := 0, phases := .empty,
    sched := .idle, plan := .idle, startAt := 0, inPhase := false, ended := none, startDue := none, cur := none, resumeDue := false,
    completed := 0, absent := false, halt := none, why := 0, resume := none, cplMaster := 0, cplChild := 0, cplDepth := 0,
    cplParent := 0x1F, epoch := 0, leaseLen := 0xC8, hold := false, expiry := 0xFFFFFFFFFFFFFFFF, lowMiss := 0xFFFF,
    nMiss := 0, misses := 0, lastRx := 0, cerr := 0, ann := [], reports := [], repSent := 0, endSent := false,
    incomplete := 0, allReady := false, parting := false }

/-- An event on its way to the recorder ring (R497). -/
structure RecEv where
  tick : Nat
  ns : Nat
  src : Nat
  code : Nat
  cls : Nat
  boots : Nat
  consist : Nat
  inst : Nat
  data : Nat
  /-- it triggers a freeze (R499) -/
  trig : Bool
  deriving DecidableEq, Repr

/-- The recorder (R496 to R500) and the reliability registers. -/
structure Rec where
  /-- the ring: 256-bit entries by index -/
  ring : Tab (BitVec 256)
  /-- the input queue of 64, oldest first -/
  queue : List RecEv
  /-- events in holding registers at their sources -/
  hold : List RecEv
  post : Nat
  nextSeq : Nat
  head : Nat
  boots : Nat
  full : Bool
  postDone : Bool
  frozen : Bool
  /-- entries written since the trigger -/
  since : Nat
  drop : Nat
  lost : Nat
  ridx : Nat
  /-- RC_RDATA0 to RC_RDATA3 -/
  rdata : BitVec 256
  frz : Nat
  /-- RC_CNT1 to RC_CNT5 -/
  cnt : Tab Nat
  /-- the instant at which an entry last triggered a freeze (R499) -/
  trigAt : Option Nat
  /-- class, source, instance already recorded in this tick (R486) -/
  seen : List (Nat × Nat × Nat)
  deriving DecidableEq, Repr

/-- The recorder when standby power is applied. -/
def Rec.reset : Rec :=
  { ring := .empty, queue := [], hold := [], post := 0x400, nextSeq := 1, head := 0, boots := 0, full := false,
    postDone := false, frozen := false, since := 0, drop := 0, lost := 0, ridx := 0, rdata := 0, frz := 0, cnt := .empty,
    trigAt := none, seen := [] }

/-- Close memory, the far tier and the keys (R340 to R370), the cache masks (R326). -/
structure MemSys where
  /-- GDDR7, by physical address -/
  gddr : Mem
  /-- poisoned 128-byte lines of GDDR7 and the far tier, by physical address / 128 (R358) -/
  poison : List Nat
  /-- retired GDDR7 channels: die × 4 + channel (R359) -/
  retired : List Nat
  /-- the far tier: bytes by key, port and port address (R363, R369) -/
  far : Mem
  /-- far-tier lines written and perhaps not yet written back (R366), by physical address / 128 -/
  dirty : List Nat
  /-- key slots 0 to 2: the key each holds (R370) -/
  key0 : Option Nat
  key1 : Option Nat
  key2 : Option Nat
  /-- the next key number to be drawn -/
  nextKey : Nat
  /-- FT_SMBASE.BASE, as an address -/
  smBase : Nat
  /-- FT_SMBASE.EN -/
  smEn : Bool
  /-- FT_PORTn -/
  ports : Tab Word
  /-- CA_WMASK0 to CA_WMASK15 -/
  wmask : Tab Word
  /-- CA_PFCTL -/
  pfctl : BitVec 4
  /-- the boot window, by offset (R579, R508) -/
  bootWin : Mem
  /-- the boot window is locked -/
  bootLock : Bool
  deriving DecidableEq, Repr

/-- The memory system after a cold reset: slot 0 holds a fresh key, slots 1 and 2 none (R370). -/
def MemSys.reset : MemSys :=
  { gddr := .empty, poison := [], retired := [], far := .empty, dirty := [], key0 := some 0, key1 := none, key2 := none, nextKey := 1,
    smBase := 0, smEn := false, ports := .empty, wmask := .empty, pfctl := 0xF, bootWin := .empty, bootLock := false }

end Sys2Proof.Machine
end

