-- ==== Sys2Proof/Machine/State/Fabric.lean ====
section
/-! DEFINITION. The state of the shunters (14_shunters_dma.md), of the links and of the junction with its reduction groups
(15_links_and_junction.md). -/

namespace Sys2Proof.Machine

/-! ### Shunters -/

/-- What a transfer does: the fields of a descriptor, or of the registers of a direct transfer (R378, R381). -/
structure Desc where
  src : Nat
  dst : Nat
  next : Nat
  ctl : Nat
  count : Nat
  /-- PARAM, 30 bytes, byte 24 lowest -/
  param : Nat
  devid : Nat
  /-- byte 62 and bits 6:0 of byte 63 are zero -/
  clean : Bool
  deriving DecidableEq, Repr

/-- A descriptor of zeros. -/
def Desc.zero : Desc := ⟨0, 0, 0, 0, 0, 0, 0, true⟩

/-- How a transfer or an instance ends: status (R387), cause code, count done, address. -/
structure Fin_ where
  status : Nat
  fcode : Nat
  done : Nat
  addr : Word
  deriving DecidableEq, Repr

/-- A channel (R371 to R390). -/
structure Chan where
  /-- SH_CTXn -/
  ctx : BitVec 17
  src : Word
  dst : Word
  cnt : BitVec 32
  /-- SH_CTRLn: DEVID 15:0, REMOTE 17:16, IRQ 18, SWAP 21:19 -/
  ctrl : BitVec 22
  chain : Word
  fcode : Nat
  status : Nat
  done : Nat
  faddr : Word
  /-- 0 idle, 1 a descriptor is to be read, 2 a transfer is under way -/
  mode : Nat
  isChain : Bool
  /-- the interrupt bit latched at GO -/
  irqAll : Bool
  cur : Desc
  /-- a stop (5) or a halt (6) is pending -/
  stop : Option Nat
  /-- the end that has been found -/
  fin : Option Fin_
  /-- stream bytes a remote transfer has completed -/
  acked : Nat
  /-- the outstanding request of a remote transfer: TXN, bytes, instant -/
  req : Option (Nat × Nat × Nat)
  deriving DecidableEq, Repr

/-- A channel after a reset. -/
def Chan.reset : Chan :=
  { ctx := 6, src := 0, dst := 0, cnt := 0, ctrl := 0, chain := 0, fcode := 0, status := 0, done := 0, faddr := 0, mode := 0,
    isChain := false, irqAll := false, cur := .zero, stop := none, fin := none, acked := 0, req := none }

/-- The shunters: channels by engine × 16 + channel, SH_DONE and SH_ERR by engine. -/
structure Shunters where
  chans : Tab Chan
  ended : Tab (BitVec 16)
  gobusy : Tab (BitVec 16)
  /-- the next transaction tag -/
  txn : Nat
  deriving DecidableEq, Repr

/-- The shunters after a reset. -/
def Shunters.reset : Shunters := ⟨.empty, .empty, .empty, 0⟩

/-! ### Links -/

/-- A flit in a replay buffer (R398 to R400): its LSEQ, its replays, and the lanes of its failed attempts. -/
structure TxFlit where
  lseq : Nat
  flit : Flit
  replays : Nat
  lanes : List Nat
  deriving DecidableEq, Repr

/-- A link (R391 to R408, R413, R414). -/
structure Link where
  en : Bool
  arm : Bool
  /-- LK_STAT.STATE -/
  state : BitVec 3
  peer : Nat
  lanes : BitVec 8
  retired : BitVec 8
  vmaj : Nat
  vmin : Nat
  overflow : Bool
  recov : Bool
  replay : Nat
  fail : Nat
  exhaust : Nat
  lat : Nat
  /-- signal from the partner is detected -/
  signal : Bool
  /-- lanes that training has equalised -/
  trained : BitVec 8
  /-- lanes that training has given up -/
  unusable : BitVec 8
  /-- the instant of entry to the present training state -/
  since : Nat
  /-- the next LSEQ to be sent -/
  txSeq : Nat
  /-- the replay buffer, oldest first -/
  unacked : List TxFlit
  /-- the instant at which LACK last advanced, or the wait for it began (R399) -/
  ackAt : Nat
  /-- the next LSEQ expected -/
  rxNext : Nat
  /-- a NAK has been sent and the expected flit has not arrived (R399) -/
  naking : Bool
  /-- recovery under way (R400) -/
  recovering : Bool
  /-- credits held, by traffic class -/
  credits : Tab Nat
  /-- flits waiting for this output, by arrival: arbitration class and flit -/
  outq : List (Nat × Flit)
  /-- consecutive slots each class has waited -/
  waits : Tab Nat
  /-- flit failures of the last second: lane and instant -/
  failT : List (Nat × Nat)
  /-- exhaustions charged in the last second: lane and instant -/
  exhT : List (Nat × Nat)
  deriving DecidableEq, Repr

/-- A link after a reset. -/
def Link.reset : Link :=
  { en := false, arm := true, state := 0, peer := 0, lanes := 0, retired := 0, vmaj := 0, vmin := 0, overflow := false,
    recov := false, replay := 0, fail := 0, exhaust := 0, lat := 0, signal := false, trained := 0, unusable := 0, since := 0,
    txSeq := 0, unacked := [], ackAt := 0, rxNext := 0, naking := false, recovering := false, credits := .empty, outq := [],
    waits := .empty, failT := [], exhT := [] }

/-! ### The junction -/

/-- An operand that has arrived at a node: chunk, place in the operand list (0 local, i + 1 CHILDi), the elements in the
combine format (R421). -/
structure RedOp where
  chunk : Nat
  place : Nat
  vals : List Nat
  deriving DecidableEq, Repr

/-- A running reduction instance (R419 to R424). -/
structure RedInst where
  addr : Nat
  src : Nat
  dst : Nat
  count : Nat
  op : Nat
  fmt : Nat
  wire : Nat
  all : Bool
  seq : Nat
  /-- operands that have arrived, in order of arrival -/
  ops : List RedOp
  /-- the next chunk of the local operand -/
  nextLocal : Nat
  /-- chunks this node has finished -/
  chunks : List Nat
  done : Nat
  /-- NV 0, OF 1, UF 2, NX 3, SAT 4 -/
  flags : BitVec 5
  fin : Option Fin_
  deriving DecidableEq, Repr

/-- A reduction group (R418). -/
structure RedGrp where
  cfg : BitVec 50
  ctx : BitVec 17
  addr : Nat
  fcode : Nat
  status : Nat
  done : Nat
  inst : Option RedInst
  deriving DecidableEq, Repr

/-- A group after a reset. -/
def RedGrp.reset : RedGrp :=
  { cfg := 0x1FFFFFFFFFFF, ctx := 6, addr := 0, fcode := 0, status := 0, done := 0, inst := none }

/-- The junction. -/
structure Junction where
  devid : Nat
  rtInc : Bool
  rtId : Nat
  /-- the route table; an unlisted entry is 0x1F -/
  routes : Tab Nat
  fmtErr : Nat
  tagErr : Nat
  noRoute : Nat
  groups : Tab RedGrp
  /-- flits accepted from links, waiting at the junction: ingress link, instant, flit -/
  inq : List (Nat × Nat × Flit)
  /-- flits delivered to this device's endpoints, likewise -/
  inbox : List (Nat × Nat × Flit)
  /-- the next order message identifier -/
  oid : Nat
  deriving DecidableEq, Repr

/-- The junction after a reset. -/
def Junction.reset : Junction :=
  { devid := 0, rtInc := false, rtId := 0, routes := .empty, fmtErr := 0, tagErr := 0, noRoute := 0, groups := .empty,
    inq := [], inbox := [], oid := 0 }

end Sys2Proof.Machine
end

