-- ==== Sys2Proof/Machine/State/Host.lean ====
section
/-! DEFINITION. The state of the host ports and of the waybill ledger (17_host_waybills_ledger.md). -/

namespace Sys2Proof.Machine

/-- A host port (R444, R448). -/
structure HiPort where
  en : Bool
  up : Bool
  vmaj : Nat
  vmin : Nat
  lmode : Nat
  wina : Tab Word
  winb : Tab Word
  deriving DecidableEq, Repr

/-- A host port after a reset. -/
def HiPort.reset : HiPort := ⟨false, false, 1, 0, 0, .empty, .empty⟩

/-- An open queue pair (R447, R474): the queues it may write, its peer, its path MTU code, the congestion notifications it has
taken (R445). -/
structure Qp where
  port : Nat
  qpn : Nat
  sqmask : Nat
  rqpn : Nat
  gid : Nat
  pmtu : Nat
  slowed : Nat
  deriving DecidableEq, Repr

/-- A registered GDDR7 range (R447, R474). -/
structure Region_ where
  port : Nat
  qpn : Nat
  base : Nat
  len : Nat
  rkey : Nat
  rights : Nat
  deriving DecidableEq, Repr

/-- A submission queue (R449 to R460). -/
structure Sq where
  base : Nat
  port : Nat
  en : Bool
  log2s : Nat
  winBase : Nat
  winEn : Bool
  log2n : Nat
  rplBase : Nat
  log2r : Nat
  next : Word
  /-- PROD of the doorbell -/
  prod : Nat
  /-- slots taken, modulo 2^32 -/
  taken : Nat
  /-- RETIRE of the doorbell -/
  retire : Word
  /-- the next RSEQ -/
  rseq : Nat
  /-- the next position of the reply ring -/
  rpos : Nat
  /-- recovery of the queue is under way (R466) -/
  recovering : Bool
  deriving DecidableEq, Repr

/-- A queue after a reset. -/
def Sq.reset : Sq :=
  { base := 0, port := 0, en := false, log2s := 4, winBase := 0, winEn := false, log2n := 4, rplBase := 0, log2r := 4,
    next := 1, prod := 0, taken := 0, retire := 0, rseq := 1, rpos := 0, recovering := false }

/-- What a ledger write settles when its flush completes (R454, R459, R463): a reply, the next step of a switch, or
nothing. -/
inductive FlushFor where
  /-- the ACCEPTED reply -/
  | accepted
  /-- step 3 of a switch -/
  | committed
  /-- the COMPLETED reply -/
  | completed
  /-- the FAILED reply -/
  | failed
  /-- a return to ACCEPTED -/
  | returned
  deriving DecidableEq, Repr

/-- A global persistent flush that has been issued: the queue and sequence number, what waits for it, the instant. -/
structure Flush where
  q : Nat
  seq : Word
  what : FlushFor
  at_ : Nat
  /-- duplicates to be answered after it (R455) -/
  dups : Nat
  deriving DecidableEq, Repr

/-- An entry of the dispatch list (R461). -/
structure DlEnt where
  q : Nat
  seq : Word
  absent : Nat
  deriving DecidableEq, Repr

/-- A COMMIT whose switch has not begun (R460, R463). -/
structure Commit where
  q : Nat
  seq : Word
  sel : Bool
  status : Nat
  deriving DecidableEq, Repr

/-- The ledger logic. -/
structure Ledger where
  maxatt : Nat
  gpfto : Nat
  /-- LD_ERR: DBOVF 0, OP 1, HALTED 2, GPFTO 3 -/
  err : BitVec 4
  locked : BitVec 16
  dlBase : Nat
  dl : List DlEnt
  sqs : Tab Sq
  flushes : List Flush
  commits : List Commit
  /-- LD_OP is ignored since a halt tick (R464) -/
  halted : Bool
  deriving DecidableEq, Repr

/-- The ledger logic after a reset. -/
def Ledger.reset : Ledger :=
  { maxatt := 4, gpfto := 400, err := 0, locked := 0, dlBase := 0, dl := [], sqs := .empty, flushes := [], commits := [],
    halted := false }

/-- The host interface. -/
structure HostIf where
  ports : Tab HiPort
  qps : List Qp
  regions : List Region_
  ld : Ledger
  deriving DecidableEq, Repr

/-- The host interface after a reset. -/
def HostIf.reset : HostIf := ⟨.empty, [], [], .reset⟩

/-- Port h. -/
def HostIf.port (x : HostIf) (h : Nat) : HiPort := x.ports.getD h HiPort.reset

/-- HI_WINB.EN and the offset below LEN × 4 KiB (R448). -/
def HostIf.windowOk (x : HostIf) (off : Nat) : Bool :=
  let w := off / 2 ^ 32
  let b := (x.port (w / 64)).winb.getD (w % 64) 0
  b.getLsbD 63 && decide (off % 2 ^ 32 < (b.toNat >>> 42) % 2 ^ 21 * 0x1000)

end Sys2Proof.Machine
end

