-- ==== Sys2Proof/Machine/State/Admin.lean ====
section
/-! DEFINITION. The state of binding and accounting (18), of boot and security (20), of the object dictionary (21), of power
and reset (22) and of the test access port (23). -/

namespace Sys2Proof.Machine

/-! ### Binding and accounting -/

/-- A checked consist record on its way into the device (R476, R477, R515): its bytes, its digest, the keys unwrapped into
the pending slots. -/
structure NewBind where
  rec_ : List Byte
  digest : List Byte
  pend0 : Nat
  pend1 : Option Nat
  pend2 : Option Nat
  deriving DecidableEq, Repr

/-- The accounting of one phase index (R481, R482). -/
structure Acct where
  tag : Nat
  kind : Nat
  mixed : Bool
  count : Nat
  ns : Nat
  deriving DecidableEq, Repr

/-- A snapshot of the accounting, the contents of a seal but for the signature (R482). -/
structure Seal where
  cause : Nat
  consist : Nat
  devid : Nat
  nstn : Nat
  sseq : Nat
  halts : Nat
  bindTick : Nat
  endTick : Nat
  boundNs : Nat
  heldNs : Nat
  late : Nat
  digest : List Byte
  phases : Tab Acct
  at_ : Nat
  deriving DecidableEq, Repr

/-- Binding (R471 to R483). -/
structure Binding where
  /-- BD_STAT.STATE -/
  state : Nat
  /-- BD_STAT.REASON -/
  reason : Nat
  /-- BD_STAT.STEP -/
  step : Nat
  /-- the sequence has run no step yet past which the device was bound: a bind of an unbound device (R479) -/
  fresh : Bool
  /-- the record being bound -/
  new : Option NewBind
  /-- the bound record and its digest -/
  rec_ : List Byte
  digest : List Byte
  /-- the counters run (R481) -/
  counting : Bool
  boundFrom : Nat
  /-- held time in units of 1/17 ns -/
  held : Nat
  heldFrom : Option Nat
  /-- bound and held time of the last binding, in ns, after its snapshot -/
  lastNs : Nat
  lastHeld : Nat
  bindTick : Nat
  halts : Nat
  late : Nat
  phases : Tab Acct
  /-- SSEQ of the last seal -/
  sseq : Nat
  /-- snapshots to be signed, oldest first -/
  unsigned : List Seal
  /-- a reset has interrupted a binding whose seal is not signed yet: no BIND is accepted (R483) -/
  owed : Bool
  /-- the last four seals, newest first -/
  seals : List (List Byte)
  deriving DecidableEq, Repr

/-- Binding before the first bind. -/
def Binding.reset : Binding :=
  { state := 0, reason := 0, step := 0, fresh := false, new := none, rec_ := [], digest := [], counting := false, boundFrom := 0, held := 0,
    heldFrom := none, lastNs := 0, lastHeld := 0, bindTick := 0, halts := 0, late := 0, phases := .empty, sseq := 0,
    unsigned := [], owed := false, seals := [] }

/-! ### Boot and security -/

/-- The running image (R504, R508). -/
structure Image where
  load : Nat
  entry : Nat
  sbentry : Nat
  body : Nat
  deriving DecidableEq, Repr

/-- What SPDM answers (R512, R513). -/
inductive Spdm where
  /-- VERSION, 1.3 -/
  | version
  /-- CAPABILITIES: CERT_CAP, CHAL_CAP, signed MEAS_CAP -/
  | capabilities
  /-- ALGORITHMS: the extended structure selected, SHA3-512 -/
  | algorithms (sel : ExtAlg)
  /-- DIGESTS of slot 0 -/
  | digests (d : List Byte)
  /-- CERTIFICATE: a portion of the chain of slot 0 -/
  | certificate (portion : List Byte)
  /-- CHALLENGE_AUTH with its signature -/
  | challengeAuth (nonce sig : List Byte)
  /-- MEASUREMENTS: blocks 1 to 6, with its signature -/
  | measurements (nonce : List Byte) (blocks : List (List Byte)) (sig : List Byte)
  /-- ERROR NegotiationFail -/
  | negotiationFail
  /-- ERROR UnsupportedRequest -/
  | unsupported (code : Nat)
  deriving DecidableEq, Repr

/-- Boot and security (R501 to R517). -/
structure Sec where
  /-- STRAP[3:0] as the boot ROM sampled it -/
  strap : BitVec 4
  /-- SEC_BOOTSTAT -/
  code : Nat
  rejects : Nat
  svn : Nat
  keyidx : Nat
  dbg : Bool
  /-- SEC_FUSE: rollback counter and revoked slots -/
  counter : Nat
  revoked : BitVec 4
  /-- an image has been delivered and is being verified: its length -/
  verifying : Option Nat
  image : Option Image
  m0 : List Byte
  m1 : List Byte
  m2 : List Byte
  m3 : List Byte
  m4 : List Byte
  m5 : List Byte
  /-- the DKK certificate -/
  dkkCert : List Byte
  /-- the administrator connection of the boot: port, peer's queue pair, path MTU code -/
  cm : Option (Nat × Nat × Nat)
  /-- the instant since which the boot's host port tries its present LMODE (R503) -/
  tryAt : Nat
  /-- the last SPDM response -/
  spdm : Option Spdm
  /-- the message transcript of the attestation, as bytes -/
  transcript : List Byte
  deriving DecidableEq, Repr

/-- A measurement of zeros. -/
def zero64 : List Byte := List.replicate 64 0

/-- Boot and security as a device comes up, before the boot ROM has sampled STRAP. -/
def Sec.reset : Sec :=
  { strap := 0, code := 0, rejects := 0, svn := 0, keyidx := 0, dbg := false, counter := 0, revoked := 0, verifying := none,
    image := none, m0 := zero64, m1 := zero64, m2 := zero64, m3 := zero64, m4 := zero64, m5 := zero64, dkkCert := [],
    cm := none, tryAt := 0, spdm := none, transcript := [] }

/-! ### The object dictionary -/

/-- An open transfer (R523 to R525). -/
structure Xfer where
  peer : Peer
  tid : Nat
  index : Nat
  sub : Nat
  write : Bool
  size : Nat
  /-- the next segment expected -/
  next : Nat
  /-- the bytes received, or the entry as latched -/
  data : List Byte
  /-- the instant of its last message -/
  last : Nat
  deriving DecidableEq, Repr

/-- A request in the queue (R539). -/
structure DReq where
  peer : Peer
  msg : DMsg
  at_ : Nat
  deriving DecidableEq, Repr

/-- Whom the result of an order goes to: the requester of a dictionary transfer, by its last segment, or the device that sent
it in ORDER flits, by source and identifier (R441, R538). -/
inductive OrdFrom where
  | dict (peer : Peer) (msg : DMsg)
  | flit (src oid : Nat)
  deriving DecidableEq, Repr

/-- An order forwarded over links whose result has not returned (R441, R538). -/
structure Fwd where
  oid : Nat
  origin : OrdFrom
  code : Nat
  seq : Nat
  at_ : Nat
  deriving DecidableEq, Repr

/-- An order message whose segments are arriving (R441): its source, identifier, length and segments. -/
structure OrdMsg where
  src : Nat
  oid : Nat
  nseg : Nat
  len : Nat
  segs : Tab (List Byte)
  deriving DecidableEq, Repr

/-- An administrator queue pair entry 0x1030 + h (R532). -/
structure AdmQp where
  gid : Nat
  rqpn : Nat
  pmtu : Nat
  en : Bool
  deriving DecidableEq, Repr

/-- The object dictionary (R518 to R541). -/
structure Dict where
  xfers : List Xfer
  queue : List DReq
  /-- a busy abort has been sent since the last telemetry sample -/
  busy : Bool
  plcaId : Nat
  plcaCount : Nat
  adm : Tab AdmQp
  /-- 0x1F01 -/
  ordseq : Nat
  /-- 0x3001 and 0x3002 -/
  staged : List Byte
  digest : List Byte
  /-- 0x7010 -/
  orderKey : Option (List Byte)
  /-- 0x1005 -/
  bootId : Nat
  /-- 0x5010 -/
  period : Nat
  /-- the instant of the last telemetry sample -/
  sampled : Nat
  /-- 0x5020, oldest first -/
  telem : List (BitVec 256)
  tseq : Nat
  degraded : Bool
  /-- the signal box restarts -/
  restarting : Bool
  forwards : List Fwd
  orders : List OrdMsg
  deriving DecidableEq, Repr

/-- The dictionary after a cold or warm reset. -/
def Dict.reset : Dict :=
  { xfers := [], queue := [], busy := false, plcaId := 0xFF, plcaCount := 17, adm := .empty, ordseq := 0, staged := [],
    digest := zero64, orderKey := none, bootId := 0, period := 10000, sampled := 0, telem := [], tseq := 1, degraded := false,
    restarting := false, forwards := [], orders := [] }

/-! ### Power, reset, test access -/

/-- Device power states (R542). -/
inductive Power where
  | off
  | standby
  | boot
  | running
  | tripped
  deriving DecidableEq, Repr

/-- Power, clocks and reset (R542 to R560). -/
structure Pwr where
  state : Power
  /-- PM_CAP -/
  hyst : Nat
  capEn : Bool
  cap : Nat
  /-- PM_STAT but for LEVEL -/
  pin : Nat
  tj : Nat
  throt : Bool
  floor : Bool
  capped : Bool
  /-- PM_THERM.THROTTLE -/
  throttle : Nat
  /-- PM_ENERGY -/
  energy : Nat
  /-- CK_STAT -/
  cause : Nat
  lock : BitVec 8
  deriving DecidableEq, Repr

/-- Power as VIN_12V comes up from STANDBY or TRIPPED. -/
def Pwr.reset : Pwr :=
  { state := .boot, hyst := 100, capEn := false, cap := 3500, pin := 0, tj := 0, throt := false, floor := false, capped := false,
    throttle := 100, energy := 0, cause := 1, lock := 0x8F }

/-- The test access port (R575 to R577): the instruction, STNSEL, STNADDR, and the boundary register's shifted value. -/
structure Tap where
  ir : BitVec 8
  stnsel : BitVec 16
  stnaddr : BitVec 32
  boundary : List (Option Bool)
  deriving DecidableEq, Repr

/-- The port after a TAP reset: IDCODE is selected. -/
def Tap.reset : Tap := { ir := 2, stnsel := 0, stnaddr := 0, boundary := [] }

end Sys2Proof.Machine
end

