-- ==== Sys2Proof/Machine/State.lean ====
section
/-! DEFINITION. The state of the block: the queue of waiting commands, and the device. -/

namespace Sys2Proof.Machine

/-- Messages the device sends out, oldest first (log entry 8). -/
inductive Out where
  /-- a sequenced flit sent on a link, with its LSEQ and the LACK it carries (R394, R398) -/
  | flit (link lseq lack : Nat) (f : Flit)
  /-- a link control flit: the bytes from its operation on (R396) -/
  | lctl (link : Nat) (bytes : List Byte)
  /-- a NAK with the current LACK (R399) -/
  | nak (link lack : Nat)
  /-- an RDMA WRITE to a host window's remote address on a queue pair (R448, R456) -/
  | rdmaWrite (port qp rkey : Nat) (addr : Word) (bytes : List Byte)
  /-- a SEND on a queue pair (R446, R456) -/
  | send (port qp : Nat) (bytes : List Byte)
  /-- the answer to a host's RDMA READ: the bytes read (R446) -/
  | rdmaData (port qp : Nat) (bytes : List Byte)
  /-- an acknowledgement of a host's RDMA WRITE -/
  | rdmaAck (port qp : Nat)
  /-- NAK invalid request (true) or remote access error (R446, R447) -/
  | rdmaNak (port qp : Nat) (invalid : Bool)
  /-- a dictionary message to a peer: type, TID, INDEX, SUB, FLAGS, ARG and data (R521, R522) -/
  | dict (peer : Peer) (typ tid index sub flags arg : Nat) (data : List Byte)
  /-- the result of an order that came in ORDER flits, returned toward its sender: OID, result, CODE, ORDSEQ (R441, R538) -/
  | orderResult (dst oid result code seq : Nat)
  /-- the result of an order that passed the checks before its own conditions: CODE and result (R475, R537) -/
  | orderDone (code result : Nat)
  /-- a congestion notification packet for a queue pair of the host (R445) -/
  | cnp (port qp : Nat)
  /-- the answer to a connection request of the boot's host port: whether it is accepted (R503) -/
  | cm (port qpn : Nat) (accepted : Bool)
  /-- an SPDM response (R512) -/
  | spdm (r : Spdm)
  /-- what TDO shifted out in a data scan; none for a bit the spec does not fix (R575) -/
  | tdo (bits : List (Option Bool))
  deriving DecidableEq, Repr

/-- The device. -/
structure Dev where
  /-- the instant, in units of 1/17 ns (log entry 6) -/
  now : Nat
  /-- the stations, by number -/
  stns : Tab Station
  mem : MemSys
  tt : Tt
  rc : Rec
  sh : Shunters
  /-- the links, by number -/
  links : Tab Link
  jn : Junction
  host : HostIf
  bd : Binding
  sec : Sec
  dict : Dict
  pw : Pwr
  tap : Tap
  /-- the cap level L (R546) -/
  capL : Nat
  /-- RC_ESTAT.CFATAL -/
  cfatal : Bool
  /-- RC_ESTAT.DFATAL -/
  dfatal : Bool
  /-- RC_ESTAT.RETIRE -/
  retireEv : Bool
  /-- the stations the part is made with (R1, R2) -/
  made : BitVec 128
  /-- RC_RETSTN -/
  retStn : BitVec 128
  /-- RC_RETPEND -/
  retPend : BitVec 128
  /-- the stations the bound consist record lists, none while unbound (R471) -/
  listed : Option (BitVec 128)
  /-- the bound consist, 0 when unbound -/
  consist : Nat
  /-- the next free value to be drawn (log entry 5): the model's own field -/
  free : Nat
  out : List Out
  deriving DecidableEq, Repr

/-- The state: the commands that wait, first in first out, and the device. -/
structure State where
  pending : List Instr
  dev : Dev
  deriving DecidableEq, Repr

/-- Why the machine stops. No meaning of this model raises a fault: every condition the spec names has its effect on
State. The type is the interface's. -/
inductive Fault where
  /-- never raised -/
  | none
  deriving DecidableEq, Repr

/-- Why a command has no meaning. -/
inductive Refusal where
  /-- raised by exec's arm of a command that is not modelled yet; safe -/
  | notModelled (mnemonic : String)
  deriving DecidableEq, Repr

/-- The device with every register at its reset value. -/
def Dev.reset : Dev :=
  { now := 0, stns := .empty, mem := MemSys.reset, tt := Tt.reset, rc := Rec.reset, sh := Shunters.reset,
    links := .empty, jn := Junction.reset, host := HostIf.reset, bd := Binding.reset, sec := Sec.reset, dict := Dict.reset,
    pw := Pwr.reset, tap := Tap.reset, capL := 8, cfatal := false, dfatal := false,
    retireEv := false, made := BitVec.allOnes 128, retStn := 0, retPend := 0, listed := none, consist := 0, free := 0,
    out := [] }

/-- The device right after the first reset of all: standby power has been applied, and the cold reset with which the rails came up
has ended with the boot ROM serving its profile (R496, R532, R542, R555). STRAP reads 0b0000. -/
def Dev.first : Dev :=
  { Dev.reset with
    rc := { Rec.reset with
      boots := 1,
      queue := [{ tick := 0, ns := 0, src := 0x0E, code := 2, cls := 0, boots := 0, consist := 0, inst := 0, data := 0,
                  trig := false }] },
    dict := { Dict.reset with bootId := Config.freeValue 0 % 2 ^ 64 },
    free := 1 }

/-- The state right after reset. -/
def State.reset : State := { pending := [], dev := Dev.first }

end Sys2Proof.Machine
end

