-- ==== Sys2Proof/Machine/Send.lean ====
section
/-! DEFINITION. Sending: CRC-32C, messages out, link outputs, flits this device originates, and the reports of a coupled
group (R395, R398, R409, R413 to R415, R431, R432). -/

namespace Sys2Proof.Machine

/-! ### CRC-32C (R395) -/

/-- Eight steps of the reflected CRC register. -/
def crcBits : Nat → Nat → Nat
  | 0, c => c
  | n + 1, c => crcBits n (if c % 2 = 1 then (c / 2) ^^^ 0x82F63B78 else c / 2)

/-- CRC-32C of a list of bytes. -/
def crc32c (bs : List Byte) : Nat :=
  (bs.foldl (fun c b => crcBits 8 (c ^^^ b.toNat)) 0xFFFFFFFF) ^^^ 0xFFFFFFFF

/-! ### Messages and links -/

/-- A message leaves the device. -/
def Dev.emit (d : Dev) (o : Out) : Dev := { d with out := d.out ++ [o] }

/-! ### Flits -/

/-- The n bytes at flit offset off, as a number; DATA starts at offset 12 (R394). -/
def flitU (f : Flit) (off n : Nat) : Nat := natLE ((f.data.drop (off - 12)).take n)

/-- The n bytes at flit offset off. -/
def flitBytes (f : Flit) (off n : Nat) : List Byte := (f.data.drop (off - 12)).take n

/-! ### Links -/

/-- Link l. -/
def Dev.link (d : Dev) (l : Nat) : Link := d.links.getD l Link.reset

/-- Link l changed. -/
def Dev.updLink (d : Dev) (l : Nat) (f : Link → Link) : Dev := { d with links := d.links.set l (f (d.link l)) }

/-- A link is UP. -/
def Link.isUp (k : Link) : Bool := k.state == 4

/-- Flits a replay buffer holds (R398). -/
def replaySize : Nat := 1024

/-- Flit buffers of a traffic class at a receiver (R414). -/
def creditMax : Nat := 64

/-- Credits a link holds for a traffic class (R414). -/
def Link.credit (k : Link) (tc : Nat) : Nat := k.credits.getD tc creditMax

/-- The last LSEQ accepted in order, which every flit sent carries (R398). -/
def Link.lack (k : Link) : Nat := (k.rxNext + 65535) % 65536

/-- A class has a flit that its output could send: the head flit of the class has a credit (R413, R414). -/
def Link.ready (k : Link) (c : Nat) : Bool :=
  match k.outq.find? (fun p => p.1 == c) with
  | some p => decide (0 < k.credit p.2.tc.toNat)
  | none => false

/-- The class an output grants: starving classes first, in class order; else the lowest-numbered ready class (R413). -/
def Link.pick (k : Link) : Option Nat :=
  let classes := (List.range 8).filter k.ready
  (classes.find? (fun c => decide (64 ≤ k.waits.getD c 0))).or classes.head?

/-- The list without its first element that meets a condition. -/
def dropFirst {α : Type} (p : α → Bool) : List α → List α
  | [] => []
  | a :: r => if p a then r else a :: dropFirst p r

/-- One flit slot of a link output: the flit granted leaves, numbered, into the replay buffer (R398, R413, R414). -/
def Link.slot (k : Link) : Option (Link × Nat × Flit) :=
  if !k.isUp || k.recovering || decide (replaySize ≤ k.unacked.length) then none
  else match k.pick with
    | none => none
    | some c => match k.outq.find? (fun p => p.1 == c) with
      | none => none
      | some (_, f) =>
        let waiting := (List.range 8).filter (fun x => x != c && k.ready x)
        let w1 := waiting.foldl (fun m x => m.set x (m.getD x 0 + 1)) (k.waits.set c 0)
        some ({ k with outq := dropFirst (fun p => p.1 == c) k.outq, waits := w1,
                       credits := k.credits.set f.tc.toNat (k.credit f.tc.toNat - 1),
                       unacked := k.unacked ++ [⟨k.txSeq, f, 0, []⟩], txSeq := (k.txSeq + 1) % 65536 }, k.txSeq, f)

/-- The link sends as long as it can; fuel flits at most. The wait for LACK starts with the first unacknowledged flit (R399). -/
def Dev.pump (l : Nat) : Nat → Dev → Dev
  | 0, d => d
  | n + 1, d =>
    match (d.link l).slot with
    | none => d
    | some (k, seq, f) =>
      let k1 := if (d.link l).unacked.isEmpty then { k with ackAt := d.now } else k
      Dev.pump l n ((d.updLink l (fun _ => k1)).emit (.flit l seq k.lack f))

/-- A link sends what it can. -/
def Dev.sendAll (d : Dev) (l : Nat) : Dev := Dev.pump l ((d.link l).outq.length) d

/-- The device is bound to a consist. -/
def Dev.isBound (d : Dev) : Bool := d.listed.isSome

/-- The arbitration class of a flit at an output: TC 0 keeps its class, a flit of another consist passes as class 7 (R412,
R413). -/
def Dev.arbClass (d : Dev) (f : Flit) : Nat :=
  if f.tc = 0 then 0
  else if d.isBound && f.consist.toNat == d.consist then f.tc.toNat else 7

/-- A flit joins the queue of an output, which sends what it can. -/
def Dev.toLink (d : Dev) (l : Nat) (f : Flit) : Dev :=
  (d.updLink l (fun k => { k with outq := k.outq ++ [(d.arbClass f, f)] })).sendAll l

/-- A flit this device originates (R415). -/
def Dev.mkFlit (d : Dev) (kind tc dst : Nat) (sys : Bool) (data : List Byte) : Flit :=
  { kind := BitVec.ofNat 4 kind, sys := sys, rsv := false, tc := BitVec.ofNat 3 tc, ver := 1,
    consist := BitVec.ofNat 12 d.consist, src := BitVec.ofNat 16 d.jn.devid, dst := BitVec.ofNat 16 dst, data := data }

/-- A flit sent on one link of the tree, addressed to that link's partner. -/
def Dev.toTree (d : Dev) (l : Nat) (f : Flit) : Dev :=
  if (d.link l).isUp then d.toLink l { f with dst := BitVec.ofNat 16 (d.link l).peer } else d

/-! ### Reports (R431, R432) -/

/-- The child links of the tick tree. -/
def Tt.childLinks (t : Tt) : List Nat := (List.range 24).filter (fun l => t.cplChild.getLsbD l)

/-- The latest report of a child link. -/
def Tt.rep (t : Tt) (l : Nat) : Option Rep := t.reports.find? (fun r => r.link == l)

/-- The child links whose report for boundary n has not arrived. -/
def Tt.missing (t : Tt) (n : Nat) : List Nat :=
  t.childLinks.filter (fun l => match t.rep l with
    | some r => decide (r.tick < n)
    | none => true)

/-- NMISS of the subtree for boundary n. -/
def Tt.missCount (t : Tt) (n : Nat) : Nat :=
  (t.missing n).length + (t.reports.filter (fun r => decide (n ≤ r.tick))).foldl (fun m r => m + r.nmiss) 0

/-- LOWMISS of the subtree for boundary n. -/
def Dev.lowMissing (d : Dev) (n : Nat) : Nat :=
  (d.tt.reports.filter (fun r => decide (n ≤ r.tick))).foldl (fun m r => min m r.lowmiss)
    ((d.tt.missing n).foldl (fun m l => min m (d.link l).peer) 0xFFFF)

/-- The device itself is ready: enabled with a valid table, and without a halting contained error (R431, R489). -/
def Dev.ownReady (d : Dev) : Bool := d.tt.enable && !d.cfatal

/-- READY of the subtree for boundary n. -/
def Dev.subReady (d : Dev) (n : Nat) : Bool :=
  d.ownReady && d.tt.childLinks.all (fun l => match d.tt.rep l with
    | some r => decide (n ≤ r.tick) && r.ready
    | none => false)

/-- ENDED of the subtree: every device of it has ended the running phase. -/
def Tt.subEnded (t : Tt) : Bool :=
  t.inPhase && t.ended.isSome && t.childLinks.all (fun l => match t.rep l with
    | some r => r.ended && r.phase == t.phase.toNat && r.cyc == t.cycnum
    | none => false)

/-- The bytes over which DIGEST is taken: TT_CYCLE and bytes 0 to 9 of each phase entry in use. -/
def Tt.digestBytes (t : Tt) : List Byte :=
  bytesLE 8 (t.len + t.nphase * 2 ^ 32) ++ (List.range t.nphase).flatMap (fun k =>
    bytesLE 8 (t.phases.getD (2 * k) 0).toNat ++ bytesLE 2 (t.phases.getD (2 * k + 1) 0).toNat)

/-- The DATA of a REPORT for boundary n; `why` is the HREASON of a halt request. -/
def Dev.reportData (d : Dev) (n : Nat) (why : Option Nat) : List Byte :=
  let t := d.tt
  let flags := b2n why.isSome + b2n (d.subReady n) * 2 + b2n t.subEnded * 4
  bytesLE 1 2 ++ bytesLE 1 flags ++ bytesLE 1 t.phase.toNat ++ bytesLE 1 (why.getD 0) ++ bytesLE 8 n ++ bytesLE 8 t.cycnum
    ++ bytesLE 2 (t.missCount n) ++ bytesLE 2 (d.lowMissing n) ++ bytesLE 4 (crc32c t.digestBytes) ++ bytesLE 4 t.epoch
    ++ List.replicate 208 0

/-- A REPORT goes to the parent (R431, R432). A device-fatal error sends none (R490). -/
def Dev.sendReport (d : Dev) (why : Option Nat) : Dev :=
  if d.dfatal then d else d.toTree d.tt.cplParent (d.mkFlit 2 0 0 false (d.reportData d.tt.tick why))

end Sys2Proof.Machine
end

