-- ==== Sys2Proof/Machine/Ops.lean ====
section
/-! DEFINITION. The named operations every family shares: stations and threads, registers, station time, the recorder, the
halt request, taking an exception and returning from one, the issue of a station instruction and its completion. -/

namespace Sys2Proof.Machine

/-! ### Time -/

/-- Units of time in one nanosecond (log entry 6). -/
def nsU : Nat := 17

/-- Units of time in one station cycle: 1/850 MHz is 20/17 ns (R21). -/
def cycU : Nat := 20

/-- Units of time in one microsecond. -/
def usU : Nat := 17000

/-- The device at an instant no earlier than t. -/
def Dev.notBefore (t : Nat) (d : Dev) : Dev := { d with now := max d.now t }

/-! ### Stations and threads -/

/-- A station as the power-up leaves it: held in station reset until its release (R508, R544). -/
def Station.cold : Station := { Station.reset with held := true }

/-- Station n. -/
def Dev.stn (d : Dev) (n : Nat) : Station := d.stns.getD n Station.cold

/-- The device with station n replaced. -/
def Dev.setStn (d : Dev) (n : Nat) (s : Station) : Dev := { d with stns := d.stns.set n s }

/-- The device with station n changed. -/
def Dev.updStn (d : Dev) (n : Nat) (f : Station → Station) : Dev := d.setStn n (f (d.stn n))

/-- Thread t of a station. -/
def Station.thr (s : Station) (t : Nat) : Thread := s.th.getD t Thread.reset

/-- The station with thread t replaced. -/
def Station.setThr (s : Station) (t : Nat) (x : Thread) : Station := { s with th := s.th.set t x }

/-- The station with thread t changed. -/
def Station.updThr (s : Station) (t : Nat) (f : Thread → Thread) : Station := s.setThr t (f (s.thr t))

/-- The station with every thread changed. -/
def Station.allThr (s : Station) (f : Thread → Thread) : Station :=
  (((s.updThr 0 f).updThr 1 f).updThr 2 f).updThr 3 f

/-- The thread of a hart. -/
def Dev.thr (d : Dev) (h : Hart) : Thread := (d.stn h.stn).thr h.thr

/-- The device with a hart's thread changed. -/
def Dev.updThr (d : Dev) (h : Hart) (f : Thread → Thread) : Dev := d.updStn h.stn (fun s => s.updThr h.thr f)

/-- A station is present: the part is made with it and it has not been retired (R2, R204). -/
def Dev.present (d : Dev) (n : Nat) : Bool := d.made.getLsbD n && !d.retStn.getLsbD n

/-- A station takes part in work: present, and listed by the bound consist record if there is one (R471). -/
def Dev.usable (d : Dev) (n : Nat) : Bool :=
  d.present n && (match d.listed with
    | none => true
    | some m => m.getLsbD n)

/-- A station runs: neither locked up nor held in station reset (R100, R544). -/
def Station.live (s : Station) : Bool := !s.locked && !s.held

/-! ### Thread registers -/

/-- A general register: g0 reads zero (R49). -/
def Thread.gr (t : Thread) (r : Nat) : Word := if r = 0 then 0 else t.g.getD r 0

/-- A general register written: g0 ignores writes (R49). -/
def Thread.setG (t : Thread) (r : Nat) (v : Word) : Thread := if r = 0 then t else { t with g := t.g.set r v }

/-- sp is g31 (R49). -/
def Thread.sp (t : Thread) : Word := t.gr 31

/-- STATUS.RING. -/
def Thread.ring (t : Thread) : Nat := t.status.toNat % 4

/-- STATUS.IE. -/
def Thread.ie (t : Thread) : Bool := t.status.getLsbD 2

/-- STATUS.PRECISE. -/
def Thread.precise (t : Thread) : Bool := t.status.getLsbD 4

/-- STATUS.AXEN. -/
def Thread.axen (t : Thread) : BitVec 5 := t.status.extractLsb' 6 5

/-- STATUS.OCC of a ring. -/
def Thread.occ (t : Thread) (r : Nat) : Bool := t.status.getLsbD (12 + r)

/-- LFLAGS.ACTn. -/
def Thread.act (t : Thread) (n : Nat) : Bool := t.lflags.getLsbD n

/-- The lock-step position of a multiplier register: its landed value (R71). -/
def Thread.mqr (t : Thread) (n : Nat) : Word := t.mq.getD n 0

/-- The thread with every mq write landed that is due at a cycle, in issue order (R71). -/
def Thread.land (c : Nat) (t : Thread) : Thread :=
  { t with mq := (t.mqPend.filter (fun p => p.1 ≤ c)).foldl (fun m p => m.set p.2.1 p.2.2) t.mq,
           mqPend := t.mqPend.filter (fun p => !(p.1 ≤ c : Bool)) }

/-- The latest landing cycle of a thread's mq writes (0 if none is on its way). -/
def Thread.lastLanding (t : Thread) : Nat := t.mqPend.foldl (fun m p => max m p.1) 0

/-- The station n cycles later: CYCLE advances and the mq writes that are due land (R50, R71). -/
def Station.pass (n : Nat) (s : Station) : Station :=
  { s with cycle := s.cycle + n }.allThr (Thread.land (s.cycle + n))

/-- The device with station n some cycles later. -/
def Dev.pass (d : Dev) (n c : Nat) : Dev := d.updStn n (Station.pass c)

/-- NOINT_CNT: station cycles since STATUS.IE last became 0, saturating (R86). -/
def Station.nointCnt (s : Station) (t : Thread) : Nat := min 0xFFFF (s.cycle - t.nointFrom)

/-- STATUS with IE replaced; NOINT_CNT restarts where IE becomes 0 (R112). -/
def Thread.setStatus (t : Thread) (cycle : Nat) (st : BitVec 16) : Thread :=
  { t with status := st, nointFrom := if t.ie && !st.getLsbD 2 then cycle else t.nointFrom }

/-! ### Running threads -/

/-- A thread can issue: enabled and not waiting. -/
def Thread.isReady (t : Thread) : Bool := t.enabled && t.wait == .ready

/-- The first ready thread in the order that starts after thread t and wraps round (R53). -/
def Station.nextReady (s : Station) (t : Nat) : Option (Fin 4) :=
  let c (k : Nat) : Fin 4 := ⟨(t + k) % 4, Nat.mod_lt _ (by decide)⟩
  if (s.thr (c 1)).isReady then some (c 1)
  else if (s.thr (c 2)).isReady then some (c 2)
  else if (s.thr (c 3)).isReady then some (c 3)
  else if (s.thr (c 4)).isReady then some (c 4)
  else none

/-- The running thread t switches out: the next ready thread runs, after the 2 cycles a switch costs (R53). -/
def Station.switchOut (s : Station) (t : Nat) : Station :=
  let s1 := s.pass 2
  { s1 with running := s1.nextReady t }

/-- A thread waits for something, and switches out if it was running (R52). -/
def Station.block (s : Station) (t : Fin 4) (w : Wait) : Station :=
  let s1 := s.updThr t (fun x => { x with wait := w })
  if s.running = some t then s1.switchOut t else s1

/-- A thread of a station that runs becomes ready; an idle core takes it 2 cycles later (R53). -/
def Station.wakeUp (s : Station) (t : Fin 4) : Station :=
  if !s.live then s else
  let s1 := s.updThr t (fun x => { x with wait := .ready })
  match s1.running with
  | some _ => s1
  | none => if (s1.thr t).enabled then { s1.pass 2 with running := some t } else s1

/-- A hart waits and switches out. -/
def Dev.block (d : Dev) (h : Hart) (w : Wait) : Dev := d.updStn h.stn (fun s => s.block h.thr w)

/-! ### The recorder and error reports -/

/-- Slots of the recorder's input queue (R498). -/
def recSlots : Nat := 64

/-- Slots of that queue kept for classes 4 and 5 (R498). -/
def recKept : Nat := 8

/-- An event enters the recorder's input queue, or waits in its source's holding register, or is dropped (R498). -/
def Rec.offer (r : Rec) (e : RecEv) : Rec :=
  let room := if e.cls = 4 ∨ e.cls = 5 then recSlots else recSlots - recKept
  if r.queue.length < room then { r with queue := r.queue ++ [e] }
  else if (e.cls = 4 ∨ e.cls = 5) && !r.hold.any (fun x => x.src == e.src && x.inst == e.inst) then
    { r with hold := r.hold ++ [e] }
  else { r with drop := min 0xFFFFFFFF (r.drop + 1) }

/-- An event of a class is counted, and recorded but for a further event of class 1 or 2 of the same source and instance
in one tick (R486). -/
def Rec.event (r : Rec) (e : RecEv) : Rec :=
  let r1 := if 1 ≤ e.cls ∧ e.cls ≤ 5 then { r with cnt := r.cnt.set e.cls ((r.cnt.getD e.cls 0 + 1) % 2 ^ 64) } else r
  if (e.cls = 1 ∨ e.cls = 2) && r1.seen.any (· == (e.cls, e.src, e.inst)) then r1
  else
    let r2 := if e.cls = 1 ∨ e.cls = 2 then { r1 with seen := (e.cls, e.src, e.inst) :: r1.seen } else r1
    r2.offer e

/-- An event is detected: it is stamped, counted and offered to the recorder (R484, R486, R497); a class-3 event sets
RC_ESTAT.RETIRE. -/
def Dev.event (d : Dev) (src code cls inst data : Nat) (trig : Bool) : Dev :=
  { d with rc := d.rc.event { tick := d.tt.tick, ns := (d.now - d.tt.lastB) / nsU, src := src, code := code, cls := cls,
                              boots := d.rc.boots, consist := d.consist, inst := inst, data := data, trig := trig },
           retireEv := d.retireEv || decide (cls = 3) }

/-- The halt tick is placed at the instant of acceptance plus TT_HALT_LEAD, rounded up to a whole microsecond, and takes
the number one above the last fixed boundary; `fixed` is the announced boundary not yet passed, if any (R41). A halt
already pending keeps its tick. -/
def Dev.placeHalt (d : Dev) (reason : Nat) (fixed : Option (Nat × Nat)) : Dev :=
  match d.tt.halt with
  | some _ => d
  | none =>
    let at_ := ((d.now + d.tt.lead * usU + usU - 1) / usU) * usU
    let (num, t) := match fixed with
      | some (n, ft) => (n + 1, if ft = at_ then at_ + usU else at_)
      | none => (d.tt.tick + 1, if d.tt.lastB = at_ then at_ + usU else at_)
    { d with tt := { d.tt with halt := some (num, t, reason) } }

/-- A halt request: a follower forwards it to its master, in a REPORT sent at once, and does not act on it alone; the master
or a standalone device places the halt tick (R40, R41, R432). -/
def Dev.haltRequest (d : Dev) (reason : Nat) : Dev :=
  if d.tt.role = 2 then d.sendReport (some reason)
  else d.placeHalt reason (d.tt.ann.getLast?.map (fun m => (m.num, m.at_)))

/-- A contained error of the halting kind: the event is recorded and freezes the recorder, CFATAL is set, and a halt is
requested with reason REG_HALT (R489). -/
def Dev.containedHalt (d : Dev) (src code inst data : Nat) : Dev :=
  let d1 := d.event src code 4 inst data true
  { d1 with cfatal := true }.haltRequest 6

/-! ### Exceptions -/

/-- An entry to a ring: its cause and what XCAUSE, XADDR and XPC record (R91, R93). -/
structure XEntry where
  code : Nat
  int : Bool
  impr : Bool
  multi : Bool
  detail : Nat
  xaddr : Word
  xpc : Word
  target : Nat
  deriving DecidableEq, Repr

/-- XCAUSE of an entry (R91). -/
def XEntry.cause (x : XEntry) : Word :=
  word (b2n x.int * 2 ^ 63 + b2n x.impr * 2 ^ 62 + b2n x.multi * 2 ^ 61 + (x.detail % 256) * 256 + x.code % 64)

/-- DEL of a cause code (R94): two bits of XDEL0 or XDEL1; the field of MCHK reads 0. -/
def Station.del (s : Station) (code : Nat) : Nat :=
  if code = 0x12 then 0
  else if code < 32 then wfld s.xdel0 (2 * code + 1) (2 * code)
  else wfld s.xdel1 (2 * (code - 32) + 1) (2 * (code - 32))

/-- The registers of a thread after an entry to ring T, with its PC at the given address (R95 steps 2 to 5). -/
def Thread.enter (t : Thread) (cycle : Nat) (x : XEntry) (pc : Word) : Thread :=
  let T := x.target
  let saved : Word := word (t.status.toNat + t.lflags.toNat * 2 ^ 16)
  let st := setFld (setBit (setBit t.status.toNat (12 + T) true) 2 false) 1 0 T
  let t1 := { t with
    xpc := t.xpc.set T x.xpc, xst := t.xst.set T saved, xcause := t.xcause.set T x.cause,
    xaddr := t.xaddr.set T x.xaddr, xsp := t.xsp.set T t.sp, lflags := t.lflags &&& 4#3,
    status := BitVec.ofNat 16 st, nointFrom := cycle, pc := pc }
  if T < t.ring then t1.setG 31 (t.gateSp.getD T 0) else t1

/-- Where the handler of an entry starts (R91, R95, R103). -/
def Station.vector (s : Station) (x : XEntry) : Word :=
  if x.code = 0x1F then s.gatePc.getD x.target 0 + word (64 * x.detail)
  else s.xvec.getD x.target 0 + word (64 * x.code)

/-- A station locks up: it stops, freezes its state, asserts LOCKUP_N and writes a recorder entry, a contained error of
the halting kind (R100, R489). Its engine's ballast level then only falls (R195). -/
def Dev.lockup (d : Dev) (h : Hart) (ring occupied new : Nat) : Dev :=
  (d.updStn h.stn (fun s => { s with locked := true, running := none, eng := { s.eng with falling := true } })).containedHalt
    1 1 h.stn (h.thr + 256 * ring + 65536 * occupied + 16777216 * new)

/-- Entry of a hart (R95, R96): it waits for the thread's mq writes to land, then enters, and costs 2 further cycles. An
entry that finds its shadow set occupied locks the station up (R99, R100). -/
def Dev.enter (d : Dev) (h : Hart) (x : XEntry) : Dev :=
  let t := d.thr h
  if t.occ x.target then d.lockup h x.target (wfld (t.xcause.getD x.target 0) 5 0) x.code
  else d.updStn h.stn (fun s =>
    let s1 := s.pass ((s.thr h.thr).lastLanding - s.cycle)
    (s1.updThr h.thr (fun u => { (u.enter s1.cycle x (s1.vector x)) with wait := .ready })).pass 2)

/-- A precise exception of the instruction at PC, whose issue takes a cycle (R93, R94, R96). -/
def Dev.exc (d : Dev) (h : Hart) (code : Nat) (xaddr : Word) (detail : Nat := 0) : Dev :=
  let t := d.thr h
  let x : XEntry :=
    { code := code, int := false, impr := false, multi := false, detail := detail, xaddr := xaddr, xpc := t.pc,
      target := min t.ring ((d.stn h.stn).del code) }
  (d.pass h.stn 1).enter h x

/-- ILLEGAL, with the instruction's bits (R91, R93). -/
def Dev.illegal (d : Dev) (h : Hart) (bits : Word) : Dev := d.exc h 1 bits

/-- PRIV, with the instruction's bits (R91, R93). -/
def Dev.priv (d : Dev) (h : Hart) (bits : Word) : Dev := d.exc h 2 bits

/-- An imprecise exception is raised on a thread: it becomes pending, or marks the pending one MULTI (R107). A pending
one makes a switched-out thread ready. -/
def pendMore (old : Option PendX) (new : PendX) : Option PendX :=
  match old with
  | none => some new
  | some p => some { p with multi := true }

/-- The thread waits at an instruction boundary, where an interrupt or imprecise exception may be taken before its
instruction (R107, R154, R161). -/
def Wait.atBoundary : Wait → Bool
  | .score | .shape _ | .sync _ | .tacq _ | .wfi | .slot | .fence => true
  | _ => false

/-- The station with a thread that waits at a boundary made ready. -/
def Station.wakeBoundary (s : Station) (t : Fin 4) : Station :=
  if (s.thr t).wait.atBoundary then s.wakeUp t else s

/-- MCHK on a thread (R105, R106): the target is ring 0. -/
def Dev.raiseMchk (d : Dev) (n : Nat) (t : Fin 4) (xaddr : Word) : Dev :=
  d.updStn n (fun s =>
    let p : PendX := { xaddr := xaddr, detail := 0, target := 0, multi := false, order := s.xorder, elem := none }
    ({ s with xorder := s.xorder + 1 }.updThr t (fun x => { x with mchk := pendMore x.mchk p })).wakeBoundary t)

/-- An imprecise ME_CMD on a thread (R281): the target ring follows the ring latched at the MERUN (R94). -/
def Dev.raiseMeCmd (d : Dev) (n : Nat) (t : Fin 4) (xaddr : Word) (ring : Nat) : Dev :=
  d.updStn n (fun s =>
    let p : PendX := { xaddr := xaddr, detail := 0, target := min ring (s.del 0x11), multi := false, order := s.xorder,
                       elem := none }
    ({ s with xorder := s.xorder + 1 }.updThr t (fun x => { x with mecmd := pendMore x.mecmd p })).wakeBoundary t)

/-- ARITH on a thread with the enabled events of a raising instruction, precise or imprecise as it issued (R92, R106,
R107). No enabled event raises nothing. -/
def Dev.raiseArith (d : Dev) (n : Nat) (t : Fin 4) (en : BitVec 5) (addr : Word) (ring : Nat) (precise : Bool)
    (elem : Option Nat) : Dev :=
  if en = 0 then d
  else d.updStn n (fun s =>
    let p : PendX := { xaddr := addr, detail := en.toNat, target := min ring (s.del 0x10), multi := false,
                       order := s.xorder, elem := elem }
    ({ s with xorder := s.xorder + 1 }.updThr t (fun x =>
      if precise then { x with parith := pendMore x.parith p } else { x with arith := pendMore x.arith p })).wakeBoundary t)

/-- The interrupts of a thread that are pending and unmasked. -/
def Thread.irqs (t : Thread) : BitVec 4 := t.ipend &&& t.imask

/-- Whether interrupt i of a thread is deliverable at a boundary (R104). -/
def Station.irqOk (s : Station) (t : Thread) (i : Nat) : Bool :=
  let T := s.del (32 + i)
  t.irqs.getLsbD i && decide (T ≤ t.ring) && (decide (T < t.ring) || t.ie) && !t.occ T

/-- The lowest deliverable interrupt of a thread (R105). -/
def Station.irq? (s : Station) (t : Thread) : Option Nat := (List.range 4).find? (s.irqOk t)

/-- The oldest deliverable imprecise ARITH or ME_CMD of a thread (R99, R105): true for the ARITH. -/
def Thread.impr? (t : Thread) : Option (Bool × PendX) :=
  let a := t.arith.filter (fun p => !t.occ p.target)
  let m := t.mecmd.filter (fun p => !t.occ p.target)
  match a, m with
  | some p, some q => if p.order ≤ q.order then some (true, p) else some (false, q)
  | some p, none => some (true, p)
  | none, some q => some (false, q)
  | none, none => none

/-- The entry of a pending exception at the boundary before the instruction at PC. -/
def PendX.entry (p : PendX) (code : Nat) (impr : Bool) (pc : Word) : XEntry :=
  { code := code, int := false, impr := impr, multi := p.multi, detail := p.detail, xaddr := p.xaddr, xpc := pc,
    target := p.target }

/-- MCHK is taken. -/
def Dev.takeMchk (d : Dev) (h : Hart) (p : PendX) : Dev :=
  (d.updThr h (fun t => { t with mchk := none })).enter h (p.entry 0x12 true (d.thr h).pc)

/-- VU_FAULT_ELEM after an ARITH entry of a vector instruction (R128, R132). -/
def Thread.faultElem (p : PendX) (t : Thread) : Thread :=
  match p.elem with
  | some i => { t with vfault := BitVec.ofNat 16 i }
  | none => t

/-- A precise ARITH is taken (R93, R108). An entry that locks the station up writes no register. -/
def Dev.takeParith (d : Dev) (h : Hart) (p : PendX) : Dev :=
  let d1 := (d.updThr h (fun t => { t with parith := none })).enter h (p.entry 0x10 false (d.thr h).pc)
  if (d.thr h).occ p.target then d1 else d1.updThr h (Thread.faultElem p)

/-- An imprecise ARITH (or ME_CMD) is taken. -/
def Dev.takeImpr (d : Dev) (h : Hart) (ar : Bool) (p : PendX) : Dev :=
  ((d.updThr h (fun t => if ar then { t with arith := none } else { t with mecmd := none })).enter h
    (p.entry (if ar then 0x10 else 0x11) true (d.thr h).pc)).updThr h (Thread.faultElem p)

/-- Interrupt i is taken (R93, R94, R104). -/
def Dev.takeIrq (d : Dev) (h : Hart) (i : Nat) : Dev :=
  d.enter h { code := 32 + i, int := true, impr := false, multi := false, detail := 0, xaddr := 0, xpc := (d.thr h).pc,
              target := (d.stn h.stn).del (32 + i) }

/-- What an instruction boundary of a hart takes before the next instruction, in the order of precedence of R105; none
where the next instruction issues. -/
def Dev.boundary (d : Dev) (h : Hart) : Option Dev :=
  let t := d.thr h
  match t.mchk with
  | some p => some (d.takeMchk h p)
  | none => match t.parith with
    | some p => some (d.takeParith h p)
    | none => match t.impr? with
      | some (ar, p) => some (d.takeImpr h ar p)
      | none => (d.stn h.stn).irq? t |>.map (d.takeIrq h)

/-- XRET from ring c (R97). -/
def Thread.xret (t : Thread) (cycle : Nat) : Thread :=
  let c := t.ring
  let x := (t.xst.getD c 0).toNat
  let st := setBit ((t.status.toNat / 4096) * 4096 + x % 4096) (12 + c) false
  (({ t with pc := t.xpc.getD c 0, lflags := BitVec.ofNat 3 (x >>> 16) }.setG 31 (t.xsp.getD c 0))).setStatus cycle
    (BitVec.ofNat 16 st)

/-! ### Completion of an instruction -/

/-- The hardware loop check of R81 on one loop: where the instruction at PC is the active loop's last, the loop continues
at LHEAD (and the PC is given) or ends. -/
def Thread.loopEnd (n : Nat) (t : Thread) : Thread × Option Word :=
  if t.act n && t.ltail.getD n 0 == t.pc then
    if (t.lrem.getD n 0).toNat > 1 then
      ({ t with lrem := t.lrem.set n (t.lrem.getD n 0 - 1) }, some (t.lhead.getD n 0))
    else ({ t with lrem := t.lrem.set n 0, lflags := BitVec.ofNat 3 (setBit t.lflags.toNat n false) }, none)
  else (t, none)

/-- The inner loop (R80: ORDER says which, where both are active). -/
def Thread.inner (t : Thread) : Nat := if t.lflags.getLsbD 2 then 1 else 0

/-- The next instruction's address after the instruction at PC completes without a control transfer (R81): the inner loop
is checked first, the outer one only if the inner falls through. -/
def Thread.advance (len : Nat) (t : Thread) : Thread :=
  let i := t.inner
  match t.loopEnd i with
  | (t1, some p) => { t1 with pc := p }
  | (t1, none) => match t1.loopEnd (1 - i) with
    | (t2, some p) => { t2 with pc := p }
    | (t2, none) => { t2 with pc := t.pc + word len }

/-- The instruction at PC, len bytes long, completes. -/
def Thread.done (len : Nat) (t : Thread) : Thread := { t.advance len with instret := t.instret + 1 }

/-- A control transfer to a target: a taken branch or jump from inside an active loop to outside it abandons the loop
(R82). -/
def Thread.abandon (target : Word) (n : Nat) (t : Thread) : Thread :=
  let inside (a : Word) : Bool := decide ((t.lhead.getD n 0).toNat ≤ a.toNat) && decide (a.toNat ≤ (t.ltail.getD n 0).toNat)
  if t.act n && inside t.pc && !inside target then { t with lflags := BitVec.ofNat 3 (setBit t.lflags.toNat n false) } else t

/-- A taken branch or jump, which may abandon loops, or a call or return, which does not (R82). -/
def Thread.jump (target : Word) (abandons : Bool) (t : Thread) : Thread :=
  let t1 := if abandons then (t.abandon target 0).abandon target 1 else t
  { t1 with pc := target, instret := t.instret + 1 }

/-- The instruction of a hart completes with a change to its thread, after c cycles. -/
def Dev.finish (d : Dev) (h : Hart) (len c : Nat) (f : Thread → Thread) : Dev :=
  d.updStn h.stn (fun s => (s.updThr h.thr (fun t => (f t).done len)).pass c)

/-- The instruction of a hart completes with a control transfer, whose next issue slot is empty (R64). -/
def Dev.transfer (d : Dev) (h : Hart) (target : Word) (abandons : Bool) (f : Thread → Thread) : Dev :=
  d.updStn h.stn (fun s => (s.updThr h.thr (fun t => (f t).jump target abandons)).pass 2)

/-! ### Issue -/

/-- The instruction of a hart can issue: its station runs and it is the running, ready thread (R51). -/
def Dev.canIssue (d : Dev) (h : Hart) : Bool :=
  d.usable h.stn && (d.stn h.stn).live && (d.stn h.stn).running == some h.thr && (d.thr h).isReady

end Sys2Proof.Machine
end

