-- ==== Sys2Proof/Machine/Clock.lean ====
section
/-! DEFINITION. What one station cycle does with no command waiting: time passes (log entry 6). -/

namespace Sys2Proof.Machine

/-- One station cycle passes: the instant advances by 20/17 ns and CYCLE of every station that runs by one (R21, R50). -/
def Dev.idle (d : Dev) : Dev :=
  { d with now := d.now + cycU, stns := d.stns.mapVal (fun _ s => if s.live then s.pass 1 else s) }

end Sys2Proof.Machine
end

