-- ==== Sys2Proof/Machine/Numbers.lean ====
section
/-! DEFINITION. Number formats and numeric results: the formats of R205 and R209, exact dyadic arithmetic (R214), the one
rounding of each format and mode (R215, R216, R220 to R223, R77), and the operations built on them. -/

namespace Sys2Proof.Machine

/-- A dyadic number: m × 2^e, exact. -/
structure Dy where
  m : Int
  e : Int
  deriving DecidableEq, Repr

/-- Zero. -/
def Dy.zero : Dy := ⟨0, 0⟩

/-- 2^k for a nonnegative integer k, as an integer (1 for a negative k). -/
def pow2 (k : Int) : Int := (2 : Int) ^ k.toNat

/-- The exact sum. -/
def Dy.add (a b : Dy) : Dy :=
  let e := min a.e b.e
  ⟨a.m * pow2 (a.e - e) + b.m * pow2 (b.e - e), e⟩

/-- The exact product. -/
def Dy.mul (a b : Dy) : Dy := ⟨a.m * b.m, a.e + b.e⟩

/-- The negation. -/
def Dy.neg (a : Dy) : Dy := ⟨-a.m, a.e⟩

/-- The magnitude. -/
def Dy.abs (a : Dy) : Dy := ⟨(a.m.natAbs : Int), a.e⟩

/-- The exact difference. -/
def Dy.sub (a b : Dy) : Dy := a.add b.neg

/-- Whether a < b. -/
def Dy.lt (a b : Dy) : Bool := decide ((a.sub b).m < 0)

/-- Whether a ≤ b. -/
def Dy.le (a b : Dy) : Bool := decide ((a.sub b).m ≤ 0)

/-- Whether the number is zero. -/
def Dy.isZero (a : Dy) : Bool := decide (a.m = 0)

/-- Whether two dyadic numbers are equal as numbers. -/
def Dy.same (a b : Dy) : Bool := (a.sub b).isZero

/-- ⌊log2 |a|⌋ of a nonzero number. -/
def Dy.log2 (a : Dy) : Int := (a.m.natAbs.log2 : Int) + a.e

/-- The number times 2^k. -/
def Dy.scale (a : Dy) (k : Int) : Dy := ⟨a.m, a.e + k⟩

/-- A floating-point value: a NaN (signalling or quiet), an infinity, or a finite number with its sign (the sign
matters for zero). -/
inductive FV where
  | nan (sig : Bool)
  | inf (neg : Bool)
  | fin (neg : Bool) (d : Dy)
  deriving DecidableEq, Repr

/-- A floating-point format (R205, R206). -/
structure Fmt where
  /-- width in bits -/
  w : Nat
  /-- exponent bits -/
  eb : Nat
  /-- fraction bits -/
  fb : Nat
  /-- bias -/
  bias : Nat
  /-- the format has infinities (and IEEE NaNs) -/
  ieee : Bool
  /-- the largest finite value's bits, without sign -/
  maxFin : Nat
  /-- the canonical NaN, if the format has one -/
  nan : Option Nat
  deriving DecidableEq, Repr

/-- FP64. -/
def fp64 : Fmt := ⟨64, 11, 52, 1023, true, 0x7FEFFFFFFFFFFFFF, some 0x7FF8000000000000⟩
/-- FP32. -/
def fp32 : Fmt := ⟨32, 8, 23, 127, true, 0x7F7FFFFF, some 0x7FC00000⟩
/-- FP16. -/
def fp16 : Fmt := ⟨16, 5, 10, 15, true, 0x7BFF, some 0x7E00⟩
/-- BF16. -/
def bf16 : Fmt := ⟨16, 8, 7, 127, true, 0x7F7F, some 0x7FC0⟩
/-- FP8 E5M2. -/
def e5m2 : Fmt := ⟨8, 5, 2, 15, true, 0x7B, some 0x7E⟩
/-- FP8 E4M3. -/
def e4m3 : Fmt := ⟨8, 4, 3, 7, false, 0x7E, some 0x7F⟩
/-- FP6 E3M2. -/
def e3m2 : Fmt := ⟨6, 3, 2, 3, false, 0x1F, none⟩
/-- FP6 E2M3. -/
def e2m3 : Fmt := ⟨6, 2, 3, 1, false, 0x1F, none⟩
/-- FP4 E2M1. -/
def e2m1 : Fmt := ⟨4, 2, 1, 1, false, 0x7, none⟩

/-- The value of a bit pattern of a format (R205, R207). -/
def Fmt.decode (f : Fmt) (x : Nat) : FV :=
  let neg := x.testBit (f.w - 1)
  let mag := x % 2 ^ (f.w - 1)
  let ef := mag >>> f.fb
  let fr := mag % 2 ^ f.fb
  if f.ieee && ef == 2 ^ f.eb - 1 then
    if fr = 0 then .inf neg else .nan (!fr.testBit (f.fb - 1))
  else if !f.ieee && some mag == f.nan then .nan false
  else
    let m : Int := if ef = 0 then fr else (2 ^ f.fb + fr : Nat)
    let e : Int := (if ef = 0 then (1 : Int) else ef) - f.bias - f.fb
    .fin neg ⟨if neg then -m else m, e⟩

/-- A rounding direction: the four IEEE 754 directions of R222 and the stochastic one with its 32-bit source u. -/
inductive Rnd where
  | rne
  | rtz
  | rdn
  | rup
  | sto (u : Nat)
  deriving DecidableEq, Repr

/-- Whether a magnitude k + rem / 2^d (0 ≤ rem < 2^d) rounds up to k + 1 in the given direction, for a number of the
given sign (R222, R223). -/
def roundsUp (r : Rnd) (neg : Bool) (k rem d : Nat) : Bool :=
  match r with
  | .rne => decide (2 * rem > 2 ^ d) || (decide (2 * rem = 2 ^ d) && k % 2 == 1)
  | .rtz => false
  | .rdn => neg && decide (rem ≠ 0)
  | .rup => !neg && decide (rem ≠ 0)
  | .sto u => decide ((rem * 2 ^ 32) / 2 ^ d + u ≥ 2 ^ 32)

/-- A nonzero finite number rounded to a format without regard to its range: the bits of the magnitude (which may exceed
the largest finite value's), and whether the rounding was inexact (R215, R223). -/
def Fmt.roundMag (f : Fmt) (r : Rnd) (y : Dy) : Nat × Bool :=
  let neg := decide (y.m < 0)
  let m := y.m.natAbs
  let q : Int := max y.log2 (1 - (f.bias : Int)) - f.fb
  let (k, up, ix) : Nat × Bool × Bool :=
    if y.e ≥ q then (m * 2 ^ (y.e - q).toNat, false, false)
    else
      let d := (q - y.e).toNat
      let k := m >>> d
      let rem := m % 2 ^ d
      (k, roundsUp r neg k rem d, decide (rem ≠ 0))
  (((q + f.fb + f.bias - 1).toNat) * 2 ^ f.fb + (k + b2n up), ix)

/-- The bits of a magnitude with a sign. -/
def Fmt.withSign (f : Fmt) (neg : Bool) (mag : Nat) : Nat := mag + (if neg then 2 ^ (f.w - 1) else 0)

/-- The bits of infinity. -/
def Fmt.infBits (f : Fmt) (neg : Bool) : Nat := f.withSign neg ((2 ^ f.eb - 1) * 2 ^ f.fb)

/-- The canonical NaN of a format (0 where it has none). -/
def Fmt.nanBits (f : Fmt) : Nat := f.nan.getD 0

/-- The smallest normal number's bits. -/
def Fmt.minNormal (f : Fmt) : Nat := 2 ^ f.fb

/-- The events of a rounded, in-range result: UF and NX, tininess after rounding (R216, R220). -/
def Fmt.rangeEv (f : Fmt) (mag : Nat) (ix : Bool) : Ev :=
  { Ev.none with uf := ix && decide (mag < f.minNormal), nx := ix }

/-- The result of a magnitude beyond the largest finite value in an IEEE format: infinity or the largest finite value,
by direction, with OF and NX (R216, R220). -/
def Fmt.overflow (f : Fmt) (r : Rnd) (neg : Bool) (sat : Bool) : Nat :=
  let toInf := match r with
    | .rne => true
    | .rtz => false
    | .rdn => neg
    | .rup => !neg
    | .sto _ => true
  if sat || !toInf || !f.ieee then f.withSign neg f.maxFin else f.infBits neg

/-- An exact finite number rounded once to a format, with its events. `sat` is the saturate-finite overflow mode
(OVM = 1); `zneg` is the sign of an exact zero (R215, R216, R220). Under the stochastic mode an overflow goes to the
largest finite value where the number is rounded down at that value's last place, and to infinity where it is rounded
up. -/
def Fmt.round (f : Fmt) (r : Rnd) (sat : Bool) (zneg : Bool) (y : Dy) : Nat × Ev :=
  if y.isZero then (f.withSign zneg 0, Ev.none)
  else
    let neg := decide (y.m < 0)
    let (mag, ix) := f.roundMag r y
    if mag > f.maxFin then
      let down := match r with
        | .sto _ => decide ((f.roundMag .rtz y).1 = mag)
        | _ => false
      ((if down then f.withSign neg f.maxFin else f.overflow r neg sat), { Ev.none with of := true, nx := true })
    else (f.withSign neg mag, f.rangeEv mag ix)

/-- The bits of a value in a format, for a value the format holds (used for constants and copies). -/
def Fmt.ofVal (f : Fmt) (v : FV) : Nat :=
  match v with
  | .nan _ => f.nanBits
  | .inf neg => if f.ieee then f.infBits neg else f.withSign neg f.maxFin
  | .fin neg d => (f.round .rne false neg d).1

/-- Whether a value is a NaN. -/
def FV.isNan : FV → Bool
  | .nan _ => true
  | _ => false

/-- Whether a value is a signalling NaN. -/
def FV.isSnan : FV → Bool
  | .nan s => s
  | _ => false

/-- Whether a value is an infinity. -/
def FV.isInf : FV → Bool
  | .inf _ => true
  | _ => false

/-- Whether a value is a zero. -/
def FV.isZero : FV → Bool
  | .fin _ d => d.isZero
  | _ => false

/-- The sign of a value (false for a NaN). -/
def FV.sign : FV → Bool
  | .nan _ => false
  | .inf n => n
  | .fin n _ => n

/-- The value with its sign inverted. -/
def FV.neg : FV → FV
  | .nan s => .nan s
  | .inf n => .inf (!n)
  | .fin n d => .fin (!n) d.neg

/-- The dyadic number of a finite value (zero otherwise). -/
def FV.dy : FV → Dy
  | .fin _ d => d
  | _ => Dy.zero

/-- The exact product of two values, with the invalid event of 0 × ∞ and of a signalling NaN (R216, IEEE 754). -/
def FV.mul (a b : FV) : FV × Ev :=
  if a.isNan || b.isNan then (.nan false, if a.isSnan || b.isSnan then Ev.inv else Ev.none)
  else if (a.isZero && b.isInf) || (a.isInf && b.isZero) then (.nan false, Ev.inv)
  else
    let n := a.sign != b.sign
    if a.isInf || b.isInf then (.inf n, Ev.none) else (.fin n (a.dy.mul b.dy), Ev.none)

/-- The sign of an exact zero sum: −0 if both terms are −0, or, rounding toward −∞, if their signs differ (IEEE 754). -/
def zeroSumSign (r : Rnd) (a b : Bool) : Bool := if a == b then a else r == .rdn

/-- The exact sum of two values (IEEE 754), with the rounding direction that decides the sign of an exact zero. -/
def FV.add (r : Rnd) (a b : FV) : FV × Ev :=
  if a.isNan || b.isNan then (.nan false, if a.isSnan || b.isSnan then Ev.inv else Ev.none)
  else match a, b with
    | .inf x, .inf y => if x = y then (.inf x, Ev.none) else (.nan false, Ev.inv)
    | .inf x, _ => (.inf x, Ev.none)
    | _, .inf y => (.inf y, Ev.none)
    | _, _ =>
      let d := a.dy.add b.dy
      let n := if d.isZero then
          (if a.isZero && b.isZero then zeroSumSign r a.sign b.sign else r == .rdn)
        else decide (d.m < 0)
      (.fin n d, Ev.none)

/-- A value rounded once to a format, with the events of the rounding joined to those that formed it (R127, R216). -/
def Fmt.fromVal (f : Fmt) (r : Rnd) (sat : Bool) (v : FV × Ev) : Nat × Ev :=
  match v.1 with
  | .nan _ => (f.nanBits, v.2)
  | .inf n => (f.infBits n, v.2)
  | .fin n d => let (b, e) := f.round r sat n d; (b, e.or v.2)

/-- The integer square root by bits, from bit k down (structural). -/
def isqrtGo (x : Nat) : Nat → Nat → Nat
  | 0, acc => if (acc + 1) * (acc + 1) ≤ x then acc + 1 else acc
  | k + 1, acc => let t := acc + 2 ^ (k + 1); isqrtGo x k (if t * t ≤ x then t else acc)

/-- ⌊√x⌋. -/
def isqrt (x : Nat) : Nat := isqrtGo x (x.log2 / 2 + 1) 0

/-- The quotient of two nonzero dyadic numbers, exact in its leading 130 bits with a sticky low bit, so that every
rounding of at most 64 bits is the rounding of the exact quotient. -/
def Dy.divApprox (a b : Dy) : Dy :=
  let sh := 130 + b.m.natAbs.log2
  let n := a.m.natAbs * 2 ^ sh
  let q := n / b.m.natAbs
  let st := if n % b.m.natAbs = 0 then 0 else 1
  let s : Int := if decide (a.m < 0) != decide (b.m < 0) then -1 else 1
  ⟨s * ((2 * q + st : Nat) : Int), a.e - b.e - sh - 1⟩

/-- The square root of a positive dyadic number, exact in its leading bits with a sticky low bit. -/
def Dy.sqrtApprox (a : Dy) : Dy :=
  let odd := decide (a.e % 2 ≠ 0)
  let m := a.m.natAbs * (if odd then 2 else 1) * 2 ^ 260
  let e := (if odd then a.e - 1 else a.e) - 260
  let q := isqrt m
  let st := if q * q = m then 0 else 1
  ⟨((2 * q + st : Nat) : Int), e / 2 - 1⟩

/-- IEEE 754 division, before rounding. -/
def FV.div (a b : FV) : FV × Ev :=
  if a.isNan || b.isNan then (.nan false, if a.isSnan || b.isSnan then Ev.inv else Ev.none)
  else
    let n := a.sign != b.sign
    if (a.isInf && b.isInf) || (a.isZero && b.isZero) then (.nan false, Ev.inv)
    else if a.isInf then (.inf n, Ev.none)
    else if b.isInf then (.fin n Dy.zero, Ev.none)
    else if b.isZero then (.inf n, { Ev.none with dz := true })
    else if a.isZero then (.fin n Dy.zero, Ev.none)
    else (.fin n (a.dy.divApprox b.dy), Ev.none)

/-- IEEE 754 square root, before rounding. -/
def FV.sqrt (a : FV) : FV × Ev :=
  match a with
  | .nan s => (.nan false, if s then Ev.inv else Ev.none)
  | .inf n => if n then (.nan false, Ev.inv) else (.inf false, Ev.none)
  | .fin n d => if d.isZero then (.fin n Dy.zero, Ev.none) else if n then (.nan false, Ev.inv)
    else (.fin false d.sqrtApprox, Ev.none)

/-- IEEE 754 comparison of two values that are not NaN: whether a < b (−0 = +0). -/
def FV.ltNum (a b : FV) : Bool :=
  match a, b with
  | .inf x, .inf y => x && !y
  | .inf x, _ => x
  | _, .inf y => !y
  | _, _ => a.dy.lt b.dy

/-- IEEE 754 equality of two values that are not NaN (−0 = +0). -/
def FV.eqNum (a b : FV) : Bool :=
  match a, b with
  | .inf x, .inf y => x == y
  | .inf _, _ => false
  | _, .inf _ => false
  | _, _ => a.dy.same b.dy

/-- IEEE 754-2019 minimum: −0 is less than +0, a NaN operand gives NaN (R127). -/
def FV.min (a b : FV) : FV × Ev :=
  if a.isNan || b.isNan then (.nan false, if a.isSnan || b.isSnan then Ev.inv else Ev.none)
  else if a.ltNum b then (a, Ev.none) else if b.ltNum a then (b, Ev.none)
  else if a.sign then (a, Ev.none) else (b, Ev.none)

/-- IEEE 754-2019 maximum (R127). -/
def FV.max (a b : FV) : FV × Ev :=
  if a.isNan || b.isNan then (.nan false, if a.isSnan || b.isSnan then Ev.inv else Ev.none)
  else if a.ltNum b then (b, Ev.none) else if b.ltNum a then (a, Ev.none)
  else if a.sign then (b, Ev.none) else (a, Ev.none)

/-- One LFSR step of R77. -/
def lfsrStep (s : Nat) : Nat := if s % 2 = 1 then (s >>> 1) ^^^ 0x80200003 else s >>> 1

/-- n LFSR steps. -/
def lfsrSteps : Nat → Nat → Nat
  | 0, s => s
  | n + 1, s => lfsrSteps n (lfsrStep s)

/-- The 32 steps of R77 that follow a stochastic rounding. -/
def lfsr32 (s : Nat) : Nat := lfsrSteps 32 s

/-- A fixed-point rounding mode (R77); the stochastic one carries the source's state. -/
inductive QRnd where
  | trunc
  | up
  | even
  | sto (state : Nat)
  deriving DecidableEq, Repr

/-- An integer with its d low bits discarded, rounded by the mode (R77). -/
def qround (r : QRnd) (x : Int) (d : Nat) : Int :=
  if d = 0 then x else
    let k := x / (2 ^ d : Int)
    let rem := (x % (2 ^ d : Int)).toNat
    match r with
    | .trunc => k
    | .up => (x + 2 ^ (d - 1)) / (2 ^ d : Int)
    | .even => if 2 * rem > 2 ^ d ∨ (2 * rem = 2 ^ d ∧ k % 2 ≠ 0) then k + 1 else k
    | .sto st =>
      let m := Nat.min d 32
      let f := rem / 2 ^ (d - m)
      if f + st % 2 ^ m ≥ 2 ^ m then k + 1 else k

/-- An exact dyadic number rounded to an integer number of units of 2^−fr in the IEEE directions or by the stochastic
rule of R77 (R222, R223), and whether it was inexact. -/
def Dy.toUnits (r : Rnd) (y : Dy) (fr : Int) : Int × Bool :=
  let e := y.e + fr
  if e ≥ 0 then (y.m * pow2 e, false)
  else
    let d := (-e).toNat
    let neg := decide (y.m < 0)
    let k := y.m.natAbs >>> d
    let rem := y.m.natAbs % 2 ^ d
    match r with
    | .sto u => (qround (.sto u) y.m d, decide (rem ≠ 0))
    | _ =>
      let k' : Int := (k + b2n (roundsUp r neg k rem d) : Nat)
      (if neg then -k' else k', decide (rem ≠ 0))

/-- An integer clamped to a range, and whether it was outside. -/
def clampInt (lo hi x : Int) : Int × Bool := if x < lo then (lo, true) else if x > hi then (hi, true) else (x, false)

/-- The E8M0 scale's exponent (none for the NaN code 0xFF) (R205, R211). -/
def e8m0 (x : Nat) : Option Int := if x % 256 = 255 then none else some ((x % 256 : Nat) - 127)

/-- The maximum magnitude exponent emax of a block-scaled element format, by tile format code (R210). -/
def blockEmax (fmt : Nat) : Int :=
  if fmt = 5 then 8 else if fmt = 6 then 15 else if fmt = 7 then 4 else if fmt = 8 then 2 else if fmt = 9 then 2 else 0

/-- The floating-point format of a tile format code (R152), if it names one. -/
def tileFmt? (c : Nat) : Option Fmt :=
  if c = 1 then some fp64 else if c = 2 then some fp32 else if c = 3 then some fp16 else if c = 4 then some bf16
  else if c = 5 then some e4m3 else if c = 6 then some e5m2 else if c = 7 then some e3m2 else if c = 8 then some e2m3
  else if c = 9 then some e2m1 else none

/-- The element width in bits of a tile format code (R152; 0 for the unconfigured and reserved codes). -/
def tileWidth (c : Nat) : Nat :=
  if c = 1 then 64 else if c = 2 then 32 else if c = 3 ∨ c = 4 then 16 else if c = 5 ∨ c = 6 then 8
  else if c = 7 ∨ c = 8 then 6 else if c = 9 then 4 else if c = 10 ∨ c = 11 then 8 else if c = 12 then 32
  else if c = 13 then 16 else if c = 14 then 32 else if c = 15 then 8 else 0

/-- The floating-point format of a vector element type code (R118), if it names one. -/
def vecFmt? (et : Nat) : Option Fmt :=
  if et = 8 then some fp64 else if et = 9 then some fp32 else if et = 10 then some fp16 else if et = 11 then some bf16
  else if et = 12 then some e4m3 else if et = 13 then some e5m2 else none

/-- The element width in bits of a vector element type code (R118; 0 for the reserved codes). -/
def etWidth (et : Nat) : Nat :=
  if et = 0 ∨ et = 4 ∨ et = 12 ∨ et = 13 then 8 else if et = 1 ∨ et = 5 ∨ et = 10 ∨ et = 11 ∨ et = 14 then 16
  else if et = 2 ∨ et = 6 ∨ et = 9 ∨ et = 15 then 32 else if et = 3 ∨ et = 7 ∨ et = 8 ∨ et = 16 then 64 else 0

/-- Whether a vector element type is an unsigned integer type. -/
def etUnsigned (et : Nat) : Bool := decide (4 ≤ et) && decide (et ≤ 7)

/-- Whether a vector element type is an integer type. -/
def etInt (et : Nat) : Bool := decide (et ≤ 7)

/-- Whether a vector element type is a Q type. -/
def etQ (et : Nat) : Bool := decide (14 ≤ et) && decide (et ≤ 16)

/-- The fraction bits of a Q type (R209). -/
def etQFrac (et : Nat) : Nat := if et = 14 then 15 else if et = 15 then 31 else 63

/-- A conversion of an exact value to an unscaled output class of R220 for a floating-point format: `ovm` is the
overflow mode of the IEEE row; E4M3, FP6 and FP4 follow their own rows. -/
def Fmt.convert (f : Fmt) (r : Rnd) (ovm : Bool) (v : FV × Ev) : Nat × Ev :=
  if f.ieee then f.fromVal r ovm v
  else match v.1 with
    | .nan _ => match f.nan with
      | some n => (n, v.2)
      | none => (0, v.2.or Ev.inv)
    | .inf n => (f.withSign n f.maxFin, v.2.or Ev.inv)
    | .fin n d => let (b, e) := f.round r true n d; (b, e.or v.2)

/-- A conversion of an exact value to a two's-complement or unsigned integer of w bits in units of 2^−fr (R220: NaN gives
0 with NV, an infinity or a value out of range the nearest extreme with NV). The range test is on the rounded value. -/
def convertInt (r : Rnd) (w fr : Nat) (uns : Bool) (v : FV × Ev) : Nat × Ev × Bool :=
  let lo : Int := if uns then 0 else -(2 ^ (w - 1))
  let hi : Int := if uns then 2 ^ w - 1 else 2 ^ (w - 1) - 1
  match v.1 with
  | .nan _ => (0, v.2.or Ev.inv, false)
  | .inf n => (wrap w (if n then lo else hi), v.2.or Ev.inv, true)
  | .fin _ d =>
    let (k, ix) := d.toUnits r fr
    let (c, out) := clampInt lo hi k
    if out then (wrap w c, v.2.or Ev.inv, true) else (wrap w c, v.2.or { Ev.none with nx := ix }, false)

end Sys2Proof.Machine
end

