-- ==== Sys2Proof/Machine/Blocks.lean ====
section
/-! DEFINITION. Block scales (R210 to R213), for the vector unit and the drain path. -/

namespace Sys2Proof.Machine

/-- The value of a block-scaled element of a tile format under a scale code; 0xFF makes it a quiet NaN, which raises no
event (R211). -/
def blockVal (fmt E x : Nat) : FV :=
  match e8m0 E with
  | none => .nan false
  | some k =>
    match tileFmt? fmt with
    | some F => (match F.decode x with
      | .fin n d => .fin n (d.scale k)
      | v => v)
    | none =>
      let i : Int := if fmt = 11 then ((x % 256 : Nat) : Int) else sval 8 x
      .fin (decide (i < 0)) ⟨i, k - 6⟩

/-- The larger of two magnitudes. -/
def Dy.maxAbs (a b : Dy) : Dy := if a.abs.lt b.abs then b.abs else a.abs

/-- The scale code of a block (R213 steps 1 to 3). -/
def blockScale (fmt : Nat) (vals : List FV) : Nat :=
  if vals.any (fun v => v.isNan || v.isInf) then 0xFF
  else
    let a := vals.foldl (fun m v => Dy.maxAbs m v.dy) Dy.zero
    if a.isZero then 0 else (min 254 (max 0 (a.log2 - blockEmax fmt + 127))).toNat

/-- One element of a block under its scale code, with its events (R213 steps 1 and 4). -/
def blockElem (r : Rnd) (fmt E : Nat) (v : FV) : Nat × Ev :=
  if E = 0xFF then (0, if v.isInf || v.isSnan then Ev.inv else Ev.none)
  else
    let y := v.dy.scale (127 - (E : Int))
    match tileFmt? fmt with
    | some F =>
      if y.isZero then (F.withSign v.sign 0, Ev.none)
      else
        let neg := decide (y.m < 0)
        let (mag, ix) := F.roundMag r y
        if mag > F.maxFin then (F.withSign neg F.maxFin, { Ev.none with sat := true, nx := true })
        else (F.withSign neg mag, F.rangeEv mag ix)
    | none =>
      let (k, ix) := y.toUnits r 6
      let (c, out) := if fmt = 11 then clampInt 0 255 k else clampInt (-128) 127 k
      (wrap 8 c, { Ev.none with sat := out, nx := ix || out })

end Sys2Proof.Machine
end

