-- ==== Sys2Proof/Machine/Translate.lean ====
section
/-! DEFINITION. The physical address map, page tables, the siding map and the TLBs (13_memory_and_far_tier.md): regions,
walks, permission checks, and the reads and writes of resolved locations. -/

namespace Sys2Proof.Machine

/-! ### The physical address map (R340, R342, R579) -/

/-- The units with a register page (R342). -/
inductive Unit_ where
  | tt
  | ca
  | ft
  | sh (e : Nat)
  | jn
  | lk (l : Nat)
  | hi (h : Nat)
  | ld
  | bd
  | rc
  | pm
  | ck
  | sec
  | feat
  | stSp (n : Nat)
  | stGe (n : Nat)
  | stMm (n : Nat)
  deriving DecidableEq, Repr

/-- What stands at a physical address. -/
inductive Region where
  | gddr
  | scratch (n off : Nat)
  | reg (u : Unit_) (off : Nat)
  | bootRom (off : Nat)
  | bootWin (off : Nat)
  | host (off : Nat)
  | far (off : Nat)
  | reserved
  deriving DecidableEq, Repr

/-- The size of GDDR7 (192 GiB). -/
def gddrSize : Nat := 0x3000000000

/-- A device unit's register page, by offset from 0x0201_0000_0000 (R342). -/
def unitAt (o : Nat) : Region :=
  let p := o / 0x1000
  let f := o % 0x1000
  if p = 0 then .reg .tt f else if p = 1 then .reg .ca f else if p = 2 then .reg .ft f
  else if 0x10 ≤ p ∧ p < 0x20 then .reg (.sh (p - 0x10)) f
  else if 0x20 ≤ p ∧ p < 0x30 then .reg .jn (o - 0x20000)
  else if 0x30 ≤ p ∧ p < 0x48 then .reg (.lk (p - 0x30)) f
  else if 0x50 ≤ p ∧ p < 0x60 then .reg (.hi ((p - 0x50) / 4)) ((o - 0x50000) % 0x4000)
  else if p = 0x60 then .reg .ld f else if p = 0x61 then .reg .bd f else if p = 0x62 then .reg .rc f
  else if p = 0x63 then .reg .pm f else if p = 0x64 then .reg .ck f else if p = 0x65 then .reg .sec f
  else if p = 0x66 then .reg .feat f else .reserved

/-- A station's register block, by offset from 0x0200_0000_0000 (R342). -/
def stnRegAt (o : Nat) : Region :=
  let n := o / 0x10000
  let p := (o % 0x10000) / 0x1000
  let f := o % 0x1000
  if n < 128 then
    if p = 0 then .reg (.stSp n) f else if p = 1 then .reg (.stGe n) f else if p = 2 then .reg (.stMm n) f else .reserved
  else .reserved

/-- The region of a physical address (R340). -/
def region (a : Nat) : Region :=
  if a < gddrSize then .gddr
  else if 0x10000000000 ≤ a ∧ a < 0x10100000000 then .scratch ((a - 0x10000000000) / 0x800000) (a % 0x800000)
  else if 0x20000000000 ≤ a ∧ a < 0x20002000000 then stnRegAt (a - 0x20000000000)
  else if 0x20100000000 ≤ a ∧ a < 0x20100070000 then unitAt (a - 0x20100000000)
  else if 0x20200000000 ≤ a ∧ a < 0x20200010000 then .bootRom (a - 0x20200000000)
  else if 0x20201000000 ≤ a ∧ a < 0x20202000000 then .bootWin (a - 0x20201000000)
  else if 0x40000000000 ≤ a ∧ a < 0x50000000000 then .host (a - 0x40000000000)
  else if 0x100000000000 ≤ a ∧ a < 0x180000000000 then .far (a - 0x100000000000)
  else .reserved

/-- The physical address of a scratchpad offset of station n. -/
def scratchPa (n off : Nat) : Nat := 0x10000000000 + n * 0x800000 + off

/-- Whether a region exists on this device at present: not reserved, and no scratchpad or register page of a station that
is absent or not listed (R341), and no host window that is off, or offset beyond its length (R448). -/
def Dev.exists_ (d : Dev) : Region → Bool
  | .reserved => false
  | .scratch n _ => decide (n < 128) && d.usable n
  | .reg (.stSp n) _ => d.usable n
  | .reg (.stGe n) _ => d.usable n
  | .reg (.stMm n) _ => d.usable n
  | .host off => d.host.windowOk off
  | _ => true

/-! ### GDDR7 placement (R324, R356) -/

/-- The xor of the j-th fields of w bits from bit lo of an address, n of them. -/
def xorFields (a lo w : Nat) : Nat → Nat
  | 0 => 0
  | n + 1 => fld a (lo + w * n + w - 1) (lo + w * n) ^^^ xorFields a lo w n

/-- The I/O die that owns a cacheable address (R324). -/
def iodOf (a : Nat) : Nat := xorFields a 8 2 20

/-- The GDDR7 channel of an address: die × 4 + channel (R356). -/
def channelOf (a : Nat) : Nat :=
  let k := fld a 37 10 % 24
  (6 * iodOf a + k / 4) * 4 + k % 4

/-! ### Access kinds -/

/-- The kind of an access, for its fault codes (R91). -/
inductive AK where
  | fetch
  | load
  | store
  deriving DecidableEq, Repr

/-- The not-present code (R349). -/
def AK.np : AK → Nat
  | .fetch => 4
  | .load => 7
  | .store => 9

/-- The access code (R341, R349). -/
def AK.acc : AK → Nat
  | .fetch => 5
  | .load => 8
  | .store => 0x0A

/-- Who accesses: a core load or store of some size in bytes, a vector, tile or gather access, or a scratchpad atomic
(R345). -/
inductive Cls where
  | core (size : Nat)
  | bulk
  | amo
  deriving DecidableEq, Repr

/-! ### Page tables -/

/-- A leaf found by a walk: the entry, its level and its address. -/
structure Leaf where
  pte : Nat
  level : Nat
  at_ : Nat
  deriving DecidableEq, Repr

/-- The bytes a leaf at a level maps: 1 GiB, 2 MiB or 4 KiB (R348). -/
def leafSize (level : Nat) : Nat := if level = 1 then 0x40000000 else if level = 2 then 0x200000 else 0x1000

/-- Whether a pointer entry has a field set that it does not use (R348). -/
def ptrBad (pte : Nat) : Bool := fld pte 63 48 != 0 || fld pte 11 1 != 0

/-- Whether a leaf has a field that R348 or R351 forbids. -/
def leafBad (pte level : Nat) : Bool :=
  fld pte 63 48 != 0 || fld pte 11 10 != 0 || level == 0 || (bitOf pte 9 && level != 3) || (bitOf pte 7 && bitOf pte 8)
    || (fld pte 47 12 * 0x1000) % leafSize level != 0

/-- A walk from a table at a level down, in order of levels (R347, R349); fuel is the number of levels left. -/
def walkFrom (m : Mem) (ak : AK) (va : Nat) : Nat → Nat → Nat → Except Nat Leaf
  | 0, _, _ => .error ak.acc
  | fuel + 1, level, table =>
    if table ≥ gddrSize then .error ak.acc
    else
      let a := table + 8 * fld va (47 - 9 * level) (39 - 9 * level)
      let pte := m.readN a 8
      if !bitOf pte 0 then .error ak.np
      else if bitOf pte 1 then (if leafBad pte level then .error ak.acc else .ok ⟨pte, level, a⟩)
      else if level = 3 ∨ ptrBad pte then .error ak.acc
      else walkFrom m ak va fuel (level + 1) (fld pte 47 12 * 0x1000)

/-- A virtual address is canonical when bits 63:47 are all zero or all one (R347). -/
def canonical (va : Nat) : Bool := fld va 63 47 == 0 || fld va 63 47 == 0x1FFFF

/-- The 16 entries of a level-3 table group at an address form one 64 KiB page (R350). -/
def group64 (m : Mem) (a : Nat) : Bool :=
  let e0 := m.readN a 8
  (List.range 16).all (fun j =>
    let e := m.readN (a + 8 * j) 8
    bitOf e 0 && bitOf e 9 && fld e 15 12 == j && e - fld e 15 12 * 0x1000 == e0 - fld e0 15 12 * 0x1000)

/-- The 4 KiB pages a leaf covers (R348, R350). -/
def Leaf.span (m : Mem) (l : Leaf) : Nat :=
  if l.level = 3 ∧ bitOf l.pte 9 ∧ group64 m (l.at_ / 128 * 128) then 16 else leafSize l.level / 0x1000

/-- The TLB entry a leaf gives for the 4 KiB page of an address. -/
def Leaf.entry (m : Mem) (l : Leaf) (va : Nat) : TlbE :=
  let off := (va % leafSize l.level) / 0x1000 * 0x1000
  { vpn := (va % 2 ^ 48) / 0x1000, span := l.span m, base := fld l.pte 47 12 * 0x1000 + off, ring := fld l.pte 5 4, w := bitOf l.pte 2,
    nx := bitOf l.pte 3, dev := bitOf l.pte 8, frz := bitOf l.pte 7, pf := bitOf l.pte 6, siding := none }

/-- The siding entry of a far-tier offset (R363). -/
def Dev.sidingAt (d : Dev) (off : Nat) : Nat := d.mem.gddr.readN (d.mem.smBase + 8 * (off / 0x80000)) 8

/-- The siding entry's part of a walk (R364, R365): FAR_NP where the map is off or the entry is not present, the access
code for a reserved field. -/
def Dev.sidingWalk (d : Dev) (ak : AK) (off : Nat) : Except Nat Nat :=
  if !d.mem.smEn then .error 0x0B
  else
    let e := d.sidingAt off
    if !bitOf e 0 then .error 0x0B
    else if fld e 63 49 != 0 || fld e 15 8 != 0 || fld e 7 6 == 3 then .error ak.acc
    else .ok e

/-- The page of an access as a TLB entry, found by a walk or, with translation off, by identity (R347 to R350, R355). -/
def Dev.walkPage (d : Dev) (n : Nat) (ak : AK) (va : Nat) : Except Nat TlbE :=
  let s := d.stn n
  if s.mmEn then
    match walkFrom d.mem.gddr ak va 4 0 (s.mmBase.toNat * 0x1000) with
    | .error c => .error c
    | .ok l => .ok (l.entry d.mem.gddr va)
  else if va ≥ 2 ^ 48 then .error ak.acc
  else .ok { vpn := va / 0x1000, span := 1, base := va / 0x1000 * 0x1000, ring := 1, w := true, nx := false, dev := false,
             frz := false, pf := false, siding := none }

/-- The permission check of a page for a ring (R351, R352); a fetch needs no more here than the ring. -/
def TlbE.allows (e : TlbE) (ring : Nat) (ak : AK) : Bool :=
  decide (ring ≤ e.ring) && (match ak with
    | .store => !e.frz && (e.w || decide (ring = 0))
    | _ => true)

/-- The offsets of the units' registers that rings other than 0 and 1 may access (R332, R343, and each unit's own rule). -/
def ringMayReg (ring : Nat) (store : Bool) (u : Unit_) (off : Nat) : Bool :=
  match u with
  | .tt => decide (ring ≤ 1) || (decide (ring = 2) && (!store || off == 0x030)) ||
      (!store && (off == 0x018 || off == 0x008))
  | .sh _ => decide (ring ≤ 1) || !(store && decide (0x100 ≤ off) && decide ((off - 0x100) % 0x40 = 0))
  | .jn => decide (ring ≤ 1) || (decide (0x200 ≤ off) && decide (off < 0x300))
  | .ld => decide (ring ≤ 1) || (decide (ring = 2) && off == 0x008)
  | .bd => true
  | .rc => decide (ring = 0) || (decide (ring = 1) && !(store && off == 0))
  | .sec => decide (ring ≤ 1)
  | .feat => true
  | .stGe _ => true
  | _ => decide (ring ≤ 1)

/-- The checks of a resolved physical address against its region (R67, R111, R131, R332, R341, R343, R345, R579): the
fault code, if any. -/
def Dev.regionFault (d : Dev) (ring : Nat) (ak : AK) (cls : Cls) (e : TlbE) (pa : Nat) : Option Nat :=
  let r := region pa
  if !d.exists_ r then some ak.acc
  else match ak with
    | .fetch => (match r with
      | .gddr => if e.nx || e.dev then some 6 else none
      | _ => some 6)
    | _ => match r, cls with
      | .scratch _ _, _ => none
      | _, .amo => some ak.acc
      | .gddr, .bulk => if e.dev then some ak.acc else none
      | .far _, .bulk => if e.dev then some ak.acc else none
      | .gddr, _ => none
      | .far _, _ => none
      | .host _, .core _ => none
      | .bootRom _, .core _ => if ak = .load ∧ ring = 0 then none else some ak.acc
      | .bootWin _, .core _ => if ak = .load ∧ ring = 0 then none else some ak.acc
      | .reg u off, .core size =>
        if size = 8 && ringMayReg ring (ak == .store) u off then none else some ak.acc
      | _, _ => some ak.acc

/-- The TLB entry of a page. -/
def Station.tlbFind (s : Station) (vpn : Nat) : Option TlbE := s.tlb.find? (fun e => e.vpn == vpn)

/-- Entries the station's TLB holds (R353). -/
def tlbSize : Nat := 2048

/-- A TLB entry installed; the oldest leaves when the TLB is full (log entry 10). -/
def Station.tlbAdd (s : Station) (e : TlbE) : Station :=
  let l := s.tlb.filter (fun x => x.vpn != e.vpn) ++ [e]
  { s with tlb := l.drop (l.length - tlbSize) }

/-- What an access finds. -/
inductive Xlat where
  /-- the physical address, with the page's attributes -/
  | ok (pa : Nat) (e : TlbE)
  /-- a fault, by cause code -/
  | fault (code : Nat)
  deriving DecidableEq, Repr

/-- The checks after a page is known: page permissions, the region, then the siding entry (R105, R132, R349, R365), in
that order. An atomic reads no siding entry (R67). -/
def Dev.checkPage (d : Dev) (ring : Nat) (ak : AK) (cls : Cls) (va : Nat) (e : TlbE) : Xlat :=
  let pa := e.base + va % 0x1000
  if !e.allows ring ak then .fault ak.acc
  else match d.regionFault ring ak cls e pa with
    | some c => .fault c
    | none => match region pa, ak with
      | .far off, _ => (match e.siding with
        | some x => if ak == .store && !bitOf x 2 then .fault ak.acc else .ok pa e
        | none => match d.sidingWalk ak off with
          | .error c => .fault c
          | .ok x => if ak == .store && !bitOf x 2 then .fault ak.acc else .ok pa { e with siding := some x })
      | _, _ => .ok pa e

/-- Whether an access needs a walk: its page is in no TLB entry, and translation is on or it goes to the far tier
(R52, R353, R363). -/
def Dev.needsWalk (d : Dev) (n : Nat) (va : Nat) : Bool :=
  let s := d.stn n
  (s.tlbFind ((va % 2 ^ 48) / 0x1000)).isNone &&
    (if s.mmEn then canonical va else (match region va with
      | .far _ => true
      | _ => false))

/-- The translation and checks of one access of station n in a ring (R347 to R352, R355, R365). -/
def Dev.translate (d : Dev) (n ring : Nat) (ak : AK) (cls : Cls) (va : Nat) : Xlat :=
  let s := d.stn n
  if s.mmEn && !canonical va then .fault ak.acc
  else match s.tlbFind ((va % 2 ^ 48) / 0x1000) with
    | some e => d.checkPage ring ak cls va e
    | none => match d.walkPage n ak va with
      | .error c => .fault c
      | .ok e => d.checkPage ring ak cls va e

/-- The device with the translation of an access held in the station's TLB, where one is cached (R353: translation on, or
a siding entry; a failed walk is never held). -/
def Dev.install (d : Dev) (n : Nat) (x : Xlat) : Dev :=
  match x with
  | .ok _ e => if (d.stn n).mmEn || e.siding.isSome then d.updStn n (fun s => s.tlbAdd e) else d
  | .fault _ => d

/-! ### Resolved locations -/

/-- The far-tier place of an offset through a siding entry: port and port address (R363, R364). -/
def sidingPort (e off : Nat) : Nat × Nat := (fld e 5 4, fld e 48 16 * 0x80000 + off % 0x80000)

/-- The key a siding entry selects (R364, R370). -/
def MemSys.sidingKey (m : MemSys) (e : Nat) : Option Nat :=
  if fld e 7 6 = 0 then m.key0 else if fld e 7 6 = 1 then m.key1 else m.key2

/-- The cell of the far tier's memory: key, port and port address. -/
def farCell (key port pa : Nat) : Nat := key * 2 ^ 54 + port * 2 ^ 52 + pa

/-- A CXL port is up (FT_PORTn.UP). -/
def MemSys.portUp (m : MemSys) (p : Nat) : Bool := wbit (m.ports.getD p 0) 0

/-- The siding entry an access of any agent uses: the one its translation found, or the map's. -/
def Dev.sidingOf (d : Dev) (e : TlbE) (off : Nat) : Nat := e.siding.getD (d.sidingAt off)

/-- The n bytes at a resolved physical address, and whether the read met an uncorrectable error: poison, a retired
channel, an empty key slot or a port that is down (R307, R358, R359, R368, R370). Registers and host windows are not read
here. -/
def Dev.readLoc (d : Dev) (e : TlbE) (pa n : Nat) : List Byte × Bool :=
  match region pa with
  | .gddr => (d.mem.gddr.readBytes pa n,
      (upFrom (pa / 128) ((pa + n - 1) / 128 + 1 - pa / 128)).any (fun l => setHas d.mem.poison l)
        || d.mem.retired.contains (channelOf pa) || d.mem.key0.isNone)
  | .scratch k off => ((d.stn k).sp.readBytes off n,
      (upFrom (off / 8) ((off + n - 1) / 8 + 1 - off / 8)).any (fun g => setHas (d.stn k).spPoison g))
  | .bootRom off => ((upFrom off n).map Config.bootRom, false)
  | .bootWin off => (d.mem.bootWin.readBytes off n, false)
  | .far off =>
    let x := d.sidingOf e off
    let (p, a) := sidingPort x off
    (match d.mem.sidingKey x with
     | some k => if d.mem.portUp p then (d.mem.far.readBytes (farCell k p a) n,
         (upFrom (pa / 128) ((pa + n - 1) / 128 + 1 - pa / 128)).any (fun l => setHas d.mem.poison l))
       else (List.replicate n 0, true)
     | none => (List.replicate n 0, true))
  | _ => (List.replicate n 0, false)

/-- The poison that remains after n bytes from an address are written, in units of w bytes: a unit is cleared where all of
it is written (R307, R358). -/
def clearPoison (p : List Nat) (w a n : Nat) : List Nat :=
  p.filter (fun l => !(decide (a ≤ l * w) && decide (l * w + w ≤ a + n)))

/-- A scratchpad of a station with bytes written from an offset upward (R307). -/
def Station.spWrite (s : Station) (off : Nat) (bs : List Byte) : Station :=
  { s with sp := s.sp.writeBytes off bs, spPoison := clearPoison s.spPoison 8 off bs.length }

/-- The far tier with bytes written under a key: what other keys had stored at those places is gone (R369, R370). -/
def MemSys.farWrite (m : MemSys) (key port pa : Nat) (bs : List Byte) : MemSys :=
  let place := port * 2 ^ 52 + pa
  let kept : Mem := ⟨m.far.cells.filter (fun c =>
    decide (c.1 / 2 ^ 54 = key) || !(decide (place ≤ c.1 % 2 ^ 54) && decide (c.1 % 2 ^ 54 < place + bs.length)))⟩
  { m with far := kept.writeBytes (farCell key port pa) bs }

/-- Bytes written at a resolved physical address, and whether the write met an error. A write to a retired channel is
discarded (R359). Registers and host windows are not written here. -/
def Dev.writeLoc (d : Dev) (e : TlbE) (pa : Nat) (bs : List Byte) : Dev × Bool :=
  match region pa with
  | .gddr =>
    if d.mem.key0.isNone then (d, true)
    else if d.mem.retired.contains (channelOf pa) then (d, false)
    else ({ d with mem := { d.mem with gddr := d.mem.gddr.writeBytes pa bs,
                                       poison := clearPoison d.mem.poison 128 pa bs.length } }, false)
  | .scratch k off => (d.updStn k (fun s => s.spWrite off bs), false)
  | .far off =>
    let x := d.sidingOf e off
    let (p, a) := sidingPort x off
    (match d.mem.sidingKey x with
     | some k => if d.mem.portUp p then
         ({ d with mem := { d.mem.farWrite k p a bs with
              poison := clearPoison d.mem.poison 128 pa bs.length,
              dirty := if e.dev then d.mem.dirty
                else (upFrom (pa / 128) ((pa + bs.length - 1) / 128 + 1 - pa / 128)).foldl setAdd d.mem.dirty } }, false)
       else (d, true)
     | none => (d, true))
  | _ => (d, false)

/-- A page with no attributes, for agents that address physical memory. -/
def TlbE.phys (pa : Nat) : TlbE :=
  { vpn := pa / 0x1000, span := 1, base := pa / 0x1000 * 0x1000, ring := 0, w := true, nx := false, dev := false, frz := false,
    pf := false, siding := none }

end Sys2Proof.Machine
end

