-- ==== Sys2Proof/Machine/Issue.lean ====
section
/-! DEFINITION. The issue of a station instruction: boundary, fetch checks, then its body; and the words of the encodings
(R57, R121, R167), which ILLEGAL and PRIV report (R93). -/

namespace Sys2Proof.Machine

/-! ### Encodings -/

/-- Format A (R57). -/
def encA (op fn : Nat) (rd rs1 rs2 : Fin 32) : Word :=
  word (op * 2 ^ 26 + rd * 2 ^ 21 + rs1 * 2 ^ 16 + rs2 * 2 ^ 11 + fn * 2)

/-- Format I (R57). -/
def encI (op : Nat) (rd rs1 : Fin 32) (imm : BitVec 15) : Word :=
  word (op * 2 ^ 26 + rd * 2 ^ 21 + rs1 * 2 ^ 16 + imm.toNat * 2)

/-- Format E (R57). -/
def encE (op : Nat) (rd rs1 rs2 : Fin 32) (fn : BitVec 10) (imm : BitVec 32) : Word :=
  word (imm.toNat * 2 ^ 32 + op * 2 ^ 26 + rd * 2 ^ 21 + rs1 * 2 ^ 16 + rs2 * 2 ^ 11 + fn.toNat * 2 + 1)

/-- Format EJ (R57). -/
def encEJ (op : Nat) (off : BitVec 25) (mask : BitVec 32) : Word :=
  word (mask.toNat * 2 ^ 32 + op * 2 ^ 26 + off.toNat * 2 + 1)

/-- Format V (R121). -/
def encV (op fn : Nat) (f : VF) : Word :=
  word (f.vs3 * 2 ^ 59 + f.km * 2 ^ 55 + b2n f.zm * 2 ^ 54 + f.et.toNat * 2 ^ 49 + f.rm.toNat * 2 ^ 46 + b2n f.sx * 2 ^ 45
    + f.imm.toNat * 2 ^ 32 + op * 2 ^ 26 + f.vd * 2 ^ 21 + f.vs1 * 2 ^ 16 + f.vs2 * 2 ^ 11 + fn * 2 + 1)

/-- Format VM (R121). -/
def encVM (op fn : Nat) (f : VmF) : Word :=
  word (f.vs3 * 2 ^ 59 + f.km * 2 ^ 55 + b2n f.zm * 2 ^ 54 + f.et.toNat * 2 ^ 49 + f.iw.toNat * 2 ^ 47 + b2n f.ix * 2 ^ 46
    + f.imm.toNat * 2 ^ 32 + op * 2 ^ 26 + f.vd * 2 ^ 21 + f.rs1 * 2 ^ 16 + f.rs2 * 2 ^ 11 + fn * 2 + 1)

/-- Format T (R167). -/
def encT (op fn : Nat) (f : TF) : Word :=
  word (f.imm.toNat * 2 ^ 32 + op * 2 ^ 26 + f.rd * 2 ^ 21 + f.rs1 * 2 ^ 16 + f.rs2 * 2 ^ 11 + f.tn * 2 ^ 8 + fn * 2 + 1)

/-! ### Fetch and issue -/

/-- The fetch checks of an instruction of len bytes at PC: first word before second (R105, R111). The fault's address is
the word whose fetch faulted. -/
def Dev.fetch (d : Dev) (h : Hart) (len : Nat) : Except (Nat × Word) Dev :=
  let t := d.thr h
  match d.translate h.stn t.ring .fetch (.core 4) t.pc.toNat with
  | .fault c => .error (c, t.pc)
  | .ok pa e =>
    let d1 := d.install h.stn (.ok pa e)
    if len ≤ 4 then .ok d1
    else match d1.translate h.stn t.ring .fetch (.core 4) (t.pc + 4).toNat with
      | .fault c => .error (c, t.pc + 4)
      | .ok pa2 e2 => .ok (d1.install h.stn (.ok pa2 e2))

/-- The issue of an instruction of len bytes by a hart. Where it cannot issue, the command is turned away (log entry 7).
At the boundary before it a pending exception or interrupt is taken instead (R105); a fetch fault is taken on it (R111);
otherwise its body runs. -/
def Dev.issue (d : Dev) (h : Hart) (len : Nat) (body : Dev → Dev) : Dev :=
  if !d.canIssue h then d
  else match d.boundary h with
    | some d1 => d1
    | none => match d.fetch h len with
      | .error (c, a) => d.exc h c a
      | .ok d1 => body d1

/-- A change of the device as the effect of a command: the queue of waiting commands is kept. -/
def onDev (s : State) (f : Dev → Dev) : Host.Outcome State Fault Refusal := .next { s with dev := f s.dev }

/-- The number of the station cycle at which a hart's instruction issues. -/
def Dev.cycleOf (d : Dev) (h : Hart) : Nat := (d.stn h.stn).cycle

/-- An interrupt becomes pending on a thread: WFI wakes where IPEND and IMASK share a set bit, and a thread that waits at a
boundary becomes ready for a deliverable one (R104, R154, R161). -/
def Dev.setIpend (d : Dev) (n : Nat) (t : Fin 4) (i : Nat) : Dev :=
  d.updStn n (fun s =>
    let s1 := s.updThr t (fun x => { x with ipend := BitVec.ofNat 4 (setBit x.ipend.toNat i true) })
    let x := s1.thr t
    if x.wait = .wfi then (if x.irqs ≠ 0 then s1.wakeUp t else s1)
    else if s1.irqOk x i then s1.wakeBoundary t else s1)

end Sys2Proof.Machine
end

