-- ==== Sys2Proof/Machine/Operands.lean ====
section
/-! DEFINITION. Operand forms of the station instructions: immediates, selector fields, offsets, and the shapes of issue
the register instructions share. -/

namespace Sys2Proof.Machine

/-- IMM[14:0], sign-extended (R57). -/
def imm15 (i : BitVec 15) : Word := i.signExtend 64

/-- IMM5, sign-extended (R62). -/
def imm5 (i : BitVec 5) : Word := i.signExtend 64

/-- IMM32, sign-extended (R57). -/
def imm32 (i : BitVec 32) : Word := i.signExtend 64

/-- IMM13 of a vector instruction, sign-extended (R121). -/
def imm13 (i : BitVec 13) : Word := i.signExtend 64

/-- A branch offset in bytes (R57, R62). -/
def off12 (o : BitVec 12) : Word := o.signExtend 64 <<< 2

/-- A jump offset in bytes (R63). -/
def off25 (o : BitVec 25) : Word := o.signExtend 64 <<< 2

/-- An integer instruction of 4 bytes that writes rd with a function of its thread, in one cycle. -/
def Dev.intOp (d : Dev) (h : Hart) (rd : Fin 32) (f : Thread → Word) : Dev :=
  d.issue h 4 (fun d1 => d1.finish h 4 1 (fun t => t.setG rd (f t)))

/-- A register form (format A): rd receives a function of rs1 and rs2 (R60). -/
def Dev.aluR (d : Dev) (h : Hart) (rd rs1 rs2 : Fin 32) (f : Word → Word → Word) : Dev :=
  d.intOp h rd (fun t => f (t.gr rs1) (t.gr rs2))

/-- A one-operand register form, which requires rs2 = g0 and takes ILLEGAL otherwise (R58, R60). -/
def Dev.aluU (d : Dev) (h : Hart) (fn : Nat) (rd rs1 rs2 : Fin 32) (f : Word → Word) : Dev :=
  d.issue h 4 (fun d1 =>
    if rs2 ≠ 0 then d1.illegal h (encA 0x01 fn rd rs1 rs2)
    else d1.finish h 4 1 (fun t => t.setG rd (f (t.gr rs1))))

/-- An immediate form (format I): rd receives a function of rs1 and the sign-extended immediate (R61). -/
def Dev.aluI (d : Dev) (h : Hart) (rd rs1 : Fin 32) (imm : BitVec 15) (f : Word → Word → Word) : Dev :=
  d.intOp h rd (fun t => f (t.gr rs1) (imm15 imm))

/-- A conditional branch: taken to PC + OFF where the condition holds, otherwise the next instruction (R62, R64). -/
def Dev.branch (d : Dev) (h : Hart) (off : BitVec 12) (c : Thread → Bool) : Dev :=
  d.issue h 4 (fun d1 =>
    if c (d1.thr h) then d1.transfer h ((d1.thr h).pc + off12 off) true id
    else d1.finish h 4 1 id)

/-- Signed order. -/
def sltB (a b : Word) : Bool := a.slt b

/-- Unsigned order. -/
def ultB (a b : Word) : Bool := a.ult b

/-- Leading zeros of a 64-bit value (R60). -/
def clz64 (a : Word) : Nat := if a = 0 then 64 else 63 - a.toNat.log2

/-- Trailing zeros of the low n bits of a number, n at most. -/
def ctzN (x : Nat) : Nat → Nat
  | 0 => 0
  | n + 1 => if x % 2 = 1 then 0 else 1 + ctzN (x / 2) n

/-- Set bits among the low n bits of a number. -/
def popN (x : Nat) : Nat → Nat
  | 0 => 0
  | n + 1 => x % 2 + popN (x / 2) n

end Sys2Proof.Machine
end

