-- ==== Sys2Proof/Machine/Poison.lean ====
section
/-! DEFINITION. Uncorrectable errors in memory and scratchpads, and the state of the scratchpads that every access consults
(R106, R302, R307, R315 to R317, R357 to R359, R487). -/

namespace Sys2Proof.Machine

/-- The recorder entry of an uncorrectable error delivered at a physical address; a line is named by the cache die that
holds it (R324, R487, R497). -/
def Dev.poisonEvent (d : Dev) (pa : Nat) : Dev :=
  match region pa with
  | .scratch k off => d.event 1 4 4 k off false
  | .host _ => d
  | _ => d.event 5 2 4 (8 + iodOf pa) pa false

/-- A value an uncorrectable error leaves undefined: the next free value; the delivery is recorded and MCHK is raised
(R106, R487, log entry 5). -/
def Dev.poisoned (d : Dev) (h : Hart) (pa : Nat) : Dev × Word :=
  (({ d with free := d.free + 1 }.poisonEvent pa).raiseMchk h.stn h.thr (word pa), word (Config.freeValue d.free))

/-- A GDDR7 channel is retired: its contents are lost, a contained error of the halting kind; the die is recorded once more
when its fourth channel goes (R359, R487, R491). -/
def Dev.retireChannel (d : Dev) (pa : Nat) : Dev :=
  let c := channelOf pa
  if d.mem.retired.contains c then d
  else
    let d1 := { d with mem := { d.mem with retired := setAdd d.mem.retired c,
                                           gddr := ⟨d.mem.gddr.cells.filter (fun x => channelOf x.1 != c)⟩ } }
    let d2 := d1.containedHalt 6 2 c pa
    if (upFrom (c / 4 * 4) 4).all (fun k => d1.mem.retired.contains k) then d2.event 6 2 4 (c / 4 * 4 + 3) 1 false else d2

/-- The outcome of a GDDR7 access by its failed CRC attempts: none, up to four that a retry mended (counted as retried), or
the original attempt and all four retries, which retires the channel (R357, R487). -/
def Dev.crcOutcome (d : Dev) (pa fails : Nat) : Dev :=
  match region pa with
  | .gddr => if fails = 0 then d else if fails ≤ 4 then d.event 6 1 2 (channelOf pa) pa false else d.retireChannel pa
  | _ => d

/-- An uncorrectable error is found at a physical address: the 128-byte line of memory or the 8-byte group of a scratchpad
is poisoned (R307, R358). -/
def Dev.poisonAt (d : Dev) (pa : Nat) : Dev :=
  match region pa with
  | .gddr => { d with mem := { d.mem with poison := setAdd d.mem.poison (pa / 128) } }
  | .far _ => { d with mem := { d.mem with poison := setAdd d.mem.poison (pa / 128) } }
  | .scratch k off => d.updStn k (fun s => { s with spPoison := setAdd s.spPoison (off / 8) })
  | _ => d

/-- The running phase runs in reproducible mode (R48, R300). -/
def Dev.repro (d : Dev) : Bool := d.tt.inPhase && wbit (d.tt.phases.getD (2 * d.tt.phase.toNat + 1) 0) 8

/-- Entries of a bank's AADD.F log (R302). -/
def logSize : Nat := 512

/-- The bank of a scratchpad offset (R306). -/
def bankOf (off : Nat) : Nat := fld off 11 6

/-- The stations whose scratchpads, at these places, do not serve accesses (R315, R317). -/
def Dev.sleeping (d : Dev) (locs : List (Nat × TlbE)) : List Nat :=
  locs.filterMap (fun l => match region l.1 with
    | .scratch k _ => if (d.stn k).spState ≠ 0 then some k else none
    | _ => none)

/-- An access reaches a scratchpad in RETAIN or OFF: a wake starts and TARGET becomes ON (R317). -/
def Station.startWake (s : Station) : Station := if s.spState = 0 then s else { s with spState := 3, spTarget := 0 }

/-- The stations whose scratchpads an access needs start to wake (R317). -/
def Dev.wakeAll (d : Dev) (l : List Nat) : Dev := l.foldl (fun x k => x.updStn k Station.startWake) d

/-- The FP32 sum of AADD.F: nearest-even, 0x7FC0_0000 for a NaN (R314). -/
def fp32Add (a b : Nat) : Nat := (fp32.fromVal .rne false ((fp32.decode a).add .rne (fp32.decode b))).1

end Sys2Proof.Machine
end

