-- ==== Sys2Proof/Machine/Gather.lean ====
section
/-! DEFINITION. The gather engine and its registers (R333 to R339), and the scratchpad power register (R315 to R318). -/

namespace Sys2Proof.Machine

/-! ### Streams -/

/-- Stream k of a station's gather engine. -/
def Station.stream (s : Station) (k : Nat) : GStream := s.ge.getD k GStream.reset

/-- A stream replaced. -/
def Station.setStream (s : Station) (k : Nat) (g : GStream) : Station := { s with ge := s.ge.set k g }

/-- IW: the bits of an index. -/
def GStream.iw (g : GStream) : Nat := 8 * 2 ^ (g.cfg.toNat % 4)

/-- ESZ: the bytes of an element. -/
def GStream.size (g : GStream) : Nat := 2 ^ fld g.cfg.toNat 4 2

/-- CFG.DIR: scatter. -/
def GStream.scatter (g : GStream) : Bool := g.cfg.getLsbD 5

/-- CFG.IX: the index is scaled by the element size. -/
def GStream.ix (g : GStream) : Bool := g.cfg.getLsbD 6

/-- CFG.IRQ. -/
def GStream.irq (g : GStream) : Bool := g.cfg.getLsbD 7

/-- The scratchpad size (R306). -/
def spSize : Nat := 0x800000

/-- An entry fails the checks of a start or a resume (R335). -/
def GStream.bad (g : GStream) : Bool :=
  fld g.cfg.toNat 15 8 != 0 || g.cfg.toNat % 4 == 0 || decide (6 < fld g.cfg.toNat 4 2)
    || fld g.spoff.toNat 31 23 != 0 || g.idxaddr.toNat % (g.iw / 8) != 0 || g.spoff.toNat % g.size != 0
    || decide (spSize < g.spoff.toNat + g.count.toNat * g.size)

/-- The stream's state as GE_ACTIVE shows it. -/
def GStream.active (g : GStream) : Bool := g.state == 1

/-- A stream enters a final state: 2 DONE, 3 FAULT or 4 STOPPED, with GE_DONE or GE_FAULT and GE_FADDR (R335 to R338). -/
def Station.endStream (s : Station) (k st fcode : Nat) (faddr : Word) : Station :=
  let g := s.stream k
  let s1 := s.setStream k { g with state := st, fcode := fcode, ends := none }
  if st = 2 then { s1 with geDone := word (setBit s1.geDone.toNat k true) }
  else if st = 3 then
    { s1 with geFault := word (setBit s1.geFault.toNat k true), geFaddr := s1.geFaddr.set k faddr }
  else s1

/-- A start (from the first element) or a resume (from POS) of stream k by thread t in a ring; ignored while the stream is
ACTIVE (R335). -/
def Station.geBegin (s : Station) (k : Nat) (start : Bool) (thr ring : Nat) : Station :=
  let g := s.stream k
  if g.active then s
  else
    let g1 := { g with thr := thr, ring := ring, pos := if start then 0 else g.pos, fcode := 0, ends := none }
    let s1 := { s.setStream k g1 with geFault := word (setBit s.geFault.toNat k false) }
    if g1.bad then s1.endStream k 3 1 0
    else if g1.count.toNat ≤ g1.pos then s1.endStream k 2 0 0
    else s1.setStream k { g1 with state := 1 }

/-- A stop: an ACTIVE stream issues no further element (R338). -/
def Station.geStop (s : Station) (k : Nat) : Station :=
  let g := s.stream k
  if g.active then s.setStream k { g with ends := g.ends.or (some (4, 0, 0)) } else s

/-- The halt tick stops every ACTIVE stream, and it enters STOPPED (R339). -/
def Station.geHalt (s : Station) : Station :=
  (List.range 64).foldl (fun u k => if (u.stream k).active then u.endStream k 4 0 0 else u) s

/-! ### GE_ registers -/

/-- One doubleword of a stream's entry (R333). -/
def GStream.read (g : GStream) (j : Nat) : Word :=
  if j = 0 then g.idxaddr
  else if j = 1 then g.dbase
  else if j = 2 then word (g.spoff.toNat + g.count.toNat * 2 ^ 32)
  else word (g.cfg.toNat + g.state * 2 ^ 16 + g.fcode * 2 ^ 24 + g.pos * 2 ^ 32)

/-- One doubleword of a stream's entry written: STATE and FCODE are read only, and a write while ACTIVE is ignored (R333). -/
def GStream.write (g : GStream) (j : Nat) (v : Word) : GStream :=
  if g.active then g
  else if j = 0 then { g with idxaddr := v }
  else if j = 1 then { g with dbase := v }
  else if j = 2 then { g with spoff := v.truncate 32, count := v.extractLsb' 32 32 }
  else { g with cfg := v.truncate 16, pos := wfld v 63 32 }

/-- GE_ACTIVE. -/
def Station.geActive (s : Station) : Nat :=
  (List.range 64).foldl (fun m k => if (s.stream k).active then setBit m k true else m) 0

/-- A read of the GE_ page. -/
def Station.geRead (s : Station) (off : Nat) : Word :=
  if off = 8 then word s.geActive
  else if off = 0x10 then s.geDone
  else if off = 0x18 then s.geFault
  else if 0x100 ≤ off ∧ off < 0x900 then (s.stream ((off - 0x100) / 32)).read ((off - 0x100) % 32 / 8)
  else if 0x900 ≤ off ∧ off < 0xB00 then s.geFaddr.getD ((off - 0x900) / 8) 0
  else 0

/-- A write of the GE_ page by a thread in a ring (R333, R335, R338). -/
def Station.geWrite (s : Station) (off : Nat) (v : Word) (thr ring : Nat) : Station :=
  if off = 0 then
    (let k := wfld v 5 0
     if wfld v 9 8 = 1 then s.geBegin k true thr ring
     else if wfld v 9 8 = 2 then s.geBegin k false thr ring
     else if wfld v 9 8 = 3 then s.geStop k else s)
  else if off = 0x10 then { s with geDone := s.geDone &&& ~~~v }
  else if 0x100 ≤ off ∧ off < 0x900 then
    (let k := (off - 0x100) / 32
     s.setStream k ((s.stream k).write ((off - 0x100) % 32 / 8) v))
  else s

/-! ### Elements -/

/-- Entries of the gather engine's TLB. -/
def geTlbSize : Nat := 64

/-- A translation of the gather engine in a ring, through its own TLB (R335, R336). -/
def Dev.geXlat (d : Dev) (n ring : Nat) (ak : AK) (va : Nat) : Dev × Xlat :=
  let x := (d.updStn n (fun s => { s with tlb := s.geTlb })).translate n ring ak .bulk va
  match x with
  | .ok _ e =>
    if (d.stn n).mmEn || e.siding.isSome then
      (d.updStn n (fun s =>
        let l := s.geTlb.filter (fun y => y.vpn != e.vpn) ++ [e]
        { s with geTlb := l.drop (l.length - geTlbSize) }), x)
    else (d, x)
  | .fault _ => (d, x)

/-- The stream the engine serves next: ACTIVE with an element to issue, in round-robin order after the last (R336). -/
def Station.geNext (s : Station) : Option Nat :=
  ((List.range 64).map (fun j => (s.geLast + 1 + j) % 64)).find? (fun k =>
    let g := s.stream k
    g.active && g.ends.isNone && decide (g.pos < g.count.toNat))

/-- A stream stops at its present element with a code and an address (R336). -/
def Dev.geFail (d : Dev) (n k code : Nat) (a : Word) : Dev :=
  d.updStn n (fun s => { s.setStream k { s.stream k with ends := some (3, code, a) } with geLast := k })

/-- A stream stops at an uncorrectable error, which is recorded (R337, R497). -/
def Dev.geData (d : Dev) (n k : Nat) (a : Word) : Dev := (d.event 2 1 4 (n * 64 + k) a.toNat false).geFail n k 0x12 a

/-- An element is done. -/
def Dev.geDid (d : Dev) (n k : Nat) : Dev :=
  d.updStn n (fun s => { s.setStream k { s.stream k with pos := (s.stream k).pos + 1 } with geLast := k })

/-- The data access of element i of stream k at its resolved place (R334, R336, R337); `err` is an uncorrectable error
found in the data read. -/
def Dev.geAccess (d : Dev) (n k : Nat) (a : Word) (pa : Nat) (e : TlbE) (err : Bool) : Dev :=
  let g := (d.stn n).stream k
  let off := g.spoff.toNat + g.pos * g.size
  if g.scatter then
    let d1 := if err then d.poisonAt (scratchPa n off) else d
    let (bs, bad) := d1.readLoc (TlbE.phys 0) (scratchPa n off) g.size
    if bad then d1.geData n k a
    else
      let (d2, bad2) := d1.writeLoc e pa bs
      if bad2 then d2.geData n k a else d2.geDid n k
  else
    let d1 := if err then d.poisonAt pa else d
    let (bs, bad) := d1.readLoc e pa g.size
    if bad then d1.geData n k a
    else (d1.updStn n (fun s => s.spWrite off bs)).geDid n k

/-- One element of the stream served next (R334, R336, R337). An access to a scratchpad that is not ON starts its wake and
waits (R317). -/
def Dev.geElement (d : Dev) (n : Nat) (err : Bool) : Dev :=
  match (d.stn n).geNext with
  | none => d
  | some k =>
    let g := (d.stn n).stream k
    let ia := g.idxaddr + word (g.pos * (g.iw / 8))
    match d.geXlat n g.ring .load ia.toNat with
    | (d1, .fault c) => d1.geFail n k c ia
    | (d1, .ok ipa ie) =>
      let wake := d1.sleeping [(ipa, ie), (scratchPa n 0, TlbE.phys 0)]
      if wake ≠ [] then wake.foldl (fun u m => u.updStn m Station.startWake) d1
      else
        let (ibs, ibad) := d1.readLoc ie ipa (g.iw / 8)
        if ibad then d1.geData n k ia
        else
          let x := BitVec.ofInt 64 (sval g.iw (natLE ibs))
          let a : Word := g.dbase + x * (if g.ix then word g.size else 1)
          if a.toNat % g.size ≠ 0 then d1.geFail n k 3 a
          else match d1.geXlat n g.ring (if g.scatter then .store else .load) a.toNat with
            | (d2, .fault c) => d2.geFail n k c a
            | (d2, .ok pa e) =>
              let wake2 := d2.sleeping [(pa, e)]
              if wake2 ≠ [] then wake2.foldl (fun u m => u.updStn m Station.startWake) d2
              else d2.geAccess n k a pa e err

/-- A stream leaves ACTIVE: after its last element, at a failing element, or stopped (R338). -/
def Dev.geEnd (d : Dev) (n k : Nat) : Dev :=
  let g := (d.stn n).stream k
  if !g.active then d
  else
    let fin : Option (Nat × Nat × Word) :=
      match g.ends with
      | some x => some x
      | none => if g.count.toNat ≤ g.pos then some (2, 0, 0) else none
    match fin with
    | none => d
    | some (st, fc, fa) =>
      let st' := if st = 4 ∧ g.count.toNat ≤ g.pos then 2 else st
      let d1 := d.updStn n (fun s => s.endStream k st' fc fa)
      if g.irq then d1.setIpend n ⟨g.thr % 4, Nat.mod_lt _ (by decide)⟩ 3 else d1

/-! ### The scratchpad power register -/

/-- SP_PWR. -/
def Station.spPwr (s : Station) : Word := word (s.spTarget.toNat + s.spState.toNat * 256)

/-- A write of SP_PWR.TARGET: 0b11 is ignored; ON while RETAIN or OFF starts a wake; RETAIN or OFF during a wake does not
interrupt it (R316, R317). -/
def Station.spPwrWrite (s : Station) (v : Word) : Station :=
  let t := wfld v 1 0
  if t = 3 then s
  else
    let s1 := { s with spTarget := BitVec.ofNat 2 t }
    if t = 0 ∧ (s.spState = 1 ∨ s.spState = 2) then { s1 with spState := 3 } else s1

end Sys2Proof.Machine
end

