-- ==== Sys2Proof/Machine/Mmu.lean ====
section
/-! DEFINITION. The MM_, FT_ and CA_ registers, the feature registers of the device, and the CXL ports (R326, R344, R353 to
R355, R361 to R368). -/

namespace Sys2Proof.Machine

/-! ### MM_ (R354, R355) -/

/-- Every TLB of a station and of its gather engine drops every entry. -/
def Station.flushTlb (s : Station) : Station := { s with tlb := [], geTlb := [] }

/-- MM_ROOT. -/
def Station.mmRoot (s : Station) : Word := word (s.mmBase.toNat * 0x1000 + b2n s.mmEn)

/-- A write of MM_ROOT (R355). -/
def Station.mmRootWrite (s : Station) (v : Word) : Station :=
  { s with mmBase := v.extractLsb' 12 36, mmEn := wbit v 0 }.flushTlb

/-- A TLB entry translates a 4 KiB page, whatever its own size (R354). -/
def TlbE.covers (e : TlbE) (vpn : Nat) : Bool := e.vpn / e.span == vpn / e.span

/-- A station drops the entries a write of MM_TLBINV names. -/
def Station.tlbInv (s : Station) (v : Word) : Station :=
  if wbit v 0 then s.flushTlb
  else
    let vpn := wfld v 47 12
    { s with tlb := s.tlb.filter (fun e => !e.covers vpn), geTlb := s.geTlb.filter (fun e => !e.covers vpn) }

/-- A write of MM_TLBINV at station n: this station, or every present station (R354). -/
def Dev.tlbInvWrite (d : Dev) (n : Nat) (v : Word) : Dev :=
  if wbit v 1 then (List.range 128).foldl (fun u k => if u.present k then u.updStn k (fun s => s.tlbInv v) else u) d
  else d.updStn n (fun s => s.tlbInv v)

/-! ### FT_ (R361, R363, R366, R368) -/

/-- FT_SMBASE. -/
def MemSys.ftSmbase (m : MemSys) : Word := word (m.smBase + b2n m.smEn)

/-- A write of FT_SMBASE: a base above the last that fits GDDR7 is ignored as a whole (R363). Bits 26:1 are reserved. -/
def MemSys.ftSmbaseWrite (m : MemSys) (v : Word) : MemSys :=
  let b := wfld v 47 27 * 0x8000000
  if b ≤ 0x2FF8000000 then { m with smBase := b, smEn := wbit v 0 } else m

/-- The siding windows' dirty lines are discarded: each such line holds undefined bytes (R366, log entry 5). -/
def MemSys.discard (m : MemSys) (siding : Nat → Nat) (draw : Nat) (l : Nat) : MemSys :=
  let off := l * 128 - 0x100000000000
  let e := siding off
  let (p, a) := sidingPort e off
  match m.sidingKey e with
  | some k => m.farWrite k p a ((List.range 128).map (fun i => Config.freeByte draw (l * 128 + i)))
  | none => m

/-- A siding entry's index covers a far-tier line. -/
def lineIn (all : Bool) (i l : Nat) : Bool := all || (l * 128 - 0x100000000000) / 0x80000 == i

/-- A TLB entry came from siding entry i, or from any. -/
def TlbE.fromSiding (all : Bool) (i : Nat) (e : TlbE) : Bool :=
  e.siding.isSome && (all || (e.base - 0x100000000000) / 0x80000 == i)

/-- A write of FT_INVAL (R366). The windows' lines are written back or, without WB, discarded. -/
def Dev.ftInval (d : Dev) (v : Word) : Dev :=
  let all := wbit v 27
  let i := wfld v 26 0
  if !all && decide (2 ^ 24 ≤ i) then d
  else
    let gone := d.mem.dirty.filter (lineIn all i)
    let m1 : MemSys := { d.mem with dirty := d.mem.dirty.filter (fun l => !lineIn all i l) }
    let m2 := if wbit v 28 then m1 else gone.foldl (fun m l => m.discard d.sidingAt d.free l) m1
    let drop (l : List TlbE) : List TlbE := l.filter (fun e => !e.fromSiding all i)
    { d with mem := m2, free := if wbit v 28 then d.free else d.free + 1,
             stns := d.stns.mapVal (fun _ s => { s with tlb := drop s.tlb, geTlb := drop s.geTlb }) }

/-- A CXL port goes down: accesses through it fail from now on, and the event is recorded (R368, R487, R497). -/
def Dev.cxlDown (d : Dev) (p : Nat) : Dev :=
  if !d.mem.portUp p then d
  else ({ d with mem := { d.mem with ports := d.mem.ports.set p (word (setBit (d.mem.ports.getD p 0).toNat 0 false)) } }).event
    7 1 4 p 0 false

/-- A CXL port finishes bring-up: UP with the device found, or UNSUP, which is recorded (R361, R497). -/
def Dev.cxlUp (d : Dev) (p : Nat) (sw dcd gpf : Bool) (width : Nat) (unsup : Bool) : Dev :=
  if d.mem.portUp p then d
  else if unsup then
    ({ d with mem := { d.mem with ports := d.mem.ports.set p (word (2 ^ 11)) } }).event 7 2 0 p 0 false
  else
    let st := word (1 + width % 16 * 2 + b2n gpf * 2 ^ 8 + b2n dcd * 2 ^ 9 + b2n sw * 2 ^ 10)
    { d with mem := { d.mem with ports := d.mem.ports.set p st } }

/-- A read of the FT_ page. -/
def MemSys.ftRead (m : MemSys) (off : Nat) : Word :=
  if off = 0 then m.ftSmbase
  else if 0x20 ≤ off ∧ off < 0x40 then m.ports.getD ((off - 0x20) / 8) 0
  else 0

/-- A write of the FT_ page. -/
def Dev.ftWrite (d : Dev) (off : Nat) (v : Word) : Dev :=
  if off = 0 then { d with mem := d.mem.ftSmbaseWrite v } else if off = 8 then d.ftInval v else d

/-! ### CA_ (R326, R330) -/

/-- A read of the CA_ page. -/
def MemSys.caRead (m : MemSys) (off : Nat) : Word :=
  if off < 0x80 then m.wmask.getD (off / 8) 0xFFFFFFFF else if off = 0x80 then word m.pfctl.toNat else 0

/-- A write of the CA_ page. -/
def MemSys.caWrite (m : MemSys) (off : Nat) (v : Word) : MemSys :=
  if off < 0x80 then { m with wmask := m.wmask.set (off / 8) (zext 32 v) }
  else if off = 0x80 then { m with pfctl := v.truncate 4 } else m

/-! ### FEAT_ of the device (R344, R287) -/

/-- FEAT_DEV0. -/
def featDev0 : Word := word (0x01 * 2 ^ 56 + Config.stepping.toNat * 2 ^ 48 + 0x18 * 2 ^ 40 + 4 * 2 ^ 36 + 4 * 2 ^ 32
  + 0x10 * 2 ^ 24 + 0xC * 2 ^ 16 + 0x80)

/-- FEAT_DEV1. -/
def featDev1 : Word := word (8 * 2 ^ 56 + 0x20 * 2 ^ 48 + 0x400 * 2 ^ 32 + 0xC0 * 2 ^ 16 + 0x18 * 2 ^ 8)

/-- FEAT_DEV2. -/
def featDev2 : Word := word (0x400 * 2 ^ 48 + 0x10 * 2 ^ 40 + 0x10 * 2 ^ 32 + 2 ^ 24 + 2 ^ 16 + 2 ^ 8 + 0x10)

/-- A read of the device's FEAT_ page. -/
def featRead (off : Nat) : Word :=
  if off = 0 then featDev0 else if off = 8 then featDev1 else if off = 0x10 then featDev2 else 0

end Sys2Proof.Machine
end

