-- ==== Sys2Proof/Machine/TtRegs.lean ====
section
/-! DEFINITION. The registers of the timetable unit (02_timetable.md) and of the coupling (16_coupling_and_the_staff.md). -/

namespace Sys2Proof.Machine

/-! ### The phase table (R32, R39, R48) -/

/-- START_TICK of a phase. -/
def Tt.startOf (t : Tt) (k : Nat) : Nat := wfld (t.phases.getD (2 * k) 0) 31 0

/-- DEADLINE_TICK of a phase. -/
def Tt.deadlineOf (t : Tt) (k : Nat) : Nat := wfld (t.phases.getD (2 * k) 0) 63 32

/-- The second word of a phase entry. -/
def Tt.word1 (t : Tt) (k : Nat) : Word := t.phases.getD (2 * k + 1) 0

/-- KIND of a phase. -/
def Tt.kindOf (t : Tt) (k : Nat) : Nat := wfld (t.word1 k) 3 0

/-- A phase of kind IDLE. -/
def Tt.isIdle (t : Tt) (k : Nat) : Bool := t.kindOf k == 5

/-- SQ_MASK of a phase. -/
def Tt.sqMask (t : Tt) (k : Nat) : Nat := wfld (t.word1 k) 31 16

/-- TAG of a phase. -/
def Tt.tagOf (t : Tt) (k : Nat) : Nat := wfld (t.word1 k) 47 32

/-- Phase k of a table of n phases meets R32 (but for LEN), R39 and R48. -/
def Tt.phaseOk (t : Tt) (n k : Nat) : Bool :=
  decide (t.startOf k < t.deadlineOf k) && decide (t.kindOf k ≤ 5)
    && wfld (t.word1 k) 7 4 == 0 && wfld (t.word1 k) 15 9 == 0 && wfld (t.word1 k) 63 48 == 0
    && (decide (n ≤ k + 1) || decide (t.deadlineOf k ≤ t.startOf (k + 1)))

/-- The lowest failing phase index of the table check; a failing NPHASE or LEN reports 63 (R32). -/
def Tt.tableBad (t : Tt) : Option Nat :=
  if t.nphase < 1 ∨ 64 < t.nphase then some 63
  else match (List.range t.nphase).find? (fun k => !t.phaseOk t.nphase k) with
    | some k => some k
    | none => if t.len < t.deadlineOf (t.nphase - 1) then some 63 else none

/-! ### States -/

/-- The timetable is IDLE or HELD (R29, R30). -/
def Tt.free (t : Tt) : Bool := t.state == 0 || t.state == 5

/-- A bit of TT_ERR set. -/
def Tt.setErr (t : Tt) (i : Nat) : Tt := { t with err := BitVec.ofNat 7 (setBit t.err.toNat i true) }

/-- A write that only IDLE and HELD allow: refused in another state with TT_ERR.BUSY (R29, R30, R48). -/
def Tt.whenFree (t : Tt) (f : Tt → Tt) : Tt := if t.free then f t else t.setErr 3

/-! ### Reads -/

/-- TT_CTRL. -/
def Tt.ctrl (t : Tt) : Word := word (b2n t.enable + b2n t.lateAlert * 2 + t.role.toNat * 16)

/-- TT_STATE. -/
def Tt.stateReg (t : Tt) : Word := word (t.state.toNat + t.reason.toNat * 16 + t.phase.toNat * 256)

/-- TT_REC_CTRL. -/
def Tt.recCtrl (t : Tt) : Word := word (t.log2n + b2n t.recEn * 256 + t.recSeq * 2 ^ 32)

/-- TT_CPL. -/
def Tt.cpl (t : Tt) : Word :=
  word (t.cplParent + t.cplDepth * 2 ^ 8 + t.cplChild.toNat * 2 ^ 24 + t.cplMaster * 2 ^ 48)

/-- TT_CSTAT. -/
def Tt.cstat (t : Tt) : Word := word (t.misses + t.nMiss * 2 ^ 32 + t.lowMiss * 2 ^ 48)

/-- A read of the TT_ page. -/
def Tt.read (t : Tt) (off : Nat) : Word :=
  if off = 0x000 then t.ctrl
  else if off = 0x008 then t.stateReg
  else if off = 0x010 then word t.period
  else if off = 0x018 then word t.tick
  else if off = 0x020 then word (t.len + t.nphase * 2 ^ 32)
  else if off = 0x028 then word t.cycnum
  else if off = 0x038 then word t.lead
  else if off = 0x040 then word t.recBase
  else if off = 0x048 then t.recCtrl
  else if off = 0x050 then word (t.err.toNat + t.errIdx * 256)
  else if off = 0x080 then t.cpl
  else if off = 0x088 then word (b2n t.hold * 2 + t.leaseLen * 2 ^ 16 + t.epoch * 2 ^ 32)
  else if off = 0x090 then word t.expiry
  else if off = 0x0A0 then t.cstat
  else if off = 0x0A8 then word t.lastRx
  else if off = 0x0B0 then word t.cerr.toNat
  else if 0x400 ≤ off ∧ off < 0x800 then t.phases.getD ((off - 0x400) / 8) 0
  else 0

/-! ### Writes -/

/-- ENABLE: 1 in IDLE checks the table and starts a cycle at the next boundary; 0 stops at the end of the cycle (R32,
R434). -/
def Tt.enableWrite (t : Tt) (b : Bool) : Tt :=
  if !b then { t with enable := false }
  else if t.state ≠ 0 then { t with enable := true }
  else match t.tableBad with
    | some k => { t.setErr 5 with errIdx := k }
    | none =>
      let s : Sched := { t.sched with active := true, first := true, running := false, cyc := t.cycnum }
      { t with enable := true, state := 1, sched := s, plan := s }

/-- The first boundary at least TT_HALT_LEAD away (R46). -/
def Tt.resumeTick (t : Tt) (now : Nat) : Nat :=
  t.tick + max 1 ((now + t.lead * usU - t.lastB + t.curPeriod * nsU - 1) / (t.curPeriod * nsU))

/-- A write of TT_CTRL.RESUME: a held standalone device without CFATAL resumes (R46, R489). -/
def Dev.ttResume (d : Dev) : Dev :=
  if d.tt.state = 5 ∧ d.tt.role = 0 ∧ !d.cfatal then { d with tt := { d.tt with resume := some (d.tt.resumeTick d.now) } }
  else d

/-- A write of TT_CTRL.HALT is a halt request with reason REG_HALT (R40). -/
def Dev.ttHalt (d : Dev) : Dev := d.haltRequest 6

/-- A write of TT_CTRL. -/
def Dev.ttCtrl (d : Dev) (v : Word) : Dev :=
  let t1 := { d.tt with lateAlert := wbit v 1 }
  let d1 := { d with tt := if wbit v 0 == t1.enable then t1 else t1.enableWrite (wbit v 0) }
  let d2 := if wbit v 6 then d1.ttHalt else d1
  if wbit v 7 then d2.ttResume else d2

/-- A write of TT_PERIOD (R29). -/
def Tt.periodWrite (t : Tt) (v : Word) : Tt :=
  t.whenFree (fun t =>
    let p := wfld v 29 0
    if 100000 ≤ p ∧ p ≤ 1000000000 then { t with period := p } else t.setErr 4)

/-- A write of TT_DONE: the index of the running phase declares it done; another index sets DONE_BAD (R35). -/
def Tt.doneWrite (t : Tt) (v : Word) : Tt :=
  if t.inPhase && t.ended.isNone && wfld v 5 0 == t.phase.toNat then { t with done := true } else t.setErr 6

/-- A write of TT_REC_CTRL: EN in any state, LOG2N while IDLE or HELD; the ring restarts at position 0 (R30). -/
def Tt.recCtrlWrite (t : Tt) (v : Word) : Tt :=
  let t1 := { t with recEn := wbit v 8 }
  if t1.free then { t1 with log2n := wfld v 4 0, recPos := 0 }
  else if wfld v 4 0 = t1.log2n then t1 else t1.setErr 3

/-- A write of TT_CPL. -/
def Tt.cplWrite (t : Tt) (v : Word) : Tt :=
  t.whenFree (fun t => { t with cplParent := wfld v 4 0, cplDepth := wfld v 11 8, cplChild := v.extractLsb' 24 24,
                                cplMaster := wfld v 63 48 })

/-- A write of the TT_ page (R29, R30, R46, R48, R429). -/
def Dev.ttWrite (d : Dev) (off : Nat) (v : Word) : Dev :=
  let t := d.tt
  let put (t' : Tt) : Dev := { d with tt := t' }
  if off = 0x000 then d.ttCtrl v
  else if off = 0x010 then put (t.periodWrite v)
  else if off = 0x020 then put (t.whenFree (fun t => { t with len := wfld v 31 0, nphase := wfld v 38 32 }))
  else if off = 0x030 then put (t.doneWrite v)
  else if off = 0x038 then
    put (t.whenFree (fun t => if 1 ≤ wfld v 8 0 ∧ wfld v 8 0 ≤ 500 then { t with lead := wfld v 8 0 } else t))
  else if off = 0x040 then put (t.whenFree (fun t => { t with recBase := wfld v 47 6 * 64, recPos := 0 }))
  else if off = 0x048 then put (t.recCtrlWrite v)
  else if off = 0x050 then put { t with err := t.err &&& ~~~(v.truncate 7) }
  else if off = 0x080 then put (t.cplWrite v)
  else if off = 0x088 then put { t with leaseLen := if wfld v 31 16 = 0 then t.leaseLen else wfld v 31 16 }
  else if off = 0x0B0 then put { t with cerr := t.cerr &&& ~~~(v.truncate 5) }
  else if 0x400 ≤ off ∧ off < 0x800 then
    put (t.whenFree (fun t => { t with phases := t.phases.set ((off - 0x400) / 8) v }))
  else d

end Sys2Proof.Machine
end

