-- ==== Sys2Proof/Machine/Junction.lean ====
section
/-! DEFINITION. The links' registers and transmit side, and the junction's routing and registers (15_links_and_junction.md). -/

namespace Sys2Proof.Machine

/-- LK_CTRL. -/
def Link.ctrl (k : Link) : Word := word (b2n k.en + 2 * b2n k.arm)

/-- LK_STAT. -/
def Link.stat (k : Link) : Word :=
  word (k.state.toNat + b2n k.recov * 2 ^ 6 + b2n k.overflow * 2 ^ 7 + k.vmin * 2 ^ 24 + k.vmaj * 2 ^ 28
    + k.retired.toNat * 2 ^ 32 + k.lanes.toNat * 2 ^ 40 + k.peer * 2 ^ 48)

/-- A read of an LK_ page. -/
def Link.read (k : Link) (off : Nat) : Word :=
  if off = 0 then k.ctrl
  else if off = 8 then k.stat
  else if off = 0x10 then word (k.exhaust + k.fail * 2 ^ 16 + k.replay * 2 ^ 32)
  else if off = 0x18 then word k.lat
  else 0

/-- A link reset: DOWN, the replay buffer discarded, LK_CNT and RECOV cleared, every lane back to training (R404, R408,
R558). -/
def Link.resetLink (k : Link) : Link :=
  { Link.reset with en := k.en, arm := k.arm, signal := k.signal, overflow := k.overflow, lat := k.lat }

/-- A link that is enabled, in DOWN and detects signal starts EQUALISE (R401). -/
def Link.tryTrain (now : Nat) (k : Link) : Link :=
  if k.en && k.signal && k.state == 0 then { k with state := 1, trained := 0, unusable := 0, since := now } else k

/-! ### Reduction trees (R418, R424) -/

/-- LOCAL of a group. -/
def RedGrp.localOp (g : RedGrp) : Bool := g.cfg.getLsbD 49

/-- NCHILD. -/
def RedGrp.nchild (g : RedGrp) : Nat := fld g.cfg.toNat 48 45

/-- PARENT; 0x1F at the root. -/
def RedGrp.parent (g : RedGrp) : Nat := fld g.cfg.toNat 44 40

/-- CHILDi. -/
def RedGrp.child (g : RedGrp) (i : Nat) : Nat := fld g.cfg.toNat (5 * i + 4) (5 * i)

/-- The links of the children. -/
def RedGrp.children (g : RedGrp) : List Nat := (List.range g.nchild).map g.child

/-- The node is the root of its tree. -/
def RedGrp.isRoot (g : RedGrp) : Bool := g.parent == 0x1F

/-- Reduction group g. -/
def Junction.grp (j : Junction) (g : Nat) : RedGrp := j.groups.getD g RedGrp.reset

/-- A group replaced. -/
def Junction.setGrp (j : Junction) (g : Nat) (x : RedGrp) : Junction := { j with groups := j.groups.set g x }

/-- A group of the junction changed. -/
def Dev.updGrp (d : Dev) (g : Nat) (f : RedGrp → RedGrp) : Dev := { d with jn := d.jn.setGrp g (f (d.jn.grp g)) }

/-- The running instance of a group changed. -/
def Dev.updInst (d : Dev) (g : Nat) (f : RedInst → RedInst) : Dev :=
  d.updGrp g (fun x => { x with inst := x.inst.map f })

/-- A RED flit of an instance (R423). -/
def Dev.redFlit (d : Dev) (g : Nat) (i : RedInst) (down abort : Bool) (chunk status : Nat) (payload : List Byte) : Flit :=
  d.mkFlit 7 2 0 false (bytesLE 1 g ++ bytesLE 1 (b2n down + 2 * b2n abort) ++ bytesLE 2 0 ++ bytesLE 4 i.seq
    ++ bytesLE 4 chunk ++ bytesLE 1 i.op ++ bytesLE 1 i.fmt ++ bytesLE 1 i.wire ++ bytesLE 1 status ++ payload)

/-- ABORT goes to the parent and the children of a group's node, with the status that ended its instance (R424). -/
def Dev.redAbort (d : Dev) (g : Nat) (i : RedInst) (status : Nat) : Dev :=
  let x := d.jn.grp g
  let fl := d.redFlit g i false true 0 status []
  ((if x.isRoot then [] else [x.parent]) ++ x.children).foldl (fun u l => u.toTree l fl) d

/-- A tree uses a link. -/
def RedGrp.uses (g : RedGrp) (l : Nat) : Bool := g.parent == l || g.children.contains l

/-- The instance of group g fails with REMOTE where its tree uses a link that has left UP (R424). -/
def Dev.treeLost (l : Nat) (d : Dev) (g : Nat) : Dev :=
  let x := d.jn.grp g
  match x.inst with
  | none => d
  | some i =>
    if x.uses l && i.fin.isNone then
      (d.redAbort g i 0x11).updInst g (fun i => { i with fin := some ⟨0x11, 0, i.done, 0⟩ })
    else d

/-- A link has left UP or entered RETIRED. -/
def Dev.linkLost (d : Dev) (l : Nat) : Dev := (List.range 16).foldl (Dev.treeLost l) d

/-- A link reset of link l (R558). -/
def Dev.linkReset (d : Dev) (l : Nat) : Dev :=
  let d1 := d.updLink l (fun k => (k.resetLink).tryTrain d.now)
  if (d.link l).isUp then d1.linkLost l else d1

/-- A link returns to DOWN when its EN is cleared. -/
def Dev.linkDisable (d : Dev) (l : Nat) : Dev :=
  let d1 := d.updLink l (fun k => { k.resetLink with en := false })
  if (d.link l).isUp then d1.linkLost l else d1

/-- A write of LK_CTRL. -/
def Dev.lkCtrl (d : Dev) (l : Nat) (v : Word) : Dev :=
  let was := (d.link l).en
  let d1 := d.updLink l (fun k => { k with arm := wbit v 1, en := wbit v 0 })
  let d2 := if wbit v 2 then d1.linkReset l else d1
  if wbit v 0 then d2.updLink l (Link.tryTrain d.now) else if was then d2.linkDisable l else d2

/-- A write of an LK_ page. -/
def Dev.lkWrite (d : Dev) (l off : Nat) (v : Word) : Dev :=
  if off = 0 then d.lkCtrl l v
  else if off = 8 then d.updLink l (fun k => { k with overflow := k.overflow && !wbit v 7, recov := k.recov && !wbit v 6 })
  else d

/-! ### Routing -/

/-- The route of a destination, if its link is UP (R409, R410). -/
def Dev.routeOf (d : Dev) (dst : Nat) : Option Nat :=
  let p := d.jn.routes.getD dst 0x1F
  if p < 24 ∧ (d.link p).isUp then some p else none

/-- A flit is delivered to this device's endpoints. -/
def Dev.toInbox (d : Dev) (l : Nat) (f : Flit) : Dev :=
  { d with jn := { d.jn with inbox := d.jn.inbox ++ [(l, d.now, f)] } }

/-- A counter of JN_ERR, 16 bits, wrapping. -/
def bump16 (n : Nat) : Nat := (n + 1) % 65536

/-- The memory prefix and data of a RESP (R396). -/
def respData (addr txn n status : Nat) (bs : List Byte) : List Byte :=
  bytesLE 8 addr ++ bytesLE 2 txn ++ bytesLE 1 (n - 1) ++ bytesLE 1 status ++ bytesLE 4 0 ++ bs

/-- A flit is sent toward its destination: this device, a link, or nowhere (R409, R410). -/
def Dev.sendFlit (d : Dev) (f : Flit) : Dev :=
  if f.dst.toNat = d.jn.devid then d.toInbox 0x1F f
  else match d.routeOf f.dst.toNat with
    | some l => d.toLink l f
    | none => { d with jn := { d.jn with noRoute := bump16 d.jn.noRoute } }

/-- The request of a flit awaits a RESP: RDREQ, or WRREQ that is not posted (R396). -/
def wantsResp (f : Flit) : Bool := f.kind == 4 || (f.kind == 5 && f.tc == 3)

/-- A RESP to a request flit, where its source can be reached (R397, R410, R416). -/
def Dev.refuse (d : Dev) (f : Flit) (status : Nat) : Dev :=
  if !wantsResp f then d
  else
    let r := d.mkFlit 6 4 f.src.toNat false (respData (flitU f 12 8) (flitU f 20 2) (flitU f 22 1 + 1) status [])
    if f.src.toNat = d.jn.devid then d.toInbox 0x1F r
    else match d.routeOf f.src.toNat with
      | some l => d.toLink l r
      | none => d

/-- A flit that has no route is discarded and counted, and a request is answered NO_ROUTE (R410). -/
def Dev.forward (d : Dev) (f : Flit) : Dev :=
  match d.routeOf f.dst.toNat with
  | some l => d.toLink l f
  | none => ({ d with jn := { d.jn with noRoute := bump16 d.jn.noRoute } }).refuse f 0x80

/-- A reserved bit of DATA is nonzero (R396, R423, R428, R431, R441). -/
def dataRsv (f : Flit) : Bool :=
  if f.kind = 2 then
    (if flitU f 12 1 = 2 then decide (8 ≤ flitU f 13 1) || flitU f 44 208 != 0
     else decide (16 ≤ flitU f 13 1) || flitU f 15 1 != 0 || flitU f 46 206 != 0)
  else if f.kind = 3 then flitU f 22 6 != 0
  else if f.kind = 4 ∨ f.kind = 5 ∨ f.kind = 6 then flitU f 18 2 != 0 || flitU f 24 4 != 0
  else if f.kind = 7 then decide (4 ≤ flitU f 13 1) || flitU f 14 2 != 0
  else false

/-- A flit fails the checks of R397. -/
def flitBad (vmaj : Nat) (f : Flit) : Bool :=
  decide (8 ≤ f.kind.toNat) || decide (f.kind.toNat < 2) || decide (6 ≤ f.tc.toNat) || f.rsv || dataRsv f || f.ver.toNat != vmaj

/-- The junction takes a flit that link l passed to it: it is discarded, delivered or forwarded (R397, R409, R416). -/
def Dev.junction (d : Dev) (l : Nat) (f : Flit) : Dev :=
  if flitBad (d.link l).vmaj f then
    (({ d with jn := { d.jn with fmtErr := bump16 d.jn.fmtErr } }).event 9 1 0 l 0 false).refuse f 0x01
  else if f.dst.toNat = d.jn.devid then
    if f.sys || (d.isBound && f.consist.toNat == d.consist) then d.toInbox l f
    else
      (({ d with jn := { d.jn with tagErr := bump16 d.jn.tagErr } }).event 9 2 0 l
        (f.src.toNat + f.consist.toNat * 65536) false).refuse f (if f.kind = 4 then 0x08 else 0x0A)
  else d.forward f

/-- A request this device originates: one without a route is answered NO_ROUTE to itself (R409, R410). -/
def Dev.request (d : Dev) (f : Flit) : Dev :=
  if f.dst.toNat = d.jn.devid then d.toInbox 0x1F f else d.forward f

/-! ### JN_ registers -/

/-- The route entry JN_RTADDR selects. -/
def Junction.rtEntry (j : Junction) : Nat := j.routes.getD j.rtId 0x1F

/-- JN_RTADDR.ID after an access of JN_RTDATA (R410 registers). -/
def Junction.rtAdvance (j : Junction) : Junction := if j.rtInc then { j with rtId := (j.rtId + 1) % 65536 } else j

/-- A load of JN_RTDATA. -/
def Junction.rtRead (j : Junction) : Junction × Word := (j.rtAdvance, word j.rtEntry)

/-- A store to JN_RTDATA: a value that names no link is stored as 0x1F. -/
def Junction.rtWrite (j : Junction) (v : Word) : Junction :=
  let p := if wfld v 4 0 < 24 then wfld v 4 0 else 0x1F
  ({ j with routes := if p = 0x1F then j.routes.drop j.rtId else j.routes.set j.rtId p }).rtAdvance

/-- JN_ERR. -/
def Junction.errReg (j : Junction) : Word := word (j.noRoute * 2 ^ 16 + j.tagErr * 2 ^ 32 + j.fmtErr * 2 ^ 48)

/-- JN_RSTATg. -/
def RedGrp.stat (g : RedGrp) : Word :=
  let done := match g.inst with
    | some i => i.done
    | none => g.done
  word (done + (if g.inst.isSome then 1 else g.status) * 2 ^ 32 + g.fcode * 2 ^ 40 + b2n g.inst.isSome * 2 ^ 48)

/-- A read of the JN_ page. -/
def Junction.read (j : Junction) (off : Nat) : Junction × Word :=
  if off = 0 then (j, word j.devid)
  else if off = 8 then (j, word (j.rtId + b2n j.rtInc * 2 ^ 16))
  else if off = 0x10 then j.rtRead
  else if off = 0x18 then (j, j.errReg)
  else if 0x100 ≤ off ∧ off < 0x180 then (j, word (j.grp ((off - 0x100) / 8)).cfg.toNat)
  else if 0x180 ≤ off ∧ off < 0x200 then (j, word (j.grp ((off - 0x180) / 8)).ctx.toNat)
  else if 0x200 ≤ off ∧ off < 0x280 then (j, word (j.grp ((off - 0x200) / 8)).addr)
  else if 0x280 ≤ off ∧ off < 0x300 then (j, (j.grp ((off - 0x280) / 8)).stat)
  else (j, 0)

/-- A write of JN_RCFGg: ignored while an instance runs, or with NCHILD above 8 (R418). -/
def RedGrp.cfgWrite (g : RedGrp) (v : Word) : RedGrp :=
  if g.inst.isSome || decide (8 < wfld v 48 45) then g else { g with cfg := v.truncate 50 }

/-- The bits a context register holds: STN, THR, RING, PHYS. -/
def ctxBits (v : Word) : BitVec 17 := (v.truncate 17) &&& 0x1FF37#17

end Sys2Proof.Machine
end

