-- ==== Sys2Proof/Machine/Shunter.lean ====
section
/-! DEFINITION. The shunters: registers, descriptors, the places of stream bytes, and the end of a transfer
(14_shunters_dma.md). The same places and checks serve the reductions of the junction (R419). -/

namespace Sys2Proof.Machine

/-! ### Channels -/

/-- Channel c of engine e. -/
def Dev.chan (d : Dev) (e c : Nat) : Chan := d.sh.chans.getD (e * 16 + c) Chan.reset

/-- A channel changed. -/
def Dev.updChan (d : Dev) (e c : Nat) (f : Chan → Chan) : Dev :=
  { d with sh := { d.sh with chans := d.sh.chans.set (e * 16 + c) (f (d.chan e c)) } }

/-- A channel is busy. -/
def Chan.busy (x : Chan) : Bool := x.mode != 0

/-- STN of a context. -/
def ctxStn (c : BitVec 17) : Nat := fld c.toNat 16 8

/-- THR of a context. -/
def ctxThr (c : BitVec 17) : Fin 4 := ⟨fld c.toNat 5 4 % 4, Nat.mod_lt _ (by decide)⟩

/-- RING of a context. -/
def ctxRing (c : BitVec 17) : Nat := fld c.toNat 2 1

/-- PHYS of a context. -/
def ctxPhys (c : BitVec 17) : Bool := c.getLsbD 0

/-! ### Places (R341, R375, R386) -/

/-- A region that a channel, a reduction or another device may reach: GDDR7, a present station's scratchpad, the far tier;
a host window only for this device's own channels (R373, R375, R390, R579). -/
def Dev.dmaMay (d : Dev) (own : Bool) (r : Region) : Bool :=
  d.exists_ r && (match r with
    | .gddr => true
    | .scratch _ _ => true
    | .far _ => true
    | .host _ => own
    | _ => false)

/-- The checks of a physical address after its page: the region, then for the far tier the siding entry (R363 to R365,
R375). -/
def Dev.dmaPhys (d : Dev) (own : Bool) (ak : AK) (e : TlbE) (pa : Nat) : Xlat :=
  if !d.dmaMay own (region pa) then .fault ak.acc
  else match region pa with
    | .far off => (match d.sidingWalk ak off with
      | .error c => .fault c
      | .ok x => if ak == .store && !bitOf x 2 then .fault ak.acc else .ok pa { e with siding := some x })
    | _ => .ok pa e

/-- The place of an address in a translation context (R375): physical, or through the page tables of its station with the
rights of its ring. No translation is held between accesses (log entry 13). -/
def Dev.dmaPlace (d : Dev) (ctx : BitVec 17) (ak : AK) (va : Nat) : Xlat :=
  if ctxPhys ctx then
    (if va ≥ 2 ^ 48 then .fault ak.acc else d.dmaPhys true ak (TlbE.phys va) va)
  else
    let n := ctxStn ctx
    if (d.stn n).mmEn && !canonical va then .fault ak.acc
    else match d.walkPage n ak va with
      | .error c => .fault c
      | .ok e =>
        if !e.allows (ctxRing ctx) ak then .fault ak.acc
        else d.dmaPhys true ak e (e.base + va % 0x1000)

/-- A remote access to a physical address (R390). -/
def Dev.remotePlace (d : Dev) (ak : AK) (pa : Nat) : Xlat :=
  if pa ≥ 2 ^ 48 then .fault ak.acc else d.dmaPhys false ak (TlbE.phys pa) pa

/-! ### Stream addresses (R382, R384) -/

/-- CLASS: 0 contiguous, 1 line, 2 tensor. -/
def Desc.cls (x : Desc) : Nat := fld x.ctl 1 0

/-- SWAP. -/
def Desc.swap (x : Desc) : Nat := fld x.ctl 4 2

/-- IRQ. -/
def Desc.irq (x : Desc) : Bool := bitOf x.ctl 5

/-- REMOTE: 0 none, 1 source, 2 destination. -/
def Desc.remote (x : Desc) : Nat := fld x.ctl 7 6

/-- ESZ. -/
def Desc.esz (x : Desc) : Nat := fld x.ctl 10 8

/-- An address field: 48 bits sign-extended (R381). -/
def addr48 (x : Nat) : Word := sext 48 (word x)

/-- The address of stream byte b on one side (R382): line length and stride, or the tensor steps, of that side. -/
def Desc.place (x : Desc) (base : Nat) (llen stride : Nat) (s0 s1 s2 : Nat) (b : Nat) : Word :=
  let i32 (v : Nat) : Word := BitVec.ofInt 64 (sval 32 v)
  if x.cls = 1 then addr48 base + word (b / llen) * i32 stride + word (b % llen)
  else if x.cls = 2 then
    let q := b / 2 ^ x.esz
    let n0 := fld x.param 15 0
    let n1 := fld x.param 31 16
    addr48 base + word (q % n0) * i32 s0 + word (q / n0 % n1) * i32 s1 + word (q / (n0 * n1)) * i32 s2
      + word (b % 2 ^ x.esz)
  else addr48 base + word b

/-- The source address of stream byte b. -/
def Desc.srcAt (x : Desc) (b : Nat) : Word :=
  x.place x.src (fld x.param 31 0) (fld x.param 63 32) (fld x.param 79 48) (fld x.param 111 80) (fld x.param 143 112) b

/-- The destination address of stream byte b. -/
def Desc.dstAt (x : Desc) (b : Nat) : Word :=
  x.place x.dst (fld x.param 127 96) (fld x.param 159 128) (fld x.param 175 144) (fld x.param 207 176) (fld x.param 239 208) b

/-- The swap unit in bytes; SWAP 0b110 and 0b111 have none (R384). -/
def swapUnit (m : Nat) : Option Nat :=
  if m = 0 then some 1 else if m = 1 then some 2 else if m = 2 ∨ m = 4 then some 4 else if m = 3 ∨ m = 5 then some 8
  else none

/-- π: the place within its unit of the source byte that destination byte i receives (R384). -/
def swapPi (m i : Nat) : Nat :=
  if m = 1 then 1 - i else if m = 2 then 3 - i else if m = 3 then 7 - i
  else if m = 4 then (i + 2) % 4 else if m = 5 then 6 - i / 2 * 2 + i % 2 else i

/-- The source stream byte of destination stream byte b. -/
def swapSrc (m b : Nat) : Nat :=
  let u := (swapUnit m).getD 1
  b - b % u + swapPi m (b % u)

/-! ### Checks (R383, R385) -/

/-- Check 1: version, reserved fields and codes of a descriptor. -/
def Desc.codesOk (x : Desc) : Bool :=
  fld x.ctl 15 14 == 1 && fld x.ctl 13 11 == 0 && x.clean && x.cls != 3 && (swapUnit x.swap).isSome && x.remote != 3
    && (x.remote != 0 || x.devid == 0) && (x.cls == 2 || x.esz == 0) && (x.cls != 0 || x.param == 0)
    && (x.cls != 1 || fld x.param 239 192 == 0)

/-- Check 4: the context's station is present and, while the device is bound, listed. -/
def Dev.ctxStnOk (d : Dev) (ctx : BitVec 17) : Bool := decide (ctxStn ctx < 128) && d.usable (ctxStn ctx)

/-- Checks 3 to 7. -/
def Dev.descOk (d : Dev) (ctx : BitVec 17) (x : Desc) : Bool :=
  let u := (swapUnit x.swap).getD 0
  (x.remote == 0 || (decide (ctxRing ctx ≤ 2) && x.devid != d.jn.devid)) && x.remote != 3 && d.ctxStnOk ctx
    && (x.cls != 1 || (decide (x.count ≤ fld x.param 31 0 * fld x.param 95 64)
          && decide (x.count ≤ fld x.param 127 96 * fld x.param 191 160)))
    && (x.cls != 2 || decide (x.count ≤ 2 ^ x.esz * fld x.param 15 0 * fld x.param 31 16 * fld x.param 47 32))
    && u != 0 && x.count % u == 0
    && (x.cls != 1 || (fld x.param 31 0 % u == 0 && fld x.param 127 96 % u == 0)) && (x.cls != 2 || decide (u ≤ 2 ^ x.esz))
    && x.next % 64 == 0

/-! ### Moving bytes (R374, R386) -/

/-- Why stream byte b of a transfer cannot be moved, and the address: its source or its destination fails, or its source
is uncorrectable. A remote side is not checked here (R390). -/
def Dev.byteFault (d : Dev) (ctx : BitVec 17) (x : Desc) (b : Nat) : Option Fin_ :=
  let s := x.srcAt b
  let t := x.dstAt b
  let src := if x.remote = 1 then none else some (d.dmaPlace ctx .load s.toNat)
  let dst := if x.remote = 2 then none else some (d.dmaPlace ctx .store t.toNat)
  let srcBad := match src with
    | some (.ok pa e) => (match region pa with
      | .host _ => false
      | _ => (d.readLoc e pa 1).2)
    | _ => false
  let dstBad := match dst with
    | some (.ok pa e) => (d.writeLoc e pa [0]).2
    | _ => false
  match src, dst with
  | some (.fault c), _ => some ⟨3, c, b, s⟩
  | _, some (.fault c) => some ⟨3, c, b, t⟩
  | _, _ => if srcBad then some ⟨0x10, 0x12, b, s⟩ else if dstBad then some ⟨0x10, 0x12, b, t⟩ else none

/-- The first of n stream bytes from b that cannot be moved. -/
def Dev.firstFault (d : Dev) (ctx : BitVec 17) (x : Desc) (b n : Nat) : Option Fin_ :=
  (upFrom b n).findSome? (d.byteFault ctx x)

/-- The source byte with stream number b: from memory, from what a host window or another device delivered. -/
def Dev.srcByte (d : Dev) (ctx : BitVec 17) (x : Desc) (data : List Byte) (b : Nat) : Byte :=
  if x.remote = 1 then data.getD b 0
  else match d.dmaPlace ctx .load (x.srcAt b).toNat with
    | .ok pa e => (match region pa with
      | .host _ => data.getD b 0
      | _ => (d.readLoc e pa 1).1.getD 0 0)
    | .fault _ => 0

/-- A host window's remote address, its queue pair and key (R448), for an offset in the windows' range. -/
def HostIf.windowAt (x : HostIf) (off : Nat) : Nat × Nat × Nat × Word :=
  let w := off / 2 ^ 32
  let p := x.port (w / 64)
  let b := (p.winb.getD (w % 64) 0).toNat
  (w / 64, fld b 41 32, fld b 31 0, p.wina.getD (w % 64) 0 + word (off % 2 ^ 32))

/-- A store to a host window: an RDMA WRITE on the window's queue pair (R448). -/
def Dev.hostStore (d : Dev) (off : Nat) (bs : List Byte) : Dev :=
  let (port, qp, rkey, a) := d.host.windowAt off
  d.emit (.rdmaWrite port qp rkey a bs)

/-- One destination byte is written. -/
def Dev.dstByte (ctx : BitVec 17) (x : Desc) (d : Dev) (p : Nat × Byte) : Dev :=
  match d.dmaPlace ctx .store (x.dstAt p.1).toNat with
  | .ok pa e => (match region pa with
    | .host off => d.hostStore off [p.2]
    | _ => (d.writeLoc e pa [p.2]).1)
  | .fault _ => d

/-- The places of this device's memory that a transfer reads. -/
def Dev.srcPlaces (d : Dev) (ctx : BitVec 17) (x : Desc) : List Nat :=
  if x.remote = 1 then []
  else (List.range x.count).filterMap (fun b => match d.dmaPlace ctx .load (x.srcAt b).toNat with
    | .ok pa _ => some pa
    | .fault _ => none)

/-- Destination byte i of a transfer is also a source byte of it (R374). -/
def Dev.overlaps (d : Dev) (ctx : BitVec 17) (x : Desc) (srcs : List Nat) (i : Nat) : Bool :=
  match d.dmaPlace ctx .store (x.dstAt i).toNat with
  | .ok pa _ => srcs.contains pa
  | .fault _ => false

/-- n stream bytes from b are moved: every source byte is read before any destination byte is written. A destination byte that is
also a source byte of the transfer takes a free value (R374). -/
def Dev.moveBytes (d : Dev) (ctx : BitVec 17) (x : Desc) (data : List Byte) (b n : Nat) : Dev :=
  let srcs := d.srcPlaces ctx x
  let exceeds := (upFrom b n).filter (d.overlaps ctx x srcs)
  let out := (upFrom b n).map (fun i =>
    (i, if exceeds.contains i then Config.freeByte d.free i else d.srcByte ctx x data (swapSrc x.swap i)))
  out.foldl (Dev.dstByte ctx x) { d with free := if exceeds.isEmpty then d.free else d.free + 1 }

/-! ### Starting and ending -/

/-- SH_DONE and the interrupt of a channel that ends (R377, R387). -/
def Dev.chanIrq (d : Dev) (ctx : BitVec 17) : Dev :=
  if (d.ctxStnOk ctx) then d.setIpend (ctxStn ctx) (ctxThr ctx) 2 else d

/-- A channel becomes idle with an end: SH_STAT, SH_FADDR, SH_DONE, and the interrupt of SH_CTRL.IRQ. -/
def Dev.chanEnd (d : Dev) (e c : Nat) (f : Fin_) : Dev :=
  let x := d.chan e c
  let d1 := d.updChan e c (fun y =>
    { y with mode := 0, stop := none, fin := none, req := none, acked := 0, status := f.status, fcode := f.fcode,
             done := f.done,
             faddr := if f.status = 3 ∨ f.status = 0x10 ∨ f.status = 0x11 then f.addr else y.faddr })
  let d2 := { d1 with sh := { d1.sh with
    ended := d1.sh.ended.set e (BitVec.ofNat 16 (setBit (d1.sh.ended.getD e 0).toNat c true)) } }
  if x.irqAll then d2.chanIrq x.ctx else d2

/-- A transfer begins: what R383 finds, if anything, decides its end. -/
def Dev.beginDesc (d : Dev) (e c : Nat) (x : Desc) (direct : Bool) : Dev :=
  let ctx := (d.chan e c).ctx
  let fin : Option Fin_ :=
    if !direct && !x.codesOk then some ⟨2, 0, 0, 0⟩
    else if x.count = 0 then some ⟨0, 0, 0, 0⟩
    else if !d.descOk ctx x then some ⟨2, 0, 0, 0⟩ else none
  d.updChan e c (fun y => { y with mode := 2, cur := x, fin := fin, acked := 0, req := none, done := 0, status := 1, fcode := 0 })

/-- The transfer a direct GO names (R378). -/
def Chan.direct (y : Chan) : Desc :=
  { src := y.src.toNat, dst := y.dst.toNat, next := 0,
    ctl := fld y.ctrl.toNat 21 19 * 4 + fld y.ctrl.toNat 17 16 * 64 + 2 ^ 14, count := y.cnt.toNat, param := 0,
    devid := fld y.ctrl.toNat 15 0, clean := true }

/-- The next piece of a remote transfer: its stream bytes lie at consecutive remote addresses, within 64 stream bytes and
within one aligned 64-byte block of the remote device, all of which is allowed or refused alike; a swap unit is not split
(R371, R384, R390). -/
def Desc.pieceLen (x : Desc) (b : Nat) : Nat :=
  let at_ (i : Nat) : Word := if x.remote = 1 then x.srcAt i else x.dstAt i
  let u := (swapUnit x.swap).getD 1
  let lim := max u (min (64 - (at_ b).toNat % 64) (min (64 - b % 64) (x.count - b)) / u * u)
  ((upFrom b lim).takeWhile (fun i => at_ i == at_ b + word (i - b))).length

/-- A remote transfer sends the request for its next piece, or finds its end (R390, R396). A remote address is physical. -/
def Dev.remoteNext (d : Dev) (e c : Nat) : Dev :=
  let y := d.chan e c
  let x := y.cur
  let b := y.acked
  if y.mode != 2 || y.fin.isSome || x.remote == 0 then d
  else if b ≥ x.count then d.updChan e c (fun y => { y with fin := some ⟨0, 0, x.count, 0⟩ })
  else match y.stop with
    | some s => d.updChan e c (fun y => { y with fin := some ⟨s, 0, b, 0⟩ })
    | none =>
      let n0 := x.pieceLen b
      let flt := d.firstFault y.ctx x b n0
      let n := match flt with
        | some f => (f.done - b) / (swapUnit x.swap).getD 1 * (swapUnit x.swap).getD 1
        | none => n0
      match n, flt with
      | 0, some f => d.updChan e c (fun y => { y with fin := some f })
      | _, _ =>
        let txn := d.sh.txn
        let ra := if x.remote = 1 then x.srcAt b else x.dstAt b
        let body := bytesLE 8 (ra.toNat % 2 ^ 48) ++ bytesLE 2 txn ++ bytesLE 1 (n - 1) ++ bytesLE 5 0
        let bs := if x.remote = 1 then [] else (upFrom b n).map (fun i => d.srcByte y.ctx x [] (swapSrc x.swap i))
        let f := d.mkFlit (if x.remote = 1 then 4 else 5) 3 x.devid false (body ++ bs)
        (({ d with sh := { d.sh with txn := bump16 txn } }).updChan e c
          (fun y => { y with req := some (txn, n, d.now) })).request f

/-- A GO written to a channel: ignored while it is busy, which SH_ERR shows (R378). -/
def Dev.chanGo (d : Dev) (e c : Nat) (chain : Bool) : Dev :=
  let y := d.chan e c
  if y.busy then
    { d with sh := { d.sh with gobusy := d.sh.gobusy.set e (BitVec.ofNat 16 (setBit (d.sh.gobusy.getD e 0).toNat c true)) } }
  else
    let d1 := d.updChan e c (fun y => { y with irqAll := y.ctrl.getLsbD 18, isChain := chain, stop := none, fin := none,
                                               status := 1, fcode := 0, done := 0, mode := 1 })
    if chain then d1 else (d1.beginDesc e c y.direct true).remoteNext e c

/-- A STOP written to a channel: ignored while it is idle; a halt already pending stays (R388). A remote transfer that waits
for no response ends at once; at a halt it waits for none, since the halt is bounded (R43). -/
def Dev.chanStop (d : Dev) (e c : Nat) (why : Nat) : Dev :=
  let y := d.chan e c
  if !y.busy then d
  else
    let d1 := d.updChan e c (fun y => { y with stop := some (max why (y.stop.getD 0)), req := if why = 6 then none else y.req })
    if y.mode = 2 ∧ (y.req.isNone ∨ why = 6) then d1.remoteNext e c else d1

/-- Every busy channel of the device gets a stop order (R388), or those of one station's contexts (R377). -/
def Dev.stopChans (d : Dev) (why : Nat) (sel : Chan → Bool) : Dev :=
  (d.sh.chans.keys).foldl (fun u k => if sel (u.chan (k / 16) (k % 16)) then u.chanStop (k / 16) (k % 16) why else u) d

/-! ### Registers -/

/-- The bits of SH_CTRL that are kept: DEVID, REMOTE, IRQ, SWAP. -/
def ctrlBits (v : Word) : BitVec 22 :=
  BitVec.ofNat 22 (wfld v 47 32 + wfld v 11 10 * 2 ^ 16 + wfld v 9 9 * 2 ^ 18 + wfld v 8 6 * 2 ^ 19)

/-- SH_CTRL as it reads. -/
def Chan.ctrlReg (y : Chan) : Word :=
  word (fld y.ctrl.toNat 21 19 * 2 ^ 6 + fld y.ctrl.toNat 18 18 * 2 ^ 9 + fld y.ctrl.toNat 17 16 * 2 ^ 10
    + fld y.ctrl.toNat 15 0 * 2 ^ 32)

/-- SH_STAT. -/
def Chan.stat (y : Chan) : Word :=
  word ((if y.busy then y.acked else y.done) + y.status * 2 ^ 32 + y.fcode * 2 ^ 40 + b2n y.busy * 2 ^ 48)

/-- The registers of one channel, by their offset in its block. -/
def Chan.read (y : Chan) (o : Nat) : Word :=
  if o = 0 then word y.ctx.toNat
  else if o = 8 then y.src
  else if o = 0x10 then y.dst
  else if o = 0x18 then word y.cnt.toNat
  else if o = 0x20 then y.ctrlReg
  else if o = 0x28 then y.chain
  else if o = 0x30 then y.stat
  else y.faddr

/-- SH_BUSY of an engine. -/
def Dev.shBusy (d : Dev) (e : Nat) : Nat :=
  (List.range 16).foldl (fun m c => if (d.chan e c).busy then setBit m c true else m) 0

/-- A read of an SH_ page. -/
def Dev.shRead (d : Dev) (e off : Nat) : Word :=
  if off = 0 then word (d.shBusy e)
  else if off = 8 then word (d.sh.ended.getD e 0).toNat
  else if off = 0x10 then word (d.sh.gobusy.getD e 0).toNat
  else if off = 0x18 then 0x4010
  else if 0x100 ≤ off ∧ off < 0x500 then (d.chan e ((off - 0x100) / 0x40)).read ((off - 0x100) % 0x40)
  else 0

/-- A write of SH_CTRL: the kept fields while idle, then GO and STOP. -/
def Dev.shCtrl (d : Dev) (e c : Nat) (v : Word) : Dev :=
  let d1 := if (d.chan e c).busy then d else d.updChan e c (fun y => { y with ctrl := ctrlBits v })
  let d2 := if wbit v 0 then d1.chanGo e c (wbit v 1) else d1
  if wbit v 2 then d2.chanStop e c 5 else d2

/-- A write of one register of a channel; the registers a transfer takes are ignored while it is busy (R378). -/
def Dev.chanWrite (d : Dev) (e c o : Nat) (v : Word) : Dev :=
  if o = 0x20 then d.shCtrl e c v
  else if (d.chan e c).busy then d
  else d.updChan e c (fun y =>
    if o = 0 then { y with ctx := ctxBits v }
    else if o = 8 then { y with src := v }
    else if o = 0x10 then { y with dst := v }
    else if o = 0x18 then { y with cnt := v.truncate 32 }
    else if o = 0x28 then { y with chain := word (v.toNat / 64 * 64) }
    else y)

/-- A write of an SH_ page. -/
def Dev.shWrite (d : Dev) (e off : Nat) (v : Word) : Dev :=
  if off = 8 then
    { d with sh := { d.sh with ended := d.sh.ended.set e (d.sh.ended.getD e 0 &&& ~~~(v.truncate 16)) } }
  else if off = 0x10 then
    { d with sh := { d.sh with gobusy := d.sh.gobusy.set e (d.sh.gobusy.getD e 0 &&& ~~~(v.truncate 16)) } }
  else if 0x100 ≤ off ∧ off < 0x500 then d.chanWrite e ((off - 0x100) / 0x40) ((off - 0x100) % 0x40) v
  else d

/-! ### Descriptors in memory (R379 to R381, R387) -/

/-- The n bytes at an address of a context as a number, or the code of the first address that fails. -/
def Dev.ctxRead (d : Dev) (ctx : BitVec 17) (va : Word) : Nat → Except (Nat × Word) Nat
  | 0 => .ok 0
  | n + 1 =>
    match d.dmaPlace ctx .load va.toNat with
    | .fault c => .error (c, va)
    | .ok pa e =>
      let (bs, bad) := d.readLoc e pa 1
      if bad then .error (0x12, va)
      else match Dev.ctxRead d ctx (va + 1) n with
        | .error x => .error x
        | .ok v => .ok ((bs.getD 0 0).toNat + 256 * v)

/-- The descriptor of 64 bytes read as a number (R381). -/
def Desc.ofNat (x : Nat) : Desc :=
  { src := fld x 47 0, dst := fld x 95 48, next := fld x 143 96, ctl := fld x 159 144, count := fld x 191 160,
    param := fld x 431 192, devid := fld x 447 432, clean := fld x 503 496 == 0 && fld x 510 504 == 0 }

/-- Bytes written at an address of a context, and the code of the first that fails. -/
def Dev.ctxWrite (d : Dev) (ctx : BitVec 17) (va : Word) : List Byte → Dev × Option Nat
  | [] => (d, none)
  | b :: r =>
    match d.dmaPlace ctx .store va.toNat with
    | .fault c => (d, some c)
    | .ok pa e => Dev.ctxWrite ((d.writeLoc e pa [b]).1) ctx (va + 1) r

/-- The status write of a descriptor: bytes 56 to 61, then OWN is cleared (R379). -/
def Dev.statusWrite (d : Dev) (ctx : BitVec 17) (a : Word) (f : Fin_) (flags : List Byte) : Dev × Option Nat :=
  let (d1, e1) := d.ctxWrite ctx (a + 56) (bytesLE 4 f.done ++ bytesLE 1 f.status ++ bytesLE 1 f.fcode ++ flags)
  match e1 with
  | some c => (d1, some c)
  | none => match d1.ctxRead ctx (a + 63) 1 with
    | .ok own => d1.ctxWrite ctx (a + 63) [BitVec.ofNat 8 (own % 128)]
    | .error _ => d1.ctxWrite ctx (a + 63) [0]

/-- The channel reads its next descriptor (R379, R380): a fault or OWN = 0 ends the chain; otherwise the transfer begins. -/
def Dev.descStart (d : Dev) (e c : Nat) : Dev :=
  let y := d.chan e c
  if y.mode ≠ 1 then d
  else match d.ctxRead y.ctx y.chain 64 with
    | .error (code, _) => d.chanEnd e c ⟨3, code, 0, y.chain⟩
    | .ok v =>
      if !bitOf v 511 then d.chanEnd e c ⟨0x12, 0, 0, 0⟩
      else (d.beginDesc e c (Desc.ofNat v) false).remoteNext e c

/-- The end of the transfer under way, with the bytes that have moved: what R383 or a remote side found; a fault below the
stop point; the stop; or all of it (R386 to R388). `reached` is how far the stream had come when a stop took effect. -/
def Dev.localEnd (d : Dev) (y : Chan) (data : List Byte) (reached : Nat) : Dev × Fin_ :=
  let x := y.cur
  let u := (swapUnit x.swap).getD 1
  let lim := match y.stop with
    | some _ => min x.count ((reached + 63) / 64 * 64)
    | none => x.count
  match d.firstFault y.ctx x 0 lim with
  | some f =>
    let n := f.done / u * u
    (d.moveBytes y.ctx x data 0 n, { f with done := n })
  | none =>
    let d1 := d.moveBytes y.ctx x data 0 lim
    (d1, match y.stop with
      | some s => if lim = x.count then ⟨0, 0, lim, 0⟩ else ⟨s, 0, lim, 0⟩
      | none => ⟨0, 0, lim, 0⟩)

/-- The rest of a transfer's end: the recorder entry of a DATA end, the status word and interrupt of a descriptor, and the
next descriptor of the chain or the channel's end (R379, R380, R387, R388). -/
def Dev.finishDesc (d : Dev) (e c : Nat) (f : Fin_) : Dev :=
  let y := d.chan e c
  let d1 := if f.status = 0x10 then d.event 3 1 4 (e * 16 + c) f.addr.toNat false else d
  if !y.isChain then d1.chanEnd e c f
  else
    let (d2, bad) := d1.statusWrite y.ctx y.chain f []
    match bad with
    | some code => d2.chanEnd e c ⟨3, code, f.done, y.chain + 56⟩
    | none =>
      let d3 := if y.cur.irq then d2.chanIrq y.ctx else d2
      if f.status = 0 ∧ y.cur.next ≠ 0 ∧ y.stop.isNone then
        d3.updChan e c (fun z => { z with mode := 1, chain := addr48 y.cur.next, fin := none, req := none, acked := 0 })
      else d3.chanEnd e c f

/-- The transfer of a channel ends (R387). A remote transfer ends when its last response has been taken. -/
def Dev.transferEnd (d : Dev) (e c : Nat) (data : List Byte) (reached : Nat) : Dev :=
  let y := d.chan e c
  if y.mode ≠ 2 then d
  else match y.fin with
    | some f => d.finishDesc e c f
    | none =>
      if y.cur.remote ≠ 0 then d
      else
        let (d1, f) := d.localEnd y data reached
        d1.finishDesc e c f

/-- A response to a channel's request: the piece is done, or the transfer ends with REMOTE (R390, R396). -/
def Dev.shResp (d : Dev) (e c : Nat) (n status : Nat) (bs : List Byte) : Dev :=
  let y := d.chan e c
  let x := y.cur
  if status ≠ 0 then
    let ra := if x.remote = 1 then x.srcAt y.acked else x.dstAt y.acked
    d.updChan e c (fun z => { z with req := none, fin := some ⟨0x11, if status = 0x80 then 0 else status, y.acked, ra⟩ })
  else
    let data := List.replicate y.acked 0 ++ bs
    let d1 := if x.remote = 1 then d.moveBytes y.ctx x data y.acked n else d
    (d1.updChan e c (fun z => { z with req := none, acked := y.acked + n, done := y.acked + n })).remoteNext e c

end Sys2Proof.Machine
end

