-- ==== Sys2Proof/Machine/Ledger.lean ====
section
/-! DEFINITION. The host ports, doorbells, waybills and the ledger (17_host_waybills_ledger.md). -/

namespace Sys2Proof.Machine

/-! ### State -/

/-- The ledger logic changed. -/
def Dev.updLd (d : Dev) (f : Ledger → Ledger) : Dev := { d with host := { d.host with ld := f d.host.ld } }

/-- Queue q. -/
def Dev.sq (d : Dev) (q : Nat) : Sq := d.host.ld.sqs.getD q Sq.reset

/-- A queue changed. -/
def Dev.updSq (d : Dev) (q : Nat) (f : Sq → Sq) : Dev :=
  d.updLd (fun l => { l with sqs := l.sqs.set q (f (d.sq q)) })

/-- A bit of LD_ERR set. -/
def Dev.ldErr (d : Dev) (i : Nat) : Dev := d.updLd (fun l => { l with err := BitVec.ofNat 4 (setBit l.err.toNat i true) })

/-- A queue is locked, which is recorded (R454, R466). -/
def Dev.lockQ (d : Dev) (q seq : Nat) : Dev :=
  (d.updLd (fun l => { l with locked := BitVec.ofNat 16 (setBit l.locked.toNat q true) })).event 10 1 0 q seq false

/-! ### Memory of the ledger (R457, R459) -/

/-- The place of a ledger window's byte: far tier, present, DUR, the ledger key, and for a write writable (R364, R457). -/
def Dev.ldPlace (d : Dev) (ak : AK) (pa : Nat) : Option TlbE :=
  match region pa with
  | .far off => (match d.sidingWalk ak off with
    | .ok x =>
      if bitOf x 3 && fld x 7 6 == 1 && (ak != .store || bitOf x 2) && d.mem.portUp (fld x 5 4) && d.mem.key1.isSome then
        some { TlbE.phys pa with dev := true, siding := some x }
      else none
    | .error _ => none)
  | _ => none

/-- n bytes of a ledger window as a number; none where the read fails. -/
def Dev.ldRead (d : Dev) (pa n : Nat) : Option Nat :=
  match d.ldPlace .load pa with
  | some e => let (bs, bad) := d.readLoc e pa n; if bad then none else some (natLE bs)
  | none => none

/-- Bytes written to a ledger window; none where the write faults. -/
def Dev.ldWrite (d : Dev) (pa : Nat) (bs : List Byte) : Option Dev :=
  match d.ldPlace .store pa with
  | some e => let (d1, bad) := d.writeLoc e pa bs; if bad then none else some d1
  | none => none

/-- The address of the entry for a sequence number (R457). -/
def Sq.entryAt (s : Sq) (seq : Nat) : Nat := s.winBase + 64 * (seq % 2 ^ s.log2n)

/-- The address of its body record (R457). -/
def Sq.bodyAt (s : Sq) (seq : Nat) : Nat := s.winBase + 64 * 2 ^ s.log2n + 256 * (seq % 2 ^ s.log2n)

/-- An entry of the ledger as it lies in memory (R458). -/
structure LdEnt where
  seq : Nat
  state : Nat
  attempt : Nat
  status : Nat
  sq : Nat
  outsel : Bool
  consist : Nat
  tag : Nat
  accTick : Nat
  endTick : Nat
  devid : Nat
  ncmd : Nat
  nabsent : Nat
  deriving DecidableEq, Repr

/-- The fields of an entry's 64 bytes. -/
def LdEnt.ofNat (x : Nat) : LdEnt :=
  { seq := fld x 63 0, state := fld x 71 64, attempt := fld x 79 72, status := fld x 87 80, sq := fld x 91 88,
    outsel := bitOf x 92, consist := fld x 123 112, tag := fld x 191 128, accTick := fld x 255 192,
    endTick := fld x 319 256, devid := fld x 335 320, ncmd := fld x 351 336, nabsent := fld x 383 352 }

/-- Bytes 0 to 59 of an entry. -/
def LdEnt.body (e : LdEnt) : List Byte :=
  bytesLE 8 e.seq ++ bytesLE 1 e.state ++ bytesLE 1 e.attempt ++ bytesLE 1 e.status
    ++ bytesLE 1 (e.sq + b2n e.outsel * 16) ++ bytesLE 1 1 ++ bytesLE 1 0 ++ bytesLE 2 e.consist ++ bytesLE 8 e.tag
    ++ bytesLE 8 e.accTick ++ bytesLE 8 e.endTick ++ bytesLE 2 e.devid ++ bytesLE 2 e.ncmd ++ bytesLE 4 e.nabsent
    ++ bytesLE 12 0

/-- An entry's 64 bytes, with its CRC (R458). -/
def LdEnt.bytes (e : LdEnt) : List Byte := e.body ++ bytesLE 4 (crc32c e.body)

/-- The entry of a sequence number; none where it cannot be read. -/
def Dev.entry (d : Dev) (q seq : Nat) : Option LdEnt := (d.ldRead ((d.sq q).entryAt seq) 64).map LdEnt.ofNat

/-- An entry written; a fault locks the queue (R454). The flag says that it was written. -/
def Dev.putEntry (d : Dev) (q : Nat) (e : LdEnt) : Dev × Bool :=
  match d.ldWrite ((d.sq q).entryAt e.seq) e.bytes with
  | some d1 => (d1, true)
  | none => (d.lockQ q e.seq, false)

/-- A global persistent flush is issued for an entry (R459). -/
def Dev.flush (d : Dev) (q seq : Nat) (what : FlushFor) : Dev :=
  d.updLd (fun l => { l with flushes := l.flushes ++ [⟨q, word seq, what, d.now, 0⟩] })

/-- An entry written and followed by a flush. -/
def Dev.putFlushed (d : Dev) (q : Nat) (e : LdEnt) (what : FlushFor) : Dev :=
  match d.putEntry q e with
  | (d1, true) => d1.flush q e.seq what
  | (d1, false) => d1

/-! ### Replies (R456) -/

/-- The queue pair of a queue: the open one of its port whose SQMASK names it (R449, R474). -/
def Dev.sqQp (d : Dev) (q : Nat) : Option Qp :=
  d.host.qps.find? (fun x => x.port == (d.sq q).port && bitOf x.sqmask q)

/-- The 32 bytes of a reply record. -/
def replyBytes (seq kind state status q outsel tag rseq : Nat) : List Byte :=
  bytesLE 8 seq ++ bytesLE 1 kind ++ bytesLE 1 state ++ bytesLE 1 status ++ bytesLE 1 q ++ bytesLE 1 outsel ++ bytesLE 3 0
    ++ bytesLE 8 tag ++ bytesLE 4 rseq ++ bytesLE 4 0

/-- A reply record is written to the queue's ring in its host window, and sent as well where `notify` is set. -/
def Dev.reply (d : Dev) (q seq kind state status : Nat) (outsel : Bool) (tag : Nat) (notify : Bool) : Dev :=
  let s := d.sq q
  let bs := replyBytes seq kind state status q (b2n outsel) tag s.rseq
  let at_ := s.rplBase + 32 * (s.rpos % 2 ^ s.log2r)
  let d1 := match region at_ with
    | .host off => if d.host.windowOk off then d.hostStore off bs else d
    | _ => d
  let d2 := d1.updSq q (fun s => { s with rseq := if s.rseq = 0xFFFFFFFF then 1 else s.rseq + 1, rpos := s.rpos + 1 })
  if notify then (match d.sqQp q with
    | some p => d2.emit (.send p.port p.qpn bs)
    | none => d2)
  else d2

/-- NOTIFY of a waybill, from its body record. -/
def Dev.notifies (d : Dev) (q seq : Nat) : Bool :=
  match d.ldRead ((d.sq q).bodyAt seq) 8 with
  | some w => bitOf w 32
  | none => false

/-- The COMPLETED (0x02) or FAILED (0x03) reply of an entry. -/
def Dev.finalReply (d : Dev) (q : Nat) (e : LdEnt) : Dev :=
  d.reply q e.seq (if e.state = 4 then 2 else 3) 0 e.status e.outsel e.tag (d.notifies q e.seq)

/-! ### Doorbells (R449, R450) -/

/-- A doorbell PROD of queue q (R449). -/
def Dev.doorbell (d : Dev) (q v : Nat) : Dev :=
  let s := d.sq q
  let ahead (a : Nat) : Nat := (v + 2 ^ 32 - a) % 2 ^ 32
  if 2 ^ 31 ≤ ahead s.prod ∨ 2 ^ s.log2s < ahead s.taken then d.ldErr 0 else d.updSq q (fun s => { s with prod := v })

/-- A doorbell RETIRE of queue q (R450). -/
def Dev.retireBell (d : Dev) (q : Nat) (v : Word) : Dev := d.updSq q (fun s => { s with retire := v })

/-! ### Acceptance (R453 to R455) -/

/-- The bytes [a, a + n) lie in a host window that is on, in a durable far-tier window, or in GDDR7 (R453 check 7). -/
def Dev.durable (d : Dev) (a n : Nat) (gddrToo : Bool) : Bool :=
  let ok (pa : Nat) : Bool := match region pa with
    | .host off => d.host.windowOk off
    | .far off => (match d.sidingWalk .load off with
      | .ok x => bitOf x 3
      | .error _ => false)
    | .gddr => gddrToo
    | _ => false
  decide (a < 2 ^ 48) && (upFrom (a / 0x1000) ((a + n - 1) / 0x1000 + 1 - a / 0x1000)).all
    (fun p => ok (max a (p * 0x1000)) && ok (min (a + n - 1) (p * 0x1000 + 0xFFF)))

/-- A waybill (R451), from its 256 bytes. -/
structure Waybill where
  ver : Nat
  sqb : Nat
  ncmd : Nat
  ctl : Nat
  seq : Nat
  cmdaddr : Nat
  cmdbuf : Nat
  out0 : Nat
  out1 : Nat
  outlen : Nat
  tag : Nat
  rsv : Bool
  deriving DecidableEq, Repr

/-- The fields of a waybill. -/
def Waybill.ofNat (x : Nat) : Waybill :=
  { ver := fld x 7 0, sqb := fld x 15 8, ncmd := fld x 31 16, ctl := fld x 63 32, seq := fld x 127 64,
    cmdaddr := fld x 191 128, cmdbuf := fld x 223 192, out0 := fld x 319 256, out1 := fld x 383 320,
    outlen := fld x 415 384, tag := fld x 511 448, rsv := fld x 255 224 != 0 || fld x 447 416 != 0 }

/-- Whether an entry may be reused for a sequence number: FREE, or final and below RETIRE (R453 check 8). -/
def LdEnt.reusable (e : LdEnt) (retire : Nat) : Bool :=
  e.state == 0 || ((e.state == 4 || e.state == 5) && decide (e.seq < retire))

/-- What the checks of R453 decide: rejected with a reason, a duplicate, or accepted. -/
inductive Verdict where
  /-- REJECTED -/
  | reject (code : Nat)
  /-- DUPLICATE of this entry -/
  | dup (e : LdEnt)
  /-- accepted -/
  | accept
  deriving DecidableEq, Repr

/-- The checks of R453, in order. -/
def Dev.wbCheck (d : Dev) (q : Nat) (w : Waybill) : Verdict :=
  let s := d.sq q
  let next := s.next.toNat
  if w.ver ≠ 1 ∨ w.sqb ≠ q ∨ w.seq = 0 ∨ 2 ≤ w.ctl ∨ w.rsv ∨ 0x2000000 < w.outlen then .reject 1
  else if !s.en || !s.winEn || d.host.ld.locked.getLsbD q then .reject 8
  else if next < w.seq then .reject 3
  else match d.entry q w.seq with
    | none => .reject 8
    | some e =>
      if w.seq < next then (if e.seq = w.seq then .dup e else .reject 4)
      else if w.cmdbuf < w.ncmd * 32 then .reject 2
      else if (0 < w.cmdbuf ∧ !d.durable w.cmdaddr w.cmdbuf false)
          ∨ (0 < w.outlen ∧ (!d.durable w.out0 w.outlen true ∨ !d.durable w.out1 w.outlen true)) then .reject 6
      else if !e.reusable s.retire.toNat then .reject 5
      else .accept

/-- The flush of a queue's sequence number that waits to send the ACCEPTED reply. -/
def Ledger.accepting (l : Ledger) (q seq : Nat) : Bool :=
  l.flushes.any (fun f => f.q == q && f.seq == word seq && f.what == .accepted)

/-- The next slot of queue q is checked and taken (R449, R453 to R455). -/
def Dev.waybillCheck (d : Dev) (q : Nat) : Dev :=
  let s := d.sq q
  if s.taken = s.prod ∨ s.recovering then d
  else
    let raw := (d.readLoc (TlbE.phys 0) (s.base + 256 * (s.taken % 2 ^ s.log2s)) 256).1
    let w := Waybill.ofNat (natLE raw)
    let d1 := d.updSq q (fun s => { s with taken := (s.taken + 1) % 2 ^ 32 })
    match d.wbCheck q w with
    | .reject c => d1.reply q w.seq 0x20 0 c false w.tag false
    | .dup e =>
      if d.host.ld.accepting q w.seq then
        d1.updLd (fun l => { l with flushes := l.flushes.map (fun f =>
          if f.q = q ∧ f.seq = word w.seq ∧ f.what = .accepted then { f with dups := f.dups + 1 } else f) })
      else d1.reply q w.seq 0x10 e.state e.status e.outsel w.tag false
    | .accept =>
      let d2 := d1.updSq q (fun s => { s with next := s.next + 1 })
      let e : LdEnt :=
        { seq := w.seq, state := 1, attempt := 0, status := 0, sq := q, outsel := false, consist := d.consist, tag := w.tag,
          accTick := d.tt.tick, endTick := 0, devid := d.jn.devid, ncmd := w.ncmd, nabsent := 0 }
      match d2.ldWrite (s.bodyAt w.seq) raw with
      | none => d2.lockQ q w.seq
      | some d3 => d3.putFlushed q e .accepted

/-! ### Flushes (R454, R459, R463) -/

/-- What waits for a flush proceeds. -/
def Dev.flushed (d : Dev) (f : Flush) : Dev :=
  match d.entry f.q f.seq.toNat with
  | none => d.lockQ f.q f.seq.toNat
  | some e =>
    match f.what with
    | .accepted =>
      (List.range f.dups).foldl (fun u _ => u.reply f.q e.seq 0x10 1 e.status e.outsel e.tag false)
        (d.reply f.q e.seq 0x01 0 0 false e.tag false)
    | .committed => d.putFlushed f.q { e with state := 4, endTick := d.tt.tick } .completed
    | .completed => d.finalReply f.q e
    | .failed => d.finalReply f.q e
    | .returned => d

/-- The oldest flush of queue q completes. -/
def Dev.flushComplete (d : Dev) (q : Nat) : Dev :=
  match d.host.ld.flushes.find? (fun f => f.q == q) with
  | none => d
  | some f => (d.updLd (fun l => { l with flushes := dropFirst (fun f => f.q == q) l.flushes })).flushed f

/-- The oldest flush of queue q exceeds GPFTO: the queue is locked (R454). -/
def Dev.flushLate (d : Dev) (q : Nat) : Dev :=
  match d.host.ld.flushes.find? (fun f => f.q == q) with
  | none => d
  | some f =>
    (((d.notBefore (f.at_ + d.host.ld.gpfto * usU)).updLd
      (fun l => { l with flushes := dropFirst (fun f => f.q == q) l.flushes })).ldErr 3).lockQ q f.seq.toNat

/-! ### Operations (R459, R460, R462 to R464) -/

/-- A COMMIT for a waybill already waits or its switch is under way. -/
def Ledger.committing (l : Ledger) (q seq : Nat) : Bool := l.commits.any (fun c => c.q == q && c.seq == word seq)

/-- LD_OP (R462, R464). -/
def Dev.ldOp (d : Dev) (v : Word) : Dev :=
  let op := wfld v 2 0
  let bad (q : Nat) : Dev := (d.ldErr 1).event 10 2 0 q v.toNat false
  if d.host.ld.halted then d.ldErr 2
  else match d.host.ld.dl[wfld v 19 8]? with
    | none => bad 0
    | some x =>
      match d.entry x.q x.seq.toNat with
      | none => bad x.q
      | some e =>
        if e.seq ≠ x.seq.toNat then bad x.q
        else if op = 1 ∧ e.state = 1 then
          (d.putEntry x.q { e with state := 2, attempt := min 255 (e.attempt + 1), nabsent := x.absent }).1
        else if op = 2 ∧ e.state = 2 ∧ !d.host.ld.committing x.q e.seq then
          d.updLd (fun l => { l with commits := l.commits ++ [⟨x.q, x.seq, wbit v 4, wfld v 31 24⟩] })
        else if op = 3 ∧ e.state = 2 ∧ !d.host.ld.committing x.q e.seq then
          d.putFlushed x.q { e with state := 5, status := wfld v 31 24, endTick := d.tt.tick } .failed
        else bad x.q

/-- The waybill before a sequence number is settled: COMMITTED or final, or its entry has been reused (R460). -/
def Dev.prevSettled (d : Dev) (q seq : Nat) : Bool :=
  decide (seq ≤ 1) || (match d.entry q (seq - 1) with
    | some e => e.seq != seq - 1 || decide (3 ≤ e.state)
    | none => false)

/-- The output buffer of a waybill, from its body record: address and length. -/
def Dev.outBuf (d : Dev) (q seq : Nat) (sel : Bool) : Nat × Nat :=
  match d.ldRead ((d.sq q).bodyAt seq) 64 with
  | some w => (if sel then fld w 383 320 else fld w 319 256, fld w 415 384)
  | none => (0, 0)

/-- Steps 1 and 2 of a queue's next ledger switch (R463): the dirty lines of the output buffer are written back, and
COMMITTED is written and flushed. It begins only when its predecessor is settled, and not after a halt tick (R460, R464). -/
def Dev.ledgerSwitch (d : Dev) (q : Nat) : Dev :=
  match d.host.ld.commits.find? (fun c => c.q == q && d.prevSettled q c.seq.toNat) with
  | none => d
  | some c =>
    if d.host.ld.halted then d
    else
      let d1 := d.updLd (fun l => { l with commits := l.commits.filter (fun x => x != c) })
      let (a, n) := d1.outBuf q c.seq.toNat c.sel
      let d2 := { d1 with mem := { d1.mem with dirty := d1.mem.dirty.filter (fun l =>
        !(decide (a < (l + 1) * 128) && decide (l * 128 < a + n))) } }
      match d2.entry q c.seq.toNat with
      | none => d2.lockQ q c.seq.toNat
      | some e => d2.putFlushed q { e with state := 3, status := c.status, outsel := c.sel } .committed

/-! ### Dispatch (R461, R465) -/

/-- The sequence numbers of a queue whose entries are ACCEPTED and flushed, in ascending order. -/
def Dev.accepted (d : Dev) (q : Nat) : List Nat :=
  let s := d.sq q
  if !s.winEn then []
  else
    let n := 2 ^ s.log2n
    let lo := s.next.toNat - n
    (upFrom lo (s.next.toNat - lo)).filter (fun seq =>
      decide (0 < seq) && (match d.entry q seq with
        | some e => e.seq == seq && e.state == 1
        | none => false)
      && !d.host.ld.flushes.any (fun f => f.q == q && f.seq == word seq))

/-- Rounds over the queues' lists: the first of each, then the rest (R461). -/
def rounds : Nat → List (Nat × List Nat) → List (Nat × Nat)
  | 0, _ => []
  | n + 1, ls =>
    let heads := ls.filterMap (fun p => p.2.head?.map (fun s => (p.1, s)))
    if heads.isEmpty then [] else heads ++ rounds n (ls.map (fun p => (p.1, p.2.tail)))

/-- The STATUS dispatch writes into a command, if any: FORMAT for a reserved code or field, ABSENT for a station that is
absent (R461 step 2). -/
def Dev.cmdMark (d : Dev) (x : Nat) : Option Nat :=
  let opc := fld x 7 0
  let stn := fld x 31 16
  if 2 < opc ∨ fld x 63 32 ≠ 0 ∨ fld x 255 192 ≠ 0 then some 2
  else if stn = 0xFFFF ∧ opc = 2 then none
  else if stn < 128 ∧ d.usable stn then none else some 0x0E

/-- A byte of a command list written: GDDR7 and far tier, or a host window. -/
def Dev.listPut (d : Dev) (pa : Nat) (b : Byte) : Dev :=
  match d.dmaPhys true .store (TlbE.phys pa) pa with
  | .ok _ e => (match region pa with
    | .host off => d.hostStore off [b]
    | _ => (d.writeLoc e pa [b]).1)
  | .fault _ => d

/-- The bytes of a command list: from memory, or as the host's read delivered them. -/
def Dev.listGet (d : Dev) (pa n : Nat) (host : List Byte) : List Byte :=
  match region pa with
  | .host _ => (List.range n).map (fun i => host.getD i 0)
  | _ => (match d.dmaPhys true .load (TlbE.phys pa) pa with
    | .ok _ e => (d.readLoc e pa n).1
    | .fault _ => [])

/-- The marks of one waybill's commands; the number marked ABSENT (R461 step 2). -/
def Dev.markCmds (d : Dev) (addr : Nat) (list : List Byte) : Nat → Nat → Dev × Nat
  | _, 0 => (d, 0)
  | i, n + 1 =>
    let x := natLE ((list.drop (32 * i)).take 32)
    match d.cmdMark x with
    | some st =>
      let (d1, k) := Dev.markCmds (d.listPut (addr + 32 * i + 1) (BitVec.ofNat 8 st)) addr list (i + 1) n
      (d1, k + if st = 0x0E then 1 else 0)
    | none => Dev.markCmds d addr list (i + 1) n

/-- One waybill is taken: at MAXATT it ends FAILED with STATUS HALTED; otherwise its commands are marked and it joins the
dispatch list (R459, R461, R465). -/
def Dev.take (hosts : List (List Byte)) (d : Dev) (p : Nat × Nat) : Dev :=
  match d.entry p.1 p.2, d.ldRead ((d.sq p.1).bodyAt p.2) 256 with
  | some e, some b =>
    if d.host.ld.maxatt ≤ e.attempt then
      d.putFlushed p.1 { e with state := 5, status := 6, endTick := d.tt.tick } .failed
    else if 4096 ≤ d.host.ld.dl.length then d
    else
      let w := Waybill.ofNat b
      let i := d.host.ld.dl.length
      let (d1, k) := d.markCmds w.cmdaddr (d.listGet w.cmdaddr (32 * w.ncmd) (hosts.getD i [])) 0 w.ncmd
      let rec_ := bytesLE 8 p.2 ++ bytesLE 8 ((d.sq p.1).bodyAt p.2) ++ bytesLE 2 i ++ bytesLE 1 p.1 ++ bytesLE 1 0
        ++ bytesLE 4 k ++ bytesLE 8 0
      let (d2, _) := d1.writeLoc (TlbE.phys 0) (d1.host.ld.dlBase + 32 * i) rec_
      d2.updLd (fun l => { l with dl := l.dl ++ [⟨p.1, word p.2, k⟩] })
  | _, _ => d

/-- Dispatch of a phase (R34, R461). `hosts` holds, by index in the list, the command lists that lie in host windows. -/
def Dev.dispatch (d : Dev) (mask : Nat) (hosts : List (List Byte)) : Dev :=
  let d0 := d.updLd (fun l => { l with dl := [] })
  let qs := (List.range 16).filter (fun q => bitOf mask q)
  let order := rounds 65536 (qs.map (fun q => (q, d0.accepted q)))
  let d1 := order.foldl (Dev.take hosts) d0
  { d1 with tt := { d1.tt with absent := d1.host.ld.dl.any (fun x => decide (0 < x.absent)) } }

/-- Every waybill dispatched to the phase has reached a final state (R35). -/
def Dev.waybillsDone (d : Dev) : Bool :=
  d.host.ld.dl.all (fun x => match d.entry x.q x.seq.toNat with
    | some e => e.seq != x.seq.toNat || decide (4 ≤ e.state)
    | none => true)

/-- Waybills dispatched to the phase that reached COMPLETED (R47). -/
def Dev.waybillsOk (d : Dev) : Nat :=
  (d.host.ld.dl.filter (fun x => match d.entry x.q x.seq.toNat with
    | some e => e.seq == x.seq.toNat && e.state == 4
    | none => false)).length

/-- Every STARTED entry of a queue returns to ACCEPTED, with ATTEMPT kept (R465). -/
def Dev.returnStarted (d : Dev) (q : Nat) : Dev :=
  let s := d.sq q
  if !s.winEn then d
  else (List.range (2 ^ s.log2n)).foldl (fun u i =>
    match u.entry q i with
    | some e => if e.state = 2 then u.putFlushed q { e with state := 1 } .returned else u
    | none => u) d

/-- The halt tick: no switch begins from now on, COMMITs that have not begun are dropped, and LD_OP is ignored (R464). -/
def Dev.ldHalt (d : Dev) : Dev := d.updLd (fun l => { l with halted := true, commits := [] })

/-- The resume: STARTED entries of every queue return to ACCEPTED, and LD_OP is served again (R465). -/
def Dev.ldResume (d : Dev) : Dev :=
  (List.range 16).foldl Dev.returnStarted (d.updLd (fun l => { l with halted := false }))

/-! ### Recovery (R466) -/

/-- Recovery is started for each queue with its window enabled. -/
def Dev.recover (d : Dev) : Dev :=
  (List.range 16).foldl (fun u q => if (u.sq q).winEn then u.updSq q (fun s => { s with recovering := true }) else u) d

/-- The entries of a queue's window with their raw bytes; none where one cannot be read. -/
def Dev.rawEntries (d : Dev) (q : Nat) : List (Option Nat) :=
  (List.range (2 ^ (d.sq q).log2n)).map (fun i => d.ldRead ((d.sq q).entryAt i) 64)

/-- An entry that stops recovery: it is not FREE and fails its CRC or holds another consist (R466 step 1). -/
def entryBad (consist : Nat) : Option Nat → Bool
  | none => true
  | some x => x != 0 && (crc32c (bytesLE 60 x) != fld x 511 480 || fld x 123 112 != consist)

/-- Recovery of queue q ends (R466). -/
def Dev.recoveryEnd (d : Dev) (q : Nat) : Dev :=
  if !(d.sq q).recovering then d
  else
    let raw := d.rawEntries q
    let d1 := d.updSq q (fun s => { s with recovering := false })
    if raw.any (entryBad d.consist) then d1.lockQ q 0
    else
      let es := (raw.filterMap id).filter (· != 0) |>.map LdEnt.ofNat
      let top := es.foldl (fun m e => max m e.seq) 0
      let d2 := d1.updSq q (fun s => { s with next := word (top + 1), retire := 0 })
      let lo := top + 1 - 2 ^ (d.sq q).log2n
      let d3 := (upFrom lo (top + 1 - lo)).foldl (fun u seq =>
        match es.find? (fun e => e.seq == seq) with
        | some e =>
          if e.state = 2 then u.putFlushed q { e with state := 1 } .returned
          else if e.state = 3 then u.putFlushed q { e with state := 4, endTick := u.tt.tick } .completed
          else if 4 ≤ e.state then u.finalReply q e else u
        | none => u) d2
      d3.updLd (fun l => { l with locked := BitVec.ofNat 16 (setBit l.locked.toNat q false) })

/-! ### LD_ and HI_ registers -/

/-- A read of the LD_ page. -/
def Dev.ldReg (d : Dev) (off : Nat) : Word :=
  let l := d.host.ld
  if off = 0 then word (l.maxatt * 2 ^ 24 + l.gpfto * 2 ^ 9)
  else if off = 0x10 then word (l.err.toNat + l.locked.toNat * 2 ^ 16)
  else if off = 0x18 then word (l.dl.length * 2 ^ 48 + l.dlBase)
  else if 0x100 ≤ off ∧ off < 0x300 then
    (let s := d.sq ((off - 0x100) / 32)
     let o := (off - 0x100) % 32
     if o = 0 then word (s.log2s + b2n s.en * 2 ^ 4 + s.port * 2 ^ 8 + s.base)
     else if o = 8 then word (s.log2n + b2n s.winEn * 2 ^ 5 + s.winBase)
     else if o = 0x10 then word (s.log2r + s.rplBase)
     else s.next)
  else if 0x800 ≤ off ∧ off < 0x900 then
    (let s := d.sq ((off - 0x800) / 16)
     if off % 16 = 0 then word s.prod else s.retire)
  else 0

/-- A log2 field of a queue register: a value outside its range keeps what it was. -/
def keepRange (lo hi v old : Nat) : Nat := if lo ≤ v ∧ v ≤ hi then v else old

/-- A write of the LD_ page. -/
def Dev.ldRegWrite (d : Dev) (off : Nat) (v : Word) : Dev :=
  if off = 0 then
    (let d1 := d.updLd (fun l => { l with maxatt := if wfld v 31 24 = 0 then l.maxatt else wfld v 31 24,
                                          gpfto := keepRange 10 400 (wfld v 17 9) l.gpfto })
     if wbit v 0 then d1.recover else d1)
  else if off = 8 then d.ldOp v
  else if off = 0x10 then d.updLd (fun l => { l with err := l.err &&& ~~~(v.truncate 4) })
  else if off = 0x18 then d.updLd (fun l => { l with dlBase := wfld v 47 12 * 0x1000 })
  else if 0x100 ≤ off ∧ off < 0x300 then
    (let o := (off - 0x100) % 32
     d.updSq ((off - 0x100) / 32) (fun s =>
      if o = 0 then { s with log2s := keepRange 4 12 (wfld v 3 0) s.log2s, en := wbit v 4, port := wfld v 9 8,
                             base := wfld v 47 12 * 0x1000 }
      else if o = 8 then { s with log2n := keepRange 4 16 (wfld v 4 0) s.log2n, winEn := wbit v 5,
                                  winBase := wfld v 47 12 * 0x1000 }
      else if o = 0x10 then { s with log2r := keepRange 4 16 (wfld v 4 0) s.log2r, rplBase := wfld v 47 5 * 32 }
      else s))
  else if 0x800 ≤ off ∧ off < 0x900 then
    (if off % 16 = 0 then d.doorbell ((off - 0x800) / 16) (wfld v 31 0) else d.retireBell ((off - 0x800) / 16) v)
  else d

/-- A host port changed. -/
def Dev.updPort (d : Dev) (h : Nat) (f : HiPort → HiPort) : Dev :=
  { d with host := { d.host with ports := d.host.ports.set h (f (d.host.port h)) } }

/-- HI_CTRL. -/
def HiPort.ctrl (p : HiPort) : Word := word (b2n p.en + b2n p.up * 2 + p.lmode * 4 + p.vmin * 2 ^ 16 + p.vmaj * 2 ^ 20)

/-- A read of an HI_ page. -/
def HiPort.read (p : HiPort) (off : Nat) : Word :=
  if off = 0 then p.ctrl
  else if 0x1000 ≤ off ∧ off < 0x1400 then
    (if off % 16 = 0 then p.wina.getD ((off - 0x1000) / 16) 0 else p.winb.getD ((off - 0x1000) / 16) 0)
  else 0

/-- A write of an HI_ page: LMODE only while EN = 0, and only its two modes (R444). -/
def HiPort.write (p : HiPort) (off : Nat) (v : Word) : HiPort :=
  if off = 0 then
    { p with en := wbit v 0, lmode := if !p.en && decide (wfld v 3 2 ≤ 1) then wfld v 3 2 else p.lmode,
             up := p.up && wbit v 0 }
  else if 0x1000 ≤ off ∧ off < 0x1400 then
    (if off % 16 = 0 then { p with wina := p.wina.set ((off - 0x1000) / 16) v }
     else { p with winb := p.winb.set ((off - 0x1000) / 16) v })
  else p

/-! ### RDMA requests of a host (R446, R447, R450) -/

/-- The open queue pair of a port and number. -/
def Dev.qp (d : Dev) (port qpn : Nat) : Option Qp := d.host.qps.find? (fun x => x.port == port && x.qpn == qpn)

/-- The doorbell word at a physical address that a queue pair may write: queue, and whether it is RETIRE. -/
def bellAt (x : Qp) (pa : Nat) : Option (Nat × Bool) :=
  if 0x20100060800 ≤ pa ∧ pa < 0x20100060900 ∧ pa % 8 = 0 then
    (let q := (pa - 0x20100060800) / 16
     if bitOf x.sqmask q then some (q, pa % 16 == 8) else none)
  else none

/-- A range lies in the slot ring of a queue the queue pair may write. -/
def Dev.inRing (d : Dev) (x : Qp) (pa n : Nat) : Bool :=
  (List.range 16).any (fun q => bitOf x.sqmask q && decide ((d.sq q).base ≤ pa)
    && decide (pa + n ≤ (d.sq q).base + 256 * 2 ^ (d.sq q).log2s))

/-- A range lies in a region registered to a queue pair with a right (bit 0 read, bit 1 write). -/
def Dev.inRegion (d : Dev) (port qpn pa n rkey right : Nat) : Bool :=
  d.host.regions.any (fun r => r.port == port && r.qpn == qpn && r.rkey == rkey && bitOf r.rights right
    && decide (r.base ≤ pa) && decide (pa + n ≤ r.base + r.len * 0x1000))

/-- An RDMA WRITE of a host (R446, R447, R450). -/
def Dev.rdmaWrite (d : Dev) (port qpn pa rkey : Nat) (bs : List Byte) : Dev :=
  match d.qp port qpn with
  | none => d.emit (.rdmaNak port qpn false)
  | some x =>
    match bellAt x pa, bs.length with
    | some (q, true), 8 => (d.retireBell q (word (natLE bs))).emit (.rdmaAck port qpn)
    | some (q, false), 8 => (d.doorbell q (natLE (bs.take 4))).emit (.rdmaAck port qpn)
    | _, n =>
      if region pa == .gddr && decide (pa + n ≤ gddrSize)
          && (d.inRing x pa n || d.inRegion port qpn pa n rkey 1) then
        ((d.writeLoc (TlbE.phys 0) pa bs).1).emit (.rdmaAck port qpn)
      else d.emit (.rdmaNak port qpn false)

/-- An RDMA READ of a host (R446, R447). -/
def Dev.rdmaRead (d : Dev) (port qpn pa rkey n : Nat) : Dev :=
  match d.qp port qpn with
  | none => d.emit (.rdmaNak port qpn false)
  | some _ =>
    if region pa == .gddr && decide (pa + n ≤ gddrSize) && d.inRegion port qpn pa n rkey 0 then
      d.emit (.rdmaData port qpn (d.readLoc (TlbE.phys 0) pa n).1)
    else d.emit (.rdmaNak port qpn false)

/-- A host port's reset: its link goes down until it has trained again; each queue pair returns to the state in which it was
opened; the windows, the regions and the ledger stay (R559). -/
def Dev.hostPortReset (d : Dev) (h : Nat) : Dev :=
  let d1 := d.updPort h (fun p => { p with up := false })
  { d1 with host := { d1.host with qps := d1.host.qps.map (fun x => if x.port = h then { x with slowed := 0 } else x) } }

end Sys2Proof.Machine
end

