-- ==== Sys2Proof/Machine/Reduce.lean ====
section
/-! DEFINITION. The in-network reductions of the junction (R418 to R424). -/

namespace Sys2Proof.Machine

/-! ### Trees and descriptors -/

/-- Element types of FMT (R118): INT32 2, INT64 3, FP64 8, FP32 9, BF16 11. -/
def redFmtOk (f : Nat) : Bool := f == 2 || f == 3 || f == 8 || f == 9 || f == 11

/-- The combine format is FP32 (R420). -/
def combine32 (f : Nat) : Bool := f == 9 || f == 11

/-- The codes of a descriptor are allowed (R419, R420). -/
def redCodesOk (x : Nat) : Bool :=
  let op := fld x 135 128
  let fmt := fld x 143 136
  let wire := fld x 151 144
  decide (op ≤ 3) && redFmtOk fmt && decide (wire ≤ 4) && fld x 157 153 == 0 && fld x 159 158 == 1 && fld x 447 192 == 0
    && fld x 510 504 == 0 && (wire == 0 || (combine32 fmt && (op == 0 || op == 3)))

/-- The instance a descriptor names. -/
def redOf (addr x : Nat) : RedInst :=
  { addr := addr, src := fld x 47 0, dst := fld x 95 48, count := fld x 127 96, op := fld x 135 128, fmt := fld x 143 136,
    wire := fld x 151 144, all := bitOf x 152, seq := fld x 191 160, ops := [], nextLocal := 0, chunks := [], done := 0,
    flags := 0, fin := none }

/-- The elements of a chunk (R423). -/
def RedInst.per (i : RedInst) : Nat :=
  if i.wire = 0 then (if i.fmt = 3 ∨ i.fmt = 8 then 28 else 56)
  else if i.wire = 1 then 112 else if i.wire = 4 then 192 else 208

/-- The chunks of an instance. -/
def RedInst.nchunks (i : RedInst) : Nat := (i.count + i.per - 1) / i.per

/-- The elements of chunk c that lie below COUNT. -/
def RedInst.inChunk (i : RedInst) (c : Nat) : Nat := min i.per (i.count - c * i.per)

/-- The bytes of an element in memory. -/
def fmtBytes (f : Nat) : Nat := if f = 3 ∨ f = 8 then 8 else if f = 11 then 2 else 4

/-! ### Numbers (R127, R211, R213, R420 to R422) -/

/-- The floating format of a combine format: FP32 or FP64; integers have none. -/
def combineFmt (f : Nat) : Option Fmt := if combine32 f then some fp32 else if f = 8 then some fp64 else none

/-- Two operands combined (R421). -/
def redCombine (op fmt a b : Nat) : Nat × Ev :=
  match combineFmt fmt with
  | none =>
    let w := 8 * fmtBytes fmt
    (if op = 0 then (a + b) % 2 ^ w
     else if op = 1 then (if sval w a < sval w b then b else a)
     else (if sval w b < sval w a then b else a), Ev.none)
  | some f =>
    let x := f.decode a
    let y := f.decode b
    if op = 0 then f.fromVal .rne false (x.add .rne y)
    else if op = 1 then (let (v, ev) := x.max y; (f.ofVal v, ev))
    else (let (v, ev) := x.min y; (f.ofVal v, ev))

/-- An element of memory in the combine format. BF16 widens exactly. -/
def redWiden (fmt x : Nat) : Nat := if fmt = 11 then x % 65536 * 65536 else x

/-- A result in the element format (R422). -/
def redNarrow (fmt x : Nat) : Nat × Ev :=
  if fmt = 11 then bf16.convert .rne false (fp32.decode x, Ev.none) else (x, Ev.none)

/-- The block element format of a wire code: the tile format codes of R213. -/
def wireFmt (w : Nat) : Nat := if w = 3 then 6 else 5

/-- The block size of a wire code. -/
def wireBlk (w : Nat) : Nat := if w = 4 then 32 else 16

/-- A list cut into runs of n, fuel runs at most. -/
def cutRuns {α : Type} (n : Nat) : Nat → List α → List (List α)
  | 0, _ => []
  | k + 1, l => if l.isEmpty then [] else l.take n :: cutRuns n k (l.drop n)

/-- One block encoded: its scale and its elements (R213). -/
def encBlock (w : Nat) (vals : List Nat) : Nat × List (Nat × Ev) :=
  let fv := vals.map fp32.decode
  let E := blockScale (wireFmt w) fv
  (E, fv.map (fun v => blockElem .rne (wireFmt w) E v))

/-- The wire bytes of the values of a chunk, and the events of their encoding (R213, R422, R423). -/
def wireEnc (w fmt : Nat) (vals : List Nat) : List Byte × Ev :=
  if w = 0 then (vals.flatMap (bytesLE (fmtBytes (if fmt = 11 then 9 else fmt))), Ev.none)
  else if w = 1 then
    let xs := vals.map (fun v => bf16.convert .rne false (fp32.decode v, Ev.none))
    (xs.flatMap (fun p => bytesLE 2 p.1), xs.foldl (fun e p => e.or p.2) Ev.none)
  else
    let bl := (cutRuns (wireBlk w) 16 vals).map (encBlock w)
    (bl.map (fun p => BitVec.ofNat 8 p.1) ++ bl.flatMap (fun p => p.2.map (fun q => BitVec.ofNat 8 q.1)),
     bl.foldl (fun e p => p.2.foldl (fun e q => e.or q.2) e) Ev.none)

/-- A decoded value in the combine format: one beyond its range becomes an infinity with OF (R422). -/
def toCombine (v : FV) : Nat × Ev := fp32.convert .rne false (v, Ev.none)

/-- The values of n wire elements, in the combine format, and the events (R211, R422). -/
def wireDec (w fmt n : Nat) (bs : List Byte) : List Nat × Ev :=
  let sz := fmtBytes (if fmt = 11 then 9 else fmt)
  if w = 0 then ((List.range n).map (fun i => natLE ((bs.drop (sz * i)).take sz)), Ev.none)
  else if w = 1 then ((List.range n).map (fun i => natLE ((bs.drop (2 * i)).take 2) * 65536), Ev.none)
  else
    let blk := wireBlk w
    let nb := if w = 4 then 6 else 13
    let xs := (List.range n).map (fun i =>
      toCombine (blockVal (wireFmt w) (bs.getD (i / blk) 0).toNat (bs.getD (nb + i) 0).toNat))
    (xs.map (·.1), xs.foldl (fun e p => e.or p.2) Ev.none)

/-! ### Instances -/

/-- Events joined to an instance's FLAGS: NV, OF, UF, NX, SAT (R422). -/
def RedInst.addEv (i : RedInst) (e : Ev) : RedInst :=
  let b := b2n e.nv + b2n e.of * 2 + b2n e.uf * 4 + b2n e.nx * 8 + b2n e.sat * 16
  { i with flags := i.flags ||| BitVec.ofNat 5 b }

/-- The instance of a group fails; ABORT goes to its parent and children (R424). -/
def Dev.redFail (d : Dev) (g : Nat) (f : Fin_) : Dev :=
  match (d.jn.grp g).inst with
  | none => d
  | some i => if i.fin.isSome then d else (d.redAbort g i f.status).updInst g (fun i => { i with fin := some { f with done := i.done } })

/-- The runs of a result written to DST: element numbers from `first`, in FMT, stopping at the first fault (R422, R424). -/
def Dev.redWrite (d : Dev) (g : Nat) (first : Nat) : List Nat → Dev
  | [] => d
  | v :: r =>
    let x := d.jn.grp g
    match x.inst with
    | none => d
    | some i =>
      let (b, ev) := redNarrow i.fmt v
      let a := addr48 i.dst + word (first * fmtBytes i.fmt)
      match d.ctxWrite x.ctx a (bytesLE (fmtBytes i.fmt) b) with
      | (d1, some c) => d1.redFail g ⟨3, c, 0, a⟩
      | (d1, none) => Dev.redWrite (d1.updInst g (fun i => { i with done := i.done + 1 }.addEv ev)) g (first + 1) r

/-- Chunk c of a group is finished at this node. -/
def Dev.chunkDone (d : Dev) (g c : Nat) : Dev := d.updInst g (fun i => { i with chunks := setAdd i.chunks c })

/-- The final values of chunk c at the root: written, and with ALL sent down as the wire carries them (R422). -/
def Dev.redFinal (d : Dev) (g c : Nat) (vals : List Nat) : Dev :=
  let x := d.jn.grp g
  match x.inst with
  | none => d
  | some i =>
    if i.all then
      let n := i.inChunk c
      let (bs, e1) := wireEnc i.wire i.fmt (vals ++ List.replicate (i.per - n) 0)
      let (vs, e2) := wireDec i.wire i.fmt n bs
      let d1 := d.updInst g (fun i => (i.addEv e1).addEv e2)
      let fl := d1.redFlit g i true false c 0 bs
      (Dev.redWrite (x.children.foldl (fun u l => u.toTree l fl) d1) g (c * i.per) vs).chunkDone g c
    else (Dev.redWrite d g (c * i.per) vals).chunkDone g c

/-- The fold of a chunk's operands (R421): in list order in a reproducible phase, else in order of arrival. -/
def foldOps (op fmt : Nat) : List (List Nat) → List Nat × Ev
  | [] => ([], Ev.none)
  | v :: r => r.foldl (fun (p : List Nat × Ev) w =>
      let xs := (p.1.zip w).map (fun q => redCombine op fmt q.1 q.2)
      (xs.map (·.1), xs.foldl (fun e q => e.or q.2) p.2)) (v, Ev.none)

/-- Every operand of chunk c has arrived: the node folds them and sends the result up, or keeps it at the root (R421). -/
def Dev.redFold (d : Dev) (g c : Nat) : Dev :=
  let x := d.jn.grp g
  match x.inst with
  | none => d
  | some i =>
    let mine := i.ops.filter (fun o => o.chunk == c)
    let want := if i.op = 3 then 1 else b2n x.localOp + x.nchild
    if i.chunks.contains c || i.fin.isSome || mine.length < want || want == 0 then d
    else
      let ordered := if d.repro then (List.range 9).flatMap (fun p => mine.filter (fun o => o.place == p)) else mine
      let (vals, ev) := foldOps i.op i.fmt (ordered.map (·.vals))
      let d1 := d.updInst g (fun i => ({ i with ops := i.ops.filter (fun o => o.chunk != c) }).addEv ev)
      if x.isRoot then d1.redFinal g c vals
      else
        let (bs, e1) := wireEnc i.wire i.fmt (vals ++ List.replicate (i.per - i.inChunk c) 0)
        let d2 := (d1.toTree x.parent (d1.redFlit g i false false c 0 bs)).updInst g (fun i => i.addEv e1)
        if i.all then d2
        else (d2.updInst g (fun i => { i with done := i.done + i.inChunk c })).chunkDone g c

/-- The node reads its own operand: LOCAL, or the root of a COPY. -/
def RedInst.readsLocal (i : RedInst) (x : RedGrp) : Bool := if i.op = 3 then x.isRoot else x.localOp

/-- The read of the next chunk of the local operand completes (R421, R424). -/
def Dev.localOperand (d : Dev) (g : Nat) : Dev :=
  let x := d.jn.grp g
  match x.inst with
  | none => d
  | some i =>
    let c := i.nextLocal
    if i.fin.isSome || decide (i.nchunks ≤ c) || !i.readsLocal x then d
    else
      let sz := fmtBytes i.fmt
      let a := addr48 i.src + word (c * i.per * sz)
      match d.ctxRead x.ctx a (i.inChunk c * sz) with
      | .error (code, fa) =>
        let d1 := match d.dmaPlace x.ctx .load fa.toNat with
          | .ok pa _ => d.poisonEvent pa
          | .fault _ => d
        if code = 0x12 then d1.redFail g ⟨0x10, code, 0, fa⟩ else d.redFail g ⟨3, code, 0, fa⟩
      | .ok v =>
        let vals := (List.range (i.inChunk c)).map (fun j => redWiden i.fmt (v >>> (8 * sz * j) % 2 ^ (8 * sz)))
        (d.updInst g (fun i => { i with nextLocal := c + 1, ops := i.ops ++ [⟨c, 0, vals⟩] })).redFold g c

/-- GO: an idle group reads its descriptor, checks it and starts (R419, R420). COUNT = 0 ends at once with DONE. -/
def Dev.redGo (d : Dev) (g : Nat) : Dev :=
  let x := d.jn.grp g
  if x.inst.isSome then d
  else
    let stop (i : RedInst) (f : Fin_) : Dev := d.updGrp g (fun x => { x with inst := some { i with fin := some f } })
    let a := word x.addr
    match d.ctxRead x.ctx a 64 with
    | .error (c, _) => stop (redOf x.addr 0) ⟨3, c, 0, a⟩
    | .ok v =>
      let i := redOf x.addr v
      if !bitOf v 511 then stop i ⟨0x12, 0, 0, 0⟩
      else if !redCodesOk v || !d.ctxStnOk x.ctx then stop i ⟨2, 0, 0, 0⟩
      else if i.count = 0 then stop i ⟨0, 0, 0, 0⟩
      else d.updGrp g (fun x => { x with inst := some i })

/-- A write of JN_RGOg (R419). -/
def Dev.rgoWrite (d : Dev) (g : Nat) (v : Word) : Dev :=
  if (d.jn.grp g).inst.isSome then d
  else
    let d1 := d.updGrp g (fun x => { x with addr := wfld v 47 6 * 64 })
    if wbit v 0 then d1.redGo g else d1

/-- The instance has done all its node has to do. -/
def RedInst.complete (x : RedGrp) (i : RedInst) : Bool :=
  if i.op == 3 && !i.all && !x.isRoot then true else decide (i.nchunks ≤ i.chunks.length)

/-- The end of a group's instance: DONE when everything is done, or the failure found; the status is written, OWN cleared,
and THR interrupted (R379, R387, R419, R424). NOT_OWNED and a failed read write nothing. -/
def Dev.reductionEnd (d : Dev) (g : Nat) : Dev :=
  let x := d.jn.grp g
  match x.inst with
  | none => d
  | some i =>
    let fin : Option Fin_ := i.fin.or (if i.complete x then some ⟨0, 0, i.done, 0⟩ else none)
    match fin with
    | none => d
    | some f =>
      let silent := f.status == 0x12 || (f.status == 3 && f.addr == word i.addr)
      let (d2, bad) := if silent then (d, none) else d.statusWrite x.ctx (word i.addr) f [i.flags.zeroExtend 8]
      let f2 : Fin_ := match bad with
        | some c => { f with status := 3, fcode := c }
        | none => f
      (d2.updGrp g (fun y => { y with inst := none, status := f2.status, fcode := f2.fcode, done := f2.done })).chanIrq x.ctx

/-- A RED flit that reached this device over link l (R421 to R424). -/
def Dev.redTake (d : Dev) (l : Nat) (f : Flit) : Dev :=
  let g := flitU f 12 1 % 16
  let x := d.jn.grp g
  let chunk := flitU f 20 4
  let down := flitU f 13 1 % 2 = 1
  match x.inst with
  | none =>
    if bitOf (flitU f 13 1) 1 then d
    else
      let fl := d.redFlit g { redOf 0 0 with seq := flitU f 16 4 } false true 0 2 []
      ((if x.isRoot then [] else [x.parent]) ++ x.children).foldl (fun u k => u.toTree k fl) d
  | some i =>
    if bitOf (flitU f 13 1) 1 then d.updInst g (fun i => if i.fin.isSome then i else { i with fin := some ⟨0x11, 0, i.done, 0⟩ })
    else if flitU f 16 4 ≠ i.seq ∨ flitU f 24 1 ≠ i.op ∨ flitU f 25 1 ≠ i.fmt ∨ flitU f 26 1 ≠ i.wire ∨ i.nchunks ≤ chunk then
      d.redFail g ⟨2, 0, 0, 0⟩
    else if i.fin.isSome then d
    else
      let bs := flitBytes f 28 224
      let (vs, ev) := wireDec i.wire i.fmt (i.inChunk chunk) bs
      if down then
        if l ≠ x.parent ∨ !i.all then d.redFail g ⟨2, 0, 0, 0⟩
        else
          let d1 := x.children.foldl (fun u k => u.toTree k (u.redFlit g i true false chunk 0 bs)) d
          (Dev.redWrite (d1.updInst g (fun i => i.addEv ev)) g (chunk * i.per) vs).chunkDone g chunk
      else match (List.range x.nchild).find? (fun k => x.child k == l) with
        | none => d.redFail g ⟨2, 0, 0, 0⟩
        | some k =>
          let o : RedOp := ⟨chunk, k + 1, vs⟩
          (d.updInst g (fun i => { i with ops := i.ops ++ [o] }.addEv ev)).redFold g chunk

/-- A write of the JN_ page (R410, R418, R419). -/
def Dev.jnWrite (d : Dev) (off : Nat) (v : Word) : Dev :=
  if off = 8 then { d with jn := { d.jn with rtId := wfld v 15 0, rtInc := wbit v 16 } }
  else if off = 0x10 then { d with jn := d.jn.rtWrite v }
  else if 0x100 ≤ off ∧ off < 0x180 then d.updGrp ((off - 0x100) / 8) (fun x => x.cfgWrite v)
  else if 0x180 ≤ off ∧ off < 0x200 then
    d.updGrp ((off - 0x180) / 8) (fun x => if x.inst.isSome then x else { x with ctx := ctxBits v })
  else if 0x200 ≤ off ∧ off < 0x280 then d.rgoWrite ((off - 0x200) / 8) v
  else d

end Sys2Proof.Machine
end

