-- ==== Sys2Proof/Machine/Recorder.lean ====
section
/-! DEFINITION. The recorder's ring and registers (R496 to R500). -/

namespace Sys2Proof.Machine

/-- Entries of the ring (R496). -/
def ringSize : Nat := 65536

/-- A 32-bit sequence after the given one, skipping 0. -/
def nextSeq32 (n : Nat) : Nat := if (n + 1) % 2 ^ 32 = 0 then 1 else (n + 1) % 2 ^ 32

/-- A counter of 32 bits that saturates. -/
def sat32 (n : Nat) : Nat := min 0xFFFFFFFF n

/-- The 32 bytes of an entry (R497). -/
def RecEv.bits (e : RecEv) (seq : Nat) (froze : Bool) : BitVec 256 :=
  BitVec.ofNat 256 (e.tick % 2 ^ 64 + (e.ns % 2 ^ 32) * 2 ^ 64 + e.src % 65536 * 2 ^ 96 + e.code % 256 * 2 ^ 112
    + (e.cls % 8 + b2n froze * 8 + e.boots % 16 * 16) * 2 ^ 120 + e.consist % 4096 * 2 ^ 128 + e.inst % 65536 * 2 ^ 144
    + (e.data % 2 ^ 64) * 2 ^ 160 + seq * 2 ^ 224)

/-- An entry written at HEAD. -/
def Rec.put (r : Rec) (e : RecEv) (froze : Bool) : Rec :=
  { r with ring := r.ring.set r.head (e.bits r.nextSeq froze), head := (r.head + 1) % ringSize,
           full := r.full || decide (r.head + 1 = ringSize), nextSeq := nextSeq32 r.nextSeq }

/-- A freeze begins: RC_FRZ, and the count of entries that may still be written (R499). -/
def Rec.freezeAt (r : Rec) (seq : Nat) : Rec := { r with frozen := true, frz := seq, since := 0, postDone := r.post == 0 }

/-- An entry that leaves the input queue is written, or lost after POSTDONE; a trigger freezes (R499). -/
def Rec.write (r : Rec) (now : Nat) (e : RecEv) : Rec :=
  if !r.frozen then
    (let r1 := r.put e e.trig
     if e.trig then { r1.freezeAt r.nextSeq with trigAt := some now } else r1)
  else if r.postDone || decide (r.post ≤ r.since) then { r with postDone := true, lost := sat32 (r.lost + 1) }
  else { r.put e false with since := r.since + 1, postDone := decide (r.post ≤ r.since + 1) }

/-- The place in the queue of the entry written next: of the events detected in one cycle, the lowest SRC, then INST
(R498). -/
def Rec.nextEv (r : Rec) : Option RecEv :=
  match r.queue with
  | [] => none
  | e :: q => some ((q.takeWhile (fun x => x.tick == e.tick && x.ns == e.ns)).foldl
      (fun m x => if x.src < m.src ∨ (x.src = m.src ∧ x.inst < m.inst) then x else m) e)

/-- The next queued entry is written, and a held class-4 or class-5 event enters the slot that frees (R498). -/
def Rec.drain (r : Rec) (now : Nat) : Rec :=
  match r.nextEv with
  | none => r
  | some e =>
    let r1 := { r.write now e with queue := dropFirst (fun x => x == e) r.queue }
    match r1.hold with
    | [] => r1
    | x :: h => if r1.queue.length < recSlots then { r1 with queue := r1.queue ++ [x], hold := h } else r1

/-- The RSEQ of the last entry written. -/
def Rec.lastSeq (r : Rec) : Nat :=
  if r.nextSeq = 1 then (if r.ring.entries.isEmpty then 0 else 0xFFFFFFFF) else r.nextSeq - 1

/-- RC_CTRL.FREEZE (R499). -/
def Rec.freezeNow (r : Rec) : Rec := if r.frozen then r else r.freezeAt r.lastSeq

/-- RC_CTRL.UNFREEZE: a trigger of the same instant begins a new freeze (R499). -/
def Rec.unfreeze (r : Rec) (now : Nat) : Rec :=
  let r1 := { r with lost := 0, postDone := false }
  if !r.frozen then r1
  else if r.trigAt = some now then r1.freezeAt r.frz else { r1 with frozen := false, since := 0 }

/-- RC_CTRL.CLEAR: while frozen, the ring is emptied and the cleared entry written (R500). -/
def Dev.rcClear (d : Dev) : Dev :=
  if !d.rc.frozen then d
  else
    let e : RecEv := { tick := d.tt.tick, ns := (d.now - d.tt.lastB) / nsU, src := 0x0E, code := 1, cls := 0, boots := d.rc.boots,
                       consist := d.consist, inst := 0, data := 0, trig := false }
    { d with rc := ({ d.rc with ring := .empty, head := 0, full := false }).put e false }

/-- A write of RC_CTRL: POST, then FREEZE, CLEAR and UNFREEZE in that order (R500). -/
def Dev.rcCtrl (d : Dev) (v : Word) : Dev :=
  let d1 := { d with rc := { d.rc with post := wfld v 31 16 } }
  let d2 := if wbit v 0 then { d1 with rc := d1.rc.freezeNow } else d1
  let d3 := if wbit v 2 then d2.rcClear else d2
  if wbit v 1 then { d3 with rc := d3.rc.unfreeze d3.now } else d3

/-- The entry at an index of the ring. -/
def Rec.entry (r : Rec) (i : Nat) : BitVec 256 := r.ring.getD i 0

/-- A write of RC_RIDX latches the entry (R500). -/
def Rec.ridxWrite (r : Rec) (v : Word) : Rec := { r with ridx := wfld v 15 0, rdata := r.entry (wfld v 15 0) }

/-- RC_STAT. -/
def Rec.stat (r : Rec) : Word :=
  word (b2n r.frozen + b2n r.postDone * 2 + b2n r.full * 4 + r.boots * 2 ^ 8 + r.head * 2 ^ 16 + r.nextSeq * 2 ^ 32)

/-- RC_ESTAT. -/
def Dev.estat (d : Dev) : Word := word (b2n d.cfatal + b2n d.dfatal * 2 + b2n d.retireEv * 4)

/-- A read of the RC_ page. -/
def Dev.rcRead (d : Dev) (off : Nat) : Word :=
  let r := d.rc
  if off = 0 then word (r.post * 2 ^ 16)
  else if off = 8 then r.stat
  else if off = 0x10 then word (r.lost + r.drop * 2 ^ 32)
  else if off = 0x18 then word r.ridx
  else if 0x20 ≤ off ∧ off < 0x40 then word (r.rdata.toNat >>> (8 * (off - 0x20)))
  else if off = 0x40 then word r.frz
  else if off = 0x48 then d.estat
  else if off = 0x50 ∨ off = 0x58 then word (d.retStn.toNat >>> (8 * (off - 0x50)))
  else if off = 0x60 ∨ off = 0x68 then word (d.retPend.toNat >>> (8 * (off - 0x60)))
  else if 0x88 ≤ off ∧ off ≤ 0xA8 then word (r.cnt.getD ((off - 0x80) / 8) 0)
  else 0

/-- A write of the RC_ page. -/
def Dev.rcWrite (d : Dev) (off : Nat) (v : Word) : Dev :=
  if off = 0 then d.rcCtrl v
  else if off = 0x18 then { d with rc := d.rc.ridxWrite v }
  else if off = 0x48 then { d with retireEv := d.retireEv && !wbit v 2 }
  else d

end Sys2Proof.Machine
end

