-- ==== Sys2Proof/Machine/Reset.lean ====
section
/-! DEFINITION. The resets, the device-fatal stop and the supplies (R490, R517, R542 to R560, R566), and the snapshot of the
accounting that a binding's end takes (R481 to R483). -/

namespace Sys2Proof.Machine

/-! ### Accounting -/

/-- Bound and held time so far, in ns (R481). -/
def Dev.acctNs (d : Dev) : Nat × Nat :=
  let b := d.bd
  if b.counting then
    ((d.now - b.boundFrom) / nsU, (b.held + (match b.heldFrom with
      | some t => d.now - t
      | none => 0)) / nsU)
  else (b.lastNs, b.lastHeld)

/-- The number of ones of a mask. -/
def ones (m : BitVec 128) : Nat := ((List.range 128).filter (fun i => m.getLsbD i)).length

/-- The accounting is snapshot for a seal with a cause; `stop` ends the counting (R477 step 2, R482, R483). -/
def Dev.snapshot (d : Dev) (cause : Nat) (stop : Bool) : Dev :=
  let b := d.bd
  let (bn, hn) := d.acctNs
  let n := (b.sseq + 1) % 2 ^ 32
  let s : Seal :=
    { cause := cause, consist := d.consist, devid := d.jn.devid, nstn := ones (d.listed.getD 0), sseq := n, halts := b.halts,
      bindTick := b.bindTick, endTick := d.tt.tick, boundNs := bn, heldNs := hn, late := b.late, digest := b.digest,
      phases := b.phases, at_ := d.now }
  { d with bd := { b with sseq := n, unsigned := b.unsigned ++ [s], counting := b.counting && !stop,
                          lastNs := if stop then bn else b.lastNs, lastHeld := if stop then hn else b.lastHeld } }

/-- Binding after a reset or a loss of power: UNBOUND; an interrupted binding is snapshot with CAUSE RESET (R480, R483). -/
def Dev.bindLost (d : Dev) : Binding :=
  let b := (if d.bd.counting then d.snapshot 4 true else d).bd
  { Binding.reset with lastNs := b.lastNs, lastHeld := b.lastHeld, bindTick := b.bindTick, halts := b.halts, late := b.late,
                       phases := b.phases, sseq := b.sseq, unsigned := b.unsigned, owed := !b.unsigned.isEmpty }

/-! ### Station reset (R557) -/

/-- LOAD + ENTRY of the running image (R508). -/
def Dev.monitorPc (d : Dev) : Option Word := d.sec.image.map (fun i => word (i.load + i.entry))

/-- The engine after its work has ended at once: its reset state, but for a ballast level that only falls (R195, R545). -/
def Engine.cut (e : Engine) : Engine := { Engine.reset with level := e.level, falling := decide (0 < e.level) }

/-- A station after its reset: held, or with thread 0 at an address in ring 0 (R55, R471, R508, R557). -/
def Station.afterReset (s : Station) (pc : Option Word) (off : Bool) : Station :=
  let r := { Station.reset with eng := s.eng.cut, spState := if off then 2 else 0, spTarget := if off then 2 else 0 }
  match pc with
  | some a => r.updThr 0 (fun t => { t with pc := a })
  | none => { r with held := true }

/-- Station n of a running device is held in reset: not listed by the bound record (R471), or the device has not released
its stations (R544). -/
def Dev.stnRuns (d : Dev) (n : Nat) : Bool := d.pw.state == .running && d.usable n

/-- A station reset (R377, R471, R557): the channels whose context names the station stop; the station comes up at the
device monitor entry, or stays held. An absent station is left alone. -/
def Dev.stnReset (d : Dev) (n : Nat) : Dev :=
  if !d.present n then d
  else
    let d1 := d.stopChans 5 (fun y => ctxStn y.ctx == n)
    d1.updStn n (fun s => s.afterReset (if d1.stnRuns n then d1.monitorPc else none) (!d1.usable n))

/-- The station resets a write of CK_SRSTj names (R557). -/
def Dev.srstWrite (d : Dev) (j : Nat) (v : Word) : Dev :=
  (List.range 64).foldl (fun u b => if wbit v b then u.stnReset (64 * j + b) else u) d

/-! ### Device-fatal stop (R490) -/

/-- A station that a device-fatal error stops: its threads and its engine work end, its ballast level only falls. -/
def Station.stopDead (s : Station) : Station :=
  { s with held := true, running := none, tops := [],
           eng := { s.eng with queue := [], blk := none, falling := decide (0 < s.eng.level) },
           ge := s.ge.mapVal (fun _ g => if g.active then { g with state := 4, ends := none } else g) }

/-- The key slots and the pending keys are destroyed (R370, R490, R517). -/
def Dev.dropKeys (d : Dev) : Dev :=
  { d with mem := { d.mem with key0 := none, key1 := none, key2 := none }, bd := { d.bd with new := none } }

/-- The device-fatal actions (R490). A fault of the junction takes every link down. -/
def Dev.fatal (d : Dev) (src code inst data : Nat) (junction : Bool) : Dev :=
  let d1 := d.event src code 5 inst data true
  let d2 := { d1 with stns := d1.stns.mapVal (fun _ s => s.stopDead), dfatal := true,
                      sh := { d1.sh with chans := d1.sh.chans.mapVal (fun _ y => { y with mode := 0, req := none }) },
                      jn := { d1.jn with groups := d1.jn.groups.mapVal (fun _ g => { g with inst := none }) } }
  let d3 := d2.dropKeys
  if junction then (List.range 24).foldl (fun u l => u.linkDisable l) d3 else d3

/-- The device is powered and has met no device-fatal error. -/
def Dev.up (d : Dev) : Bool := (d.pw.state == .boot || d.pw.state == .running) && !d.dfatal

/-! ### Device resets (R517, R543, R554 to R556) -/

/-- Boot and security after a reset: STRAP is sampled; a reserved source stops the boot (R501, R517). -/
def Sec.restart (s : Sec) (strap : BitVec 4) : Sec :=
  { Sec.reset with strap := strap, counter := s.counter, revoked := s.revoked, code := if strap.getLsbD 1 then 8 else 0 }

/-- The host interface after a reset: the port of the boot source is enabled in LMODE 0 (R503, R555). -/
def hostBoot (strap : BitVec 4) : HostIf :=
  if strap.toNat % 4 = 1 then
    { HostIf.reset with ports := HostIf.reset.ports.set (strap.toNat / 4) { HiPort.reset with en := true } }
  else HostIf.reset

/-- The memory system after a reset: a fresh slot 0 key, so that what GDDR7 held is unreadable (R370, R517). -/
def MemSys.restart (m : MemSys) (retired : List Nat) : MemSys :=
  { MemSys.reset with far := m.far, retired := retired, key0 := some (2 * m.nextKey), nextKey := m.nextKey + 1 }

/-- The links and the junction through a warm reset: links that are UP, the route table and JN_DEVID stay; other links
receive a link reset; through traffic goes on (R417, R556). -/
def Dev.keepLinks (d : Dev) : Tab Link × Junction :=
  (d.links.mapVal (fun _ k => if k.isUp then k else k.resetLink.tryTrain d.now),
   { Junction.reset with devid := d.jn.devid, routes := d.jn.routes, inq := d.jn.inq, oid := d.jn.oid })

/-- The timetable through a reset that leaves VIN_12V applied: the tick number counts on (R27, R543). -/
def Tt.restart (t : Tt) : Tt := { Tt.reset with tick := t.tick, lastB := t.lastB, curPeriod := t.curPeriod }

/-- What a cold and a warm reset share: every register at its reset value, the device UNBOUND in BOOT; recorder, accounting,
fuses, PM_CAP and PM_THERM kept; RC_STAT.BOOTS one higher; a new boot identifier (R496, R532, R556). -/
def Dev.restart (d : Dev) (cause : Nat) (strap : BitVec 4) (retired : List Nat) : Dev :=
  { Dev.reset with
    now := d.now, made := d.made, out := d.out, free := d.free + 1,
    mem := d.mem.restart retired, tt := d.tt.restart, rc := { d.rc with boots := (d.rc.boots + 1) % 256 },
    host := hostBoot strap, bd := d.bindLost, sec := { d.sec.restart strap with tryAt := d.now },
    dict := { Dict.reset with bootId := Config.freeValue d.free % 2 ^ 64, sampled := d.now },
    pw := { d.pw with state := .boot, pin := 0, tj := 0, throt := false, floor := false, capped := false, cause := cause },
    stns := d.stns.mapVal (fun _ s => { s.afterReset none false with held := true }), tap := d.tap }

/-- A warm reset (R556). It does nothing unless the device is powered, and does not clear a lost reference (R550). -/
def Dev.warmReset (d : Dev) (cause : Nat) (strap : BitVec 4) : Dev :=
  if !(d.pw.state == .boot || d.pw.state == .running) || d.pw.lock &&& 0x8F#8 != 0x8F#8 then d
  else
    let (ls, j) := d.keepLinks
    { d.restart cause strap d.mem.retired with links := ls, jn := j, retStn := d.retStn, retPend := d.retPend }

/-- A cold reset (R543, R555): retirements of stations end, and GDDR7 channels are tested again; `bad` lists those that fail.
With the rails coming up, the tick number, the power registers and the energy start again. -/
def Dev.coldReset (d : Dev) (cause : Nat) (strap : BitVec 4) (bad : List Nat) (rails : Bool) : Dev :=
  let d1 := d.restart cause strap (bad.foldl setAdd [])
  let d2 := { d1 with stns := .empty, pw := { d1.pw with lock := 0x8F }, tap := Tap.reset }
  if rails then { d2 with pw := { Pwr.reset with cause := cause }, tt := { Tt.reset with lastB := d.now } } else d2

/-! ### Supplies (R549, R566) -/

/-- The rails of VIN_12V are off: what standby power does not keep is lost (R496, R542). -/
def Dev.railsOff (d : Dev) (p : Power) : Dev :=
  { Dev.reset with
    now := d.now, made := d.made, out := d.out, free := d.free, rc := d.rc, bd := d.bindLost,
    sec := { Sec.reset with counter := d.sec.counter, revoked := d.sec.revoked },
    mem := { MemSys.reset with far := d.mem.far, key0 := none, nextKey := d.mem.nextKey },
    pw := { Pwr.reset with state := p, lock := 0 } }

/-- Standby power is lost: the recorder and the accounting go too (R542). -/
def Dev.standbyLost (d : Dev) : Dev := { d.railsOff .off with rc := Rec.reset, bd := Binding.reset }

/-! ### PM_ and CK_ registers -/

/-- PM_STAT. -/
def Dev.pmStat (d : Dev) : Word :=
  word (d.capL + b2n d.pw.capped * 2 ^ 9 + b2n d.pw.floor * 2 ^ 10 + b2n d.pw.throt * 2 ^ 11 + d.pw.tj % 65536 * 2 ^ 32
    + d.pw.pin * 2 ^ 48)

/-- A read of the PM_ page. -/
def Dev.pmRead (d : Dev) (off : Nat) : Word :=
  if off = 0 then word (d.pw.cap + b2n d.pw.capEn * 2 ^ 16 + d.pw.hyst * 2 ^ 32)
  else if off = 8 then d.pmStat
  else if off = 0x10 then word (110 * 2 ^ 8 + d.pw.throttle)
  else if off = 0x18 then word d.pw.energy
  else 0

/-- A write of the PM_ page: a value out of its field's range leaves the field (R546 registers). -/
def Pwr.write (p : Pwr) (off : Nat) (v : Word) : Pwr :=
  if off = 0 then
    { p with hyst := keepRange 0 1000 (wfld v 41 32) p.hyst, capEn := wbit v 16, cap := keepRange 1000 3500 (wfld v 11 0) p.cap }
  else if off = 8 then { p with floor := p.floor && !wbit v 10 }
  else if off = 0x10 then { p with throttle := keepRange 85 105 (wfld v 7 0) p.throttle }
  else p

/-- CK_STAT. -/
def Dev.ckRead (d : Dev) (off : Nat) : Word := if off = 0x18 then word (d.pw.lock.toNat + d.pw.cause * 2 ^ 32) else 0

/-- A write of the CK_ page in a ring: host-port and station resets, and the warm reset, which ring 0 alone may order (R554,
R557, R559). The straps are sampled again at their present level. -/
def Dev.ckWrite (d : Dev) (ring off : Nat) (v : Word) : Dev :=
  if off = 0 then
    (let d1 := (List.range 4).foldl (fun u h => if wbit v (8 + h) then u.hostPortReset h else u) d
     if wbit v 0 && ring == 0 then d1.warmReset 4 d1.sec.strap else d1)
  else if off = 8 then d.srstWrite 0 v
  else if off = 0x10 then d.srstWrite 1 v
  else d

/-! ### SEC_ and BD_ registers -/

/-- A read of the SEC_ page. -/
def Sec.read (s : Sec) (off : Nat) : Word :=
  if off = 0 then word (s.keyidx + b2n s.dbg * 8 + s.rejects * 2 ^ 8 + s.code * 2 ^ 16 + s.svn * 2 ^ 32)
  else if off = 8 then word (s.counter + s.revoked.toNat * 2 ^ 8)
  else 0

/-- A read of the BD_ page. -/
def Dev.bdRead (d : Dev) (off : Nat) : Word :=
  if off = 0 then word (d.bd.state + d.bd.step * 2 ^ 16 + d.bd.reason * 2 ^ 32 + d.consist * 2 ^ 40)
  else if off = 8 then word d.acctNs.1
  else if off = 0x10 then word d.acctNs.2
  else 0

end Sys2Proof.Machine
end

