-- ==== Sys2Proof/Machine/Registers.lean ====
section
/-! DEFINITION. Reads and writes of memory-mapped registers, as one 64-bit access from a ring (R10, R332, R343). -/

namespace Sys2Proof.Machine

/-- A load from a register page. Only a load of JN_RTDATA changes anything (R410). -/
def Dev.unitRead (d : Dev) (u : Unit_) (off : Nat) : Dev × Word :=
  match u with
  | .tt => (d, d.tt.read off)
  | .ca => (d, d.mem.caRead off)
  | .ft => (d, d.mem.ftRead off)
  | .sh e => (d, d.shRead e off)
  | .jn => let (j, v) := d.jn.read off; ({ d with jn := j }, v)
  | .lk l => (d, (d.link l).read off)
  | .hi h => (d, (d.host.port h).read off)
  | .ld => (d, d.ldReg off)
  | .bd => (d, d.bdRead off)
  | .rc => (d, d.rcRead off)
  | .pm => (d, d.pmRead off)
  | .ck => (d, d.ckRead off)
  | .sec => (d, d.sec.read off)
  | .feat => (d, featRead off)
  | .stSp n => (d, if off = 0 then (d.stn n).spPwr else 0)
  | .stGe n => (d, (d.stn n).geRead off)
  | .stMm n => (d, if off = 0 then (d.stn n).mmRoot else 0)

/-- A store to a register page from a ring, by a thread number where a unit latches one (R335). -/
def Dev.unitStore (d : Dev) (ring thr : Nat) (u : Unit_) (off : Nat) (v : Word) : Dev :=
  match u with
  | .tt => d.ttWrite off v
  | .ca => { d with mem := d.mem.caWrite off v }
  | .ft => d.ftWrite off v
  | .sh e => d.shWrite e off v
  | .jn => d.jnWrite off v
  | .lk l => d.lkWrite l off v
  | .hi h => d.updPort h (fun p => p.write off v)
  | .ld => d.ldRegWrite off v
  | .bd => d
  | .rc => d.rcWrite off v
  | .pm => { d with pw := d.pw.write off v }
  | .ck => d.ckWrite ring off v
  | .sec => d
  | .feat => d
  | .stSp n => if off = 0 then d.updStn n (fun s => s.spPwrWrite v) else d
  | .stGe n => d.updStn n (fun s => s.geWrite off v thr ring)
  | .stMm n =>
    if off = 0 then d.updStn n (fun s => s.mmRootWrite v) else if off = 8 then d.tlbInvWrite n v else d

/-- A load from a register page by a hart. -/
def Dev.regRead (d : Dev) (_h : Hart) (u : Unit_) (off : Nat) : Dev × Word := d.unitRead u off

/-- A store to a register page by a hart. -/
def Dev.regWrite (d : Dev) (h : Hart) (u : Unit_) (off : Nat) (v : Word) : Dev := d.unitStore (d.thr h).ring h.thr u off v

/-- A store of a hart reaches a register: the hart's station runs, and its ring may store there (R343). A store that may not
is turned away here; the store instruction itself takes ST_ACC (log entry 7). -/
def Dev.unitWrite (d : Dev) (h : Hart) (u : Unit_) (off : Nat) (v : Word) : Dev :=
  if d.usable h.stn && (d.stn h.stn).live && d.exists_ (.reg u off) && ringMayReg (d.thr h).ring true u off then d.regWrite h u off v else d

end Sys2Proof.Machine
end

