-- ==== Sys2Proof/Machine/TileOps.lean ====
section
/-! DEFINITION. Tile registers: configuration, expected shapes and shape faults, ownership, the scoreboard, and the bytes of
rows (R149 to R168). -/

namespace Sys2Proof.Machine

/-- TC_CFGn. -/
def Station.cfg (s : Station) (n : Nat) : Nat := (s.tcfg.getD n 0).toNat

/-- FMT of a configuration. -/
def cfgFmt (v : Nat) : Nat := fld v 28 24
/-- BPR of a configuration, in bytes. -/
def cfgBytes (v : Nat) : Nat := fld v 22 16 * 16
/-- ROWS of a configuration. -/
def cfgRows (v : Nat) : Nat := fld v 10 0

/-- Whether V is accepted as a configuration (R151). -/
def cfgOk (v : Nat) : Bool :=
  v == 0 ||
  (fld v 31 29 == 0 && fld v 23 23 == 0 && fld v 15 11 == 0 && decide (1 ≤ cfgFmt v) && decide (cfgFmt v ≤ 15)
    && decide (1 ≤ cfgRows v) && decide (cfgRows v ≤ 1024) && decide (1 ≤ fld v 22 16) && decide (fld v 22 16 ≤ 64)
    && decide (cfgRows v * cfgBytes v ≤ 65536) && (!(cfgFmt v == 7 || cfgFmt v == 8) || cfgBytes v % 48 == 0))

/-- An expected shape: rows, bytes per row / 16, format; 0 constrains nothing (R165). -/
structure Shape where
  rows : Nat
  bpr : Nat
  fmt : Nat
  deriving DecidableEq, Repr

/-- Whether a configuration matches an expected shape: the tile is configured and every constrained field is equal
(R165). -/
def Shape.matches (e : Shape) (v : Nat) : Bool :=
  v != 0 && (e.rows == 0 || e.rows == cfgRows v) && (e.bpr == 0 || e.bpr == fld v 22 16) && (e.fmt == 0 || e.fmt == cfgFmt v)

/-- The operation codes of TC_FAULT.OPC (R166). -/
inductive TOpc where
  | tshape
  | tfill
  | tdump
  | tblank
  | trv
  | twv
  | meb
  | mea
  | meacc
  | mest
  | mego
  | merun
  deriving DecidableEq, Repr

/-- The code of TC_FAULT.OPC. -/
def TOpc.code : TOpc → Nat
  | .tshape => 1
  | .tfill => 2
  | .tdump => 3
  | .tblank => 4
  | .trv => 5
  | .twv => 6
  | .meb => 8
  | .mea => 9
  | .meacc => 0x0A
  | .mest => 0x0B
  | .mego => 0x0C
  | .merun => 0x0D

/-- TC_FAULT of a shape fault: the tile, its configuration and the expected shape (R166). -/
def tcFaultOf (op : TOpc) (tile cfg : Nat) (e : Shape) : Word :=
  word (tile * 2 ^ 61 + cfgFmt cfg * 2 ^ 56 + fld cfg 22 16 * 2 ^ 48 + cfgRows cfg * 2 ^ 32 + (e.fmt % 32) * 2 ^ 24
    + (e.bpr % 128) * 2 ^ 16 + op.code * 2 ^ 11 + e.rows % 2048)

/-- TC_FAULT of a rejected configuration: the EXP fields hold V's, the CFG fields the configuration kept (R166). -/
def tcFaultCfg (tile cfg v : Nat) : Word := tcFaultOf .tshape tile cfg ⟨cfgRows v, fld v 22 16, cfgFmt v⟩

/-- TILE_SHAPE on a hart: TC_FAULT is written by the entry (R165, R166). An entry that finds its shadow set occupied locks
up and writes nothing. -/
def Dev.shapeFault (d : Dev) (h : Hart) (f : Word) : Dev :=
  let t := d.thr h
  let d1 := d.exc h 0x0D 0
  if t.occ (min t.ring ((d.stn h.stn).del 0x0D)) then d1 else d1.updThr h (fun u => { u with tcFault := f })

/-- TILE_CFG on a hart (R151, R166). -/
def Dev.cfgFault (d : Dev) (h : Hart) (f : Word) : Dev :=
  let t := d.thr h
  let d1 := d.exc h 0x0E 0
  if t.occ (min t.ring ((d.stn h.stn).del 0x0E)) then d1 else d1.updThr h (fun u => { u with tcFault := f })

/-- TILE_OWN on a hart (R160). -/
def Dev.ownFault (d : Dev) (h : Hart) : Dev := d.exc h 0x0F 0

/-- A thread owns the tile registers and the engine (R160, R162: not while the release is pending). -/
def Station.owns (s : Station) (t : Fin 4) : Bool := s.owner == some t && !s.ownPend

/-! ### References to tiles (R153, R157, R182, R187, R246) -/

/-- The tiles an A-list entry names. -/
def AEnt.tiles (a : AEnt) : List Nat := if a.bs = 0 then [a.tile] else [a.tile, a.stile]

/-- The tiles a drain writes: DTILE, OSTILE, RSTILE (R246). -/
def drnWrites (desc : Word) : List Nat :=
  (if wfld desc 1 0 = 0 then [wfld desc 34 32] else []) ++ (if wfld desc 30 29 ≠ 0 then [wfld desc 37 35] else [])
    ++ (if wbit desc 7 then [wfld desc 50 48] else [])

/-- The tiles a drain reads: PTILE (R246). -/
def drnReads (desc : Word) : List Nat := if wfld desc 45 43 ≠ 0 then [wfld desc 42 40] else []

/-- The tiles an engine entry reads. -/
def QKind.reads : QKind → List Nat
  | .meb a _ _ _ => a.tiles
  | .meacc zero tile _ => if zero then [] else [tile]
  | .mego op => op.alist.flatMap AEnt.tiles
  | .mest d => if wfld d.desc 1 0 = 2 then [] else drnReads d.desc
  | .merun _ _ _ => []

/-- The tiles an engine entry writes. -/
def QKind.writes : QKind → List Nat
  | .mest d => if wfld d.desc 1 0 = 2 then [] else drnWrites d.desc
  | _ => []

/-- A command block is queued or running: towards the instructions threads issue it references all eight tiles (R153). -/
def Engine.hasBlock (e : Engine) : Bool :=
  e.queue.any (fun q => match q.kind with
    | .merun _ _ _ => true
    | _ => false)

/-- Whether an operation in flight reads or writes a tile. -/
def Station.tileUsed (s : Station) (n : Nat) : Bool :=
  s.tops.any (fun o => o.tile == n) || s.eng.queue.any (fun q => q.kind.reads.contains n || q.kind.writes.contains n)

/-- Whether an operation in flight writes a tile. -/
def Station.tileWritten (s : Station) (n : Nat) : Bool :=
  s.tops.any (fun o => o.tile == n && o.write) || s.eng.queue.any (fun q => q.kind.writes.contains n)

/-- Whether a new operation on a tile must wait (R157): a pair with at least one write is ordered. -/
def Station.tileWait (s : Station) (n : Nat) (write : Bool) : Bool := if write then s.tileUsed n else s.tileWritten n

/-- The same for an instruction a thread issues, which also waits for a command block (R153). -/
def Station.tileWaitThr (s : Station) (n : Nat) (write : Bool) : Bool := s.eng.hasBlock || s.tileWait n write

/-! ### Tile bytes -/

/-- Tile n's bytes. -/
def Station.tile (s : Station) (n : Nat) : Mem := s.tiles.getD n Mem.empty

/-- The write generation of a tile advances (R164). -/
def Station.bumpGen (s : Station) (n : Nat) : Station := { s with tgen := s.tgen.set n (s.tgen.getD n 0 + 1) }

/-- Tile n with its bytes replaced; its write generation advances. -/
def Station.setTile (s : Station) (n : Nat) (m : Mem) : Station := ({ s with tiles := s.tiles.set n m }).bumpGen n

/-- A tile operation enters the tile unit (R157). -/
def Station.addTop (s : Station) (n : Nat) (write : Bool) (prec : Option (Fin 4)) (inBlk : Bool) : Station :=
  { s with tops := s.tops ++ [⟨n, write, prec, inBlk⟩] }

/-- The thread to make ready when an operation it issued in precise mode retires (R108). -/
def Thread.precThr (t : Thread) (h : Hart) : Option (Fin 4) := if t.precise then some h.thr else none

/-- A row read by the streaming port, counted where the row latch serves it (R164). -/
def Station.latchRow (s : Station) (n row : Nat) : Station :=
  let tag := (n, s.tgen.getD n 0, row)
  if s.rowLatch = some tag then { s with reuseRow := s.reuseRow + 1 } else { s with rowLatch := some tag }

/-- Element j of width w bits of a row whose bytes are at a place in a tile (R149). -/
def tileElem (m : Mem) (rowByte w j : Nat) : Nat :=
  let b := j * w
  (m.readN (rowByte + b / 8) ((b % 8 + w + 7) / 8) >>> (b % 8)) % 2 ^ w

end Sys2Proof.Machine
end

