-- ==== Sys2Proof/Machine/VecRegs.lean ====
section
/-! DEFINITION. Vector and predicate registers, elements, active elements, and the vector queue (R113 to R126). -/

namespace Sys2Proof.Machine

/-- VLEN in bits (R113). -/
def vlen : Nat := 16384

/-- A vector register as a number. -/
def Thread.vr (t : Thread) (r : Nat) : Nat := (t.v.getD r 0).toNat

/-- A vector register written. -/
def Thread.setV (t : Thread) (r x : Nat) : Thread := { t with v := t.v.set r (BitVec.ofNat 16384 x) }

/-- A predicate register as a number: k0 reads all ones (R113). -/
def Thread.kr (t : Thread) (r : Nat) : Nat := if r = 0 then 2 ^ 2048 - 1 else (t.k.getD r 0).toNat

/-- A predicate register written (k0 is never a destination). -/
def Thread.setK (t : Thread) (r x : Nat) : Thread := { t with k := t.k.set r (BitVec.ofNat 2048 x) }

/-- Element i of width w of a register's number (R122). -/
def elemOf (x w i : Nat) : Nat := (x >>> (i * w)) % 2 ^ w

/-- A register's number with element i of width w replaced. -/
def elemSet (x w i v : Nat) : Nat := setFld x (i * w + w - 1) (i * w) v

/-- VL. -/
def Thread.vlN (t : Thread) : Nat := t.vl.toNat

/-- Element i is active under a governing predicate (R115, R120). -/
def Thread.active (t : Thread) (km : Nat) (i : Nat) : Bool := decide (i < t.vlN) && (km == 0 || (t.kr km).testBit i)

/-- The active elements in ascending order. -/
def Thread.actives (t : Thread) (km : Nat) : List Nat := (List.range t.vlN).filter (t.active km)

/-- A destination register's number after its elements are written: each active element takes the function's value; an
inactive one below VL keeps its value (ZM = 0) or is zero (ZM = 1); the others keep theirs (R115, R120). -/
def Thread.vput (t : Thread) (km : Nat) (zm : Bool) (w old : Nat) (f : Nat → Nat) : Nat :=
  (List.range t.vlN).foldl (fun x i =>
    if t.active km i then elemSet x w i (f i) else if zm then elemSet x w i 0 else x) old

/-- The lane groups an instruction needs that touches n elements of width w (R122). -/
def groupsOf (n w : Nat) : Nat := if n * w ≥ 4096 then 8 else max 1 ((n * w + 511) / 512)

/-- The mask of lane groups 0 to g − 1. -/
def groupMask (g : Nat) : Nat := 2 ^ g - 1

/-- Instructions the vector queue holds (R124). -/
def vqSize : Nat := 16

/-- A vector instruction enters the vector queue: its lane groups are powered, and their idle time starts anew (R124,
R126). -/
def Station.vqPush (s : Station) (e : VqEntry) : Station :=
  { s with vq := s.vq ++ [e], pgOn := s.pgOn ||| BitVec.ofNat 8 (groupMask e.groups),
           pgLast := (List.range e.groups).foldl (fun t g => t.set g s.cycle) s.pgLast }

end Sys2Proof.Machine
end

