-- ==== Sys2Proof/Machine/MemOps.lean ====
section
/-! DEFINITION. Memory instructions as one operation: their accesses, checks, waits and effect (R52, R54, R65 to R70, R130 to
R134, R155 to R158, R302, R303, R306 to R318, R346). -/

namespace Sys2Proof.Machine

/-! ### Accesses -/

/-- One access of an instruction: virtual address, bytes, and the element, row or frame slot it belongs to. -/
structure Acc where
  va : Nat
  size : Nat
  elem : Nat
  deriving DecidableEq, Repr

/-- The size in bytes of a core load (R65). -/
def LdSize : LdK → Nat
  | .b | .bu => 1
  | .h | .hu => 2
  | .w | .wu => 4
  | .d => 8

/-- The register value of a core load's bytes (R65). -/
def LdVal (k : LdK) (x : Nat) : Word :=
  match k with
  | .b => sext 8 (word x)
  | .h => sext 16 (word x)
  | .w => sext 32 (word x)
  | _ => word x

/-- The size in bytes of a core store (R65). -/
def StSize : StK → Nat
  | .b => 1
  | .h => 2
  | .w => 4
  | .d => 8

/-- The size in bytes of an atomic's word (R67). -/
def AmoSize : AmoK → Nat
  | .addW | .addF | .swapW => 4
  | .addD | .swapD => 8

/-- The word an atomic writes (R67, R314). -/
def AmoOp (k : AmoK) (old new : Nat) : Nat :=
  match k with
  | .addW => (old + new) % 2 ^ 32
  | .addD => (old + new) % 2 ^ 64
  | .addF => fp32Add old (new % 2 ^ 32)
  | .swapW => new % 2 ^ 32
  | .swapD => new % 2 ^ 64

/-- The pieces of a run of bytes that stay within 4 KiB pages (fuel pieces at most). -/
def pieces (elem : Nat) : Nat → Nat → Nat → List Acc
  | 0, _, _ => []
  | fuel + 1, va, n =>
    if n = 0 then [] else
      let k := min n (0x1000 - va % 0x1000)
      ⟨va % 2 ^ 64, k, elem⟩ :: pieces elem fuel (va + k) (n - k)

/-- The registers a mask names, in ascending order (R68). -/
def maskRegs (mask : BitVec 32) : List Nat := (List.range 32).filter (fun i => mask.getLsbD i)

/-- The frame size of a mask: 8 × (n + 1), rounded up to a multiple of 16 (R68). -/
def frameSize (mask : BitVec 32) : Nat := (8 * ((maskRegs mask).length + 1) + 15) / 16 * 16

/-- The 8-byte slots of a frame at an address: the return address, then the registers (R68, R69). -/
def frameAccs (base : Word) (mask : BitVec 32) : List Acc :=
  (List.range ((maskRegs mask).length + 1)).map (fun i => ⟨(base + word (8 * i)).toNat, 8, i⟩)

/-- The address of element i of a vector memory form (R130). -/
def vmAddr (t : Thread) (form : VmForm) (f : VmF) (w : Nat) (i : Nat) : Word :=
  match form with
  | .unit => t.gr f.rs1 + imm13 f.imm + word (i * (w / 8))
  | .strided => t.gr f.rs1 + imm13 f.imm + word i * t.gr f.rs2
  | .indexed =>
    let iw := 8 * 2 ^ f.iw.toNat
    t.gr f.rs1 + BitVec.ofInt 64 (sval iw (elemOf (t.vr f.rs2) iw i)) * (if f.ix then word (w / 8) else 1)
  | _ => t.gr f.rs1 + imm13 f.imm

/-- The address of row r of a TFILL or TDUMP (R155). -/
def rowAddr (t : Thread) (f : TF) (r : Nat) : Word := t.gr f.rs1 + imm32 f.imm + word r * t.gr f.rs2

/-- The accesses of an instruction, in the order of their checks. -/
def MemOp.accs (s : Station) (t : Thread) : MemOp → List Acc
  | .ld k _ rs1 imm => [⟨(t.gr rs1 + imm15 imm).toNat, LdSize k, 0⟩]
  | .st k _ rs1 imm => [⟨(t.gr rs1 + imm15 imm).toNat, StSize k, 0⟩]
  | .amo k _ rs1 _ => [⟨(t.gr rs1).toNat, AmoSize k, 0⟩]
  | .callm _ mask => frameAccs (t.sp - word (frameSize mask)) mask
  | .callmr _ mask => frameAccs (t.sp - word (frameSize mask)) mask
  | .retm mask => frameAccs t.sp mask
  | .vm form _ f =>
    let w := etWidth f.et.toNat
    (match form with
     | .wholeV => pieces 0 2 (vmAddr t form f 8 0).toNat 2048
     | .wholeK => pieces 0 2 (vmAddr t form f 8 0).toNat 256
     | _ => (t.actives f.km).map (fun i => ⟨(vmAddr t form f w i).toNat, w / 8, i⟩))
  | .tfill f =>
    let v := s.cfg f.tn
    (List.range (cfgRows v)).flatMap (fun r => pieces r 2 (rowAddr t f r).toNat (cfgBytes v))
  | .tdump f =>
    let v := s.cfg f.tn
    (List.range (cfgRows v)).flatMap (fun r => pieces r 2 (rowAddr t f r).toNat (cfgBytes v))

/-- The kind of an instruction's accesses: a load, or a store or atomic (R67). -/
def MemOp.ak : MemOp → AK
  | .ld _ _ _ _ => .load
  | .retm _ => .load
  | .vm _ isSt _ => if isSt then .store else .load
  | .tfill _ => .load
  | _ => .store

/-- The access class of an instruction (R345). -/
def MemOp.cls : MemOp → Cls
  | .ld k _ _ _ => .core (LdSize k)
  | .st k _ _ _ => .core (StSize k)
  | .amo _ _ _ _ => .amo
  | .callm _ _ => .core 8
  | .callmr _ _ => .core 8
  | .retm _ => .core 8
  | _ => .bulk

/-- The length of an instruction in bytes. -/
def MemOp.len : MemOp → Nat
  | .ld _ _ _ _ => 4
  | .st _ _ _ _ => 4
  | .amo _ _ _ _ => 4
  | _ => 8

/-- The misalignment of an instruction: the element and the address reported (R65, R70, R130, R131, R155). -/
def MemOp.misaligned (s : Station) (t : Thread) (op : MemOp) : Option (Nat × Word) :=
  match op with
  | .callm _ _ => if t.sp.toNat % 16 ≠ 0 then some (0, t.sp) else none
  | .callmr rs1 _ =>
    if t.sp.toNat % 16 ≠ 0 then some (0, t.sp)
    else if (t.gr rs1).toNat % 4 ≠ 0 then some (0, t.gr rs1) else none
  | .retm _ => if t.sp.toNat % 16 ≠ 0 then some (0, t.sp) else none
  | .vm .wholeV _ f => let a := vmAddr t .wholeV f 8 0; if a.toNat % 64 ≠ 0 then some (0, a) else none
  | .vm .wholeK _ f => let a := vmAddr t .wholeK f 8 0; if a.toNat % 64 ≠ 0 then some (0, a) else none
  | .tfill f | .tdump f =>
    let a := rowAddr t f 0
    if a.toNat % 16 ≠ 0 ∨ (t.gr f.rs2).toNat % 16 ≠ 0 then
      (match (List.range (cfgRows (s.cfg f.tn))).find? (fun r => (rowAddr t f r).toNat % 16 != 0) with
       | some r => some (0, rowAddr t f r)
       | none => some (0, a))
    else none
  | _ => ((op.accs s t).find? (fun a => a.va % a.size != 0)).map (fun a => (a.elem, word a.va))

/-- An instruction is a vector memory form, whose faults write VU_FAULT_ELEM (R132). -/
def MemOp.isVm : MemOp → Bool
  | .vm _ _ _ => true
  | _ => false

/-- A memory fault of an instruction (R93, R132): a vector form also writes VU_FAULT_ELEM, unless the entry locks up. -/
def Dev.memFault (d : Dev) (h : Hart) (op : MemOp) (code : Nat) (elem : Nat) (va : Word) : Dev :=
  let t := d.thr h
  let d1 := d.exc h code va
  if op.isVm && !t.occ (min t.ring ((d.stn h.stn).del code)) then
    d1.updThr h (fun u => { u with vfault := BitVec.ofNat 16 elem })
  else d1

/-- Translation and checks of a list of accesses in order; the translations found are held in the TLB. The first fault is
given with its access. -/
def Dev.checkAccs (h : Hart) (ring : Nat) (ak : AK) (cls : Cls) : List Acc → Dev → List (Nat × TlbE) →
    Dev × Except (Nat × Acc) (List (Nat × TlbE))
  | [], d, ls => (d, .ok ls.reverse)
  | a :: r, d, ls =>
    match d.translate h.stn ring ak cls a.va with
    | .fault c => (d, .error (c, a))
    | .ok pa e => Dev.checkAccs h ring ak cls r (d.install h.stn (.ok pa e)) ((pa, e) :: ls)

/-! ### Waits -/

/-- A place is cacheable memory: GDDR7 or the far tier without the device attribute (R320). -/
def cacheable (l : Nat × TlbE) : Bool :=
  !l.2.dev && (match region l.1 with
    | .gddr => true
    | .far _ => true
    | _ => false)

/-- A place is in the station's own scratchpad. -/
def ownScratch (n : Nat) (l : Nat × TlbE) : Bool :=
  match region l.1 with
  | .scratch k _ => k == n
  | _ => false

/-- A place is in another station's scratchpad. -/
def otherScratch (n : Nat) (l : Nat × TlbE) : Bool :=
  match region l.1 with
  | .scratch k _ => k != n
  | _ => false

/-- A place is device space (R345). -/
def deviceSpace (l : Nat × TlbE) : Bool :=
  !cacheable l && (match region l.1 with
    | .scratch _ _ => false
    | _ => true)

/-- An instruction waits for replies at these places (R52): a load, frame or vector access to cacheable memory that misses
the L1, a core load, atomic or vector access to another station's scratchpad, a core load from device space. Tile transfers
and core stores do not. -/
def MemOp.awaits (n : Nat) (op : MemOp) (locs : List (Nat × TlbE)) (hit : Bool) : Bool :=
  match op with
  | .tfill _ => false
  | .tdump _ => false
  | .st _ _ _ _ => false
  | .ld _ _ _ _ => locs.any (fun l => (cacheable l && !hit) || otherScratch n l || deviceSpace l)
  | _ => locs.any (fun l => (cacheable l && !hit) || otherScratch n l)

/-- An instruction's stores leave the station and await an acknowledgement (R321). -/
def MemOp.posts (n : Nat) (op : MemOp) (locs : List (Nat × TlbE)) : Bool :=
  op.ak == .store && (match op with
    | .amo _ _ _ _ => false
    | _ => locs.any (fun l => !ownScratch n l))

/-- Request slots of a station (R54). -/
def slotCount : Nat := 64

/-! ### Effects -/

/-- The bytes of one place as a load delivers them, as a number: registers are read by their own rules, a host window
delivers the reply's data. The flag is an uncorrectable error. -/
def Dev.loadPlace (d : Dev) (h : Hart) (l : Nat × TlbE) (n : Nat) (data : Word) : Dev × Nat × Bool :=
  match region l.1 with
  | .reg u off => let (d1, v) := d.regRead h u off; (d1, v.toNat, false)
  | .host _ => (d, data.toNat % 2 ^ (8 * n), false)
  | _ => let (bs, bad) := d.readLoc l.2 l.1 n; (d, natLE bs, bad)

/-- Bytes stored at one place by a hart: registers and host windows by their own rules (R343, R448). -/
def Dev.storePlace (d : Dev) (h : Hart) (l : Nat × TlbE) (bs : List Byte) : Dev :=
  match region l.1 with
  | .reg u off => d.regWrite h u off (word (natLE bs))
  | .host off => d.hostStore off bs
  | _ => let (d1, bad) := d.writeLoc l.2 l.1 bs
         if bad then d1.raiseMchk h.stn h.thr (word l.1) else d1

/-- An atomic at its place (R67, R302, R303, R313): the old value to rd. A poisoned word gives MCHK and stays as it is but
for the bytes written. -/
def Dev.doAmo (d : Dev) (h : Hart) (k : AmoK) (rd rs2 : Fin 32) (va : Nat) (l : Nat × TlbE) (c : Nat) : Dev :=
  match region l.1 with
  | .scratch n off =>
    let t := d.thr h
    let sz := AmoSize k
    let (bs, bad) := d.readLoc l.2 l.1 sz
    let (d1, old) := if bad then d.poisoned h l.1 else (d, word (natLE bs))
    let res := if sz = 4 then sext 32 old else old
    if k = .addF ∧ d.repro then
      let log := (d.stn n).logs.getD (bankOf off) []
      if log.length ≥ logSize then d.exc h 0x0A (word va)
      else
        let log2 : List LogE := log ++ [⟨h.stn, h.thr, off, (t.gr rs2).toNat % 2 ^ 32⟩]
        (d1.updStn n (fun s => { s with logs := s.logs.set (bankOf off) log2 })).finish h 4 c (fun u => u.setG rd res)
    else
      let new := AmoOp k old.toNat (t.gr rs2).toNat
      (d1.updStn n (fun s => s.spWrite off (bytesLE sz new))).finish h 4 c (fun u => u.setG rd res)
  | _ => d.exc h 0x0A (word va)

/-- The stores of a list of places with their bytes, in order. -/
def Dev.storeAll (h : Hart) : List ((Nat × TlbE) × List Byte) → Dev → Dev
  | [], d => d
  | (l, bs) :: r, d => Dev.storeAll h r (d.storePlace h l bs)

/-- The values of a list of places, in order: one that met an error is a free value, with MCHK. -/
def Dev.loadAll (h : Hart) (data : Word) : List ((Nat × TlbE) × Nat) → Dev → Dev × List Nat
  | [], d => (d, [])
  | (l, n) :: r, d =>
    let (d1, x, bad) := d.loadPlace h l n data
    let (d2, y) := if bad then (let (d', v) := d1.poisoned h l.1; (d', v.toNat % 2 ^ (8 * n))) else (d1, x)
    let (d3, ys) := Dev.loadAll h data r d2
    (d3, y :: ys)

/-- The bytes of a run as a tile fill takes them, and where the first error was: bytes from poisoned groups or lines are
undefined (R156), so each chunk of 8 bytes (scratchpad) or of one 128-byte line is read on its own; fuel chunks at most. -/
def Dev.fillBytes (d : Dev) (e : TlbE) : Nat → Nat → Nat → List Byte × Option Nat
  | 0, _, _ => ([], none)
  | fuel + 1, pa, n =>
    if n = 0 then ([], none) else
      let unit := match region pa with
        | .scratch _ _ => 8
        | _ => 128
      let k := min n (unit - pa % unit)
      let (bs, bad) := d.readLoc e pa k
      let bs' := if bad then (List.range k).map (fun i => Config.freeByte d.free (pa + i)) else bs
      let (rest, bad2) := Dev.fillBytes d e fuel (pa + k) (n - k)
      (bs' ++ rest, if bad then some pa else bad2)

/-- The bytes of several places, in order, as a tile fill takes them. -/
def Dev.fillPlaces (d : Dev) : List ((Nat × TlbE) × Nat) → List Byte × Option Nat
  | [] => ([], none)
  | (l, n) :: r =>
    let (a, x) := d.fillBytes l.2 (n / 8 + 2) l.1 n
    let (b, y) := d.fillPlaces r
    (a ++ b, x.or y)

/-- A fill met an error at a physical address: the draw of its undefined bytes is used up, the delivery is recorded, and
MCHK is raised on a thread (R106, R156, R487). -/
def Dev.fillPoison (d : Dev) (n : Nat) (t : Fin 4) (bad : Option Nat) : Dev :=
  match bad with
  | some pa => ({ d with free := d.free + 1 }.poisonEvent pa).raiseMchk n t (word pa)
  | none => d

/-- Values written to numbered general registers, in order. -/
def setRegs : List Nat → List Nat → Thread → Thread
  | r :: rs, v :: vs, t => setRegs rs vs (t.setG r (word v))
  | _, _, t => t

/-- A frame store of CALLM or CALLMR and the jump to a target (R68). The stores come last: one may reset the station. -/
def Dev.doCall (d : Dev) (h : Hart) (mask : BitVec 32) (target : Word) (locs : List (Nat × TlbE)) (c : Nat) : Dev :=
  let t := d.thr h
  let ra := t.pc + 8
  let vals := ra.toNat :: (maskRegs mask).map (fun r => (t.gr r).toNat)
  let d1 := d.updStn h.stn (fun s => (s.updThr h.thr (fun u =>
    (((u.setG 31 (u.sp - word (frameSize mask))).setG 30 ra).jump target false))).pass c)
  Dev.storeAll h (locs.zip (vals.map (bytesLE 8))) d1

/-- A vector load's destination (R115, R120, R130), or the registers of a whole-register load. -/
def vmLoaded (form : VmForm) (f : VmF) (vals : List Nat) (sizes : List Nat) (t : Thread) : Thread :=
  match form with
  | .wholeV => t.setV f.vd (natLE ((vals.zip sizes).flatMap (fun p => bytesLE p.2 p.1)))
  | .wholeK => t.setK f.vd (natLE ((vals.zip sizes).flatMap (fun p => bytesLE p.2 p.1)))
  | _ =>
    let w := etWidth f.et.toNat
    let m := (t.actives f.km).zip vals
    t.setV f.vd (t.vput f.km f.zm w (t.vr f.vd) (fun i => (m.find? (fun p => p.1 == i)).map (·.2) |>.getD 0))

/-- The bytes a vector store writes at each of its accesses. -/
def vmStored (form : VmForm) (f : VmF) (accs : List Acc) (t : Thread) : List (List Byte) :=
  match form with
  | .wholeV => (accs.foldl (fun (p : Nat × List (List Byte)) a => (p.1 + a.size, p.2 ++ [bytesLE a.size (t.vr f.vd >>> (8 * p.1))])) (0, [])).2
  | .wholeK => (accs.foldl (fun (p : Nat × List (List Byte)) a => (p.1 + a.size, p.2 ++ [bytesLE a.size (t.kr f.vd >>> (8 * p.1))])) (0, [])).2
  | _ => accs.map (fun a => bytesLE a.size (elemOf (t.vr f.vd) (etWidth f.et.toNat) a.elem))

/-- The vector queue entry of a memory form: it raises no arithmetic event. -/
def vmEntry (h : Hart) (t : Thread) (f : VmF) : VqEntry :=
  { thr := h.thr, ev := Ev.none, elem := none, axen := 0, ring := t.ring, addr := t.pc, precise := false, sto := false,
    groups := groupsOf t.vlN (max 8 (etWidth f.et.toNat)) }

/-- The effect of a memory instruction whose accesses have passed their checks, at their places, after c cycles. -/
def Dev.memPerform (d : Dev) (h : Hart) (op : MemOp) (locs : List (Nat × TlbE)) (data : Word) (c : Nat) : Dev :=
  let t := d.thr h
  let accs := op.accs (d.stn h.stn) t
  match op with
  | .ld k rd _ _ =>
    let (d1, vs) := Dev.loadAll h data (locs.zip (accs.map (·.size))) d
    d1.finish h 4 c (fun u => u.setG rd (LdVal k (vs.headD 0)))
  | .st k rd _ _ => Dev.storeAll h (locs.map (fun l => (l, bytesLE (StSize k) (t.gr rd).toNat))) (d.finish h 4 c id)
  | .amo k rd _ rs2 => d.doAmo h k rd rs2 ((accs.map (·.va)).headD 0) (locs.headD (0, TlbE.phys 0)) c
  | .callm off mask => d.doCall h mask (t.pc + off25 off) locs c
  | .callmr rs1 mask => d.doCall h mask (t.gr rs1) locs c
  | .retm mask =>
    let (d1, vs) := Dev.loadAll h data (locs.zip (accs.map (·.size))) d
    let ra := word (vs.headD 0)
    if ra.toNat % 4 ≠ 0 then d.exc h 3 ra
    else d1.updStn h.stn (fun s => (s.updThr h.thr (fun u =>
      ((setRegs (maskRegs mask) vs.tail u).setG 31 (u.sp + word (frameSize mask))).jump ra false)).pass c)
  | .vm form isSt f =>
    if isSt then
      ((Dev.storeAll h (locs.zip (vmStored form f accs t)) d).updStn h.stn (fun s => s.vqPush (vmEntry h t f))).finish h 8 c id
    else
      let (d1, vs) := Dev.loadAll h data (locs.zip (accs.map (·.size))) d
      (d1.updStn h.stn (fun s => s.vqPush (vmEntry h t f))).finish h 8 c (vmLoaded form f vs (accs.map (·.size)))
  | .tfill f =>
    let (bs, bad) := d.fillPlaces (locs.zip (accs.map (·.size)))
    let d1 := d.updStn h.stn (fun s => (s.setTile f.tn ((s.tile f.tn).writeBytes 0 bs)).addTop f.tn true (t.precThr h) false)
    let d2 := (d1.finish h 8 c id).fillPoison h.stn h.thr bad
    if t.precise then d2.block h .precise else d2
  | .tdump f =>
    let m := (d.stn h.stn).tile f.tn
    let step := fun (p : Nat × List (List Byte)) (a : Acc) => (p.1 + a.size, p.2 ++ [m.readBytes p.1 a.size])
    let d1 := Dev.storeAll h (locs.zip (accs.foldl step (0, [])).2) d
    let d2 := (d1.updStn h.stn (fun s => s.addTop f.tn false (t.precThr h) false)).finish h 8 c id
    if t.precise then d2.block h .precise else d2

/-- A memory instruction from its checks on (R52, R54, R105, R317). `walked` says that its walks have ended. -/
def Dev.memRun (d : Dev) (h : Hart) (op : MemOp) (walked hit : Bool) : Dev :=
  let t := d.thr h
  let s := d.stn h.stn
  match op.misaligned s t with
  | some (i, a) => d.memFault h op 3 i a
  | none =>
    let accs := op.accs s t
    if !walked && accs.any (fun a => d.needsWalk h.stn a.va) then d.block h (.walk op)
    else match Dev.checkAccs h t.ring op.ak op.cls accs d [] with
      | (d1, .error (c, a)) => d1.memFault h op c a.elem (word a.va)
      | (d1, .ok locs) =>
        if (d1.sleeping locs) ≠ [] then
          ((d1.sleeping locs).foldl (fun x k => x.updStn k Station.startWake) d1).block h (.wake op locs)
        else if op.awaits h.stn locs hit then
          if s.slots ≥ slotCount then d1.block h .slot
          else (d1.updStn h.stn (fun x => { x with slots := x.slots + 1 })).block h (.reply op locs)
        else if op.posts h.stn locs then
          if s.slots ≥ slotCount then d1.block h .slot
          else (d1.updStn h.stn (fun x => { x with slots := x.slots + 1 }.updThr h.thr
                  (fun u => { u with acks := u.acks + 1 }))).memPerform h op locs 0 1
        else d1.memPerform h op locs 0 1

/-- The access of a waiting thread is served: it completes, and the thread becomes ready (R54, R317). -/
def Dev.serve (d : Dev) (h : Hart) (op : MemOp) (locs : List (Nat × TlbE)) (data : Word) : Dev :=
  (((d.updThr h (fun t => { t with wait := .ready })).memPerform h op locs data 0)).updStn h.stn
    (fun s => if (s.thr h.thr).wait = .ready then s.wakeUp h.thr else s)

end Sys2Proof.Machine
end

