-- ==== Sys2Proof/Machine/Tiles.lean ====
section
/-! DEFINITION. The tile instructions, ownership, and the retiring of tile operations (R151 to R163, R168). -/

namespace Sys2Proof.Machine

/-! ### What waits for a retiring operation -/

/-- V of a TSHAPE: rs1[31:0] or IMM32 (R168). -/
def tshapeV (t : Thread) (f : TF) : Nat := (t.gr f.rs1).toNat % 2 ^ 32 ||| f.imm.toNat

/-- TC_CFGn written; the tile's write generation advances (R153, R164). -/
def Station.writeCfg (s : Station) (n v : Nat) : Station := ({ s with tcfg := s.tcfg.set n (BitVec.ofNat 32 v) }).bumpGen n

/-- A thread that waits for operations of the tile unit or the engine, after one has retired: a TSHAPE whose tile nothing
references any more writes its configuration, a MESYNC whose entries have gone completes, and an instruction that waits on
the scoreboard is presented again (R153, R157, R190). -/
def Station.settleThr (s : Station) (t : Fin 4) : Station :=
  let x := s.thr t
  match x.wait with
  | .score => s.wakeUp t
  | .shape f =>
    if s.eng.hasBlock || s.tileUsed f.tn then s
    else ((s.writeCfg f.tn (tshapeV x f)).updThr t (Thread.done 8)).wakeUp t
  | .sync n => if s.eng.queue.any (fun q => decide (q.id < n)) then s else (s.updThr t (Thread.done 8)).wakeUp t
  | _ => s

/-- The station after an operation of the tile unit or the engine has retired. -/
def Station.settle (s : Station) : Station :=
  if s.live then (((s.settleThr 0).settleThr 1).settleThr 2).settleThr 3 else s

/-- The thread that waits in precise mode for a retired operation is ready (R108). -/
def Station.wakePrec (s : Station) (p : Option (Fin 4)) : Station :=
  match p with
  | some t => if (s.thr t).wait == .precise then s.wakeUp t else s
  | none => s

/-! ### Tile instructions -/

/-- A tile instruction of the owner (R160); its unused fields are zero (R58). -/
def Dev.tileOp (d : Dev) (h : Hart) (fn : Nat) (f : TF) (ok : Bool) (body : Dev → Dev) : Dev :=
  d.issue h 8 (fun d1 =>
    if !ok then d1.illegal h (encT 0x38 fn f)
    else if !(d1.stn h.stn).owns h.thr then d1.ownFault h
    else body d1)

/-- TSHAPE checks V, completes at once where it changes nothing, and waits for the operations on its tile (R151, R153). -/
def execTshape (h : Hart) (f : TF) (s : State) :=
  onDev s (fun d => d.tileOp h 0x00 f (f.rd == 0 && f.rs2 == 0) (fun d1 =>
    let s := d1.stn h.stn
    let v := tshapeV (d1.thr h) f
    if !cfgOk v then d1.cfgFault h (tcFaultCfg f.tn (s.cfg f.tn) v)
    else if v = s.cfg f.tn then d1.finish h 8 1 id
    else if s.eng.hasBlock || s.tileUsed f.tn then d1.block h (.shape f)
    else (d1.updStn h.stn (fun x => x.writeCfg f.tn v)).finish h 8 1 id))

/-- The shape fault of an operation that constrains nothing but needs a configured tile (R165). -/
def anyShape : Shape := ⟨0, 0, 0⟩

/-- TFILL and TDUMP: alignment, ownership, shape, the scoreboard, then the accesses (R105, R155 to R157). -/
def Dev.tileMem (d : Dev) (h : Hart) (fn : Nat) (f : TF) (op : MemOp) (opc : TOpc) (write : Bool) : Dev :=
  d.issue h 8 (fun d1 =>
    let s := d1.stn h.stn
    if f.rd ≠ 0 then d1.illegal h (encT 0x38 fn f)
    else match op.misaligned s (d1.thr h) with
      | some (_, a) => d1.exc h 3 a
      | none =>
        if !s.owns h.thr then d1.ownFault h
        else if !anyShape.matches (s.cfg f.tn) then d1.shapeFault h (tcFaultOf opc f.tn (s.cfg f.tn) anyShape)
        else if s.tileWaitThr f.tn write then d1.block h .score
        else d1.memRun h op false true)

def execTfill (h : Hart) (f : TF) (s : State) := onDev s (fun d => d.tileMem h 0x01 f (.tfill f) .tfill true)
def execTdump (h : Hart) (f : TF) (s : State) := onDev s (fun d => d.tileMem h 0x02 f (.tdump f) .tdump false)

/-- A tile operation that moves no memory has issued: it is in flight until it retires, and in precise mode its thread
waits for it (R108, R157). -/
def Dev.tileIssued (d : Dev) (h : Hart) (n : Nat) (write : Bool) (f : Thread → Thread) : Dev :=
  let t := d.thr h
  let d1 := (d.updStn h.stn (fun s => s.addTop n write (t.precThr h) false)).finish h 8 1 f
  if t.precise then d1.block h .precise else d1

/-- The configured rows of a tile are zero (R159). -/
def Station.blank (s : Station) (n : Nat) : Station :=
  s.setTile n ((s.tile n).clearRange 0 (cfgRows (s.cfg n) * cfgBytes (s.cfg n)))

def execTblank (h : Hart) (f : TF) (s : State) :=
  onDev s (fun d => d.tileOp h 0x03 f (f.rd == 0 && f.rs1 == 0 && f.rs2 == 0 && f.imm == 0) (fun d1 =>
    let s := d1.stn h.stn
    if !anyShape.matches (s.cfg f.tn) then d1.shapeFault h (tcFaultOf .tblank f.tn (s.cfg f.tn) anyShape)
    else if s.tileWaitThr f.tn true then d1.block h .score
    else (d1.updStn h.stn (fun x => x.blank f.tn)).tileIssued h f.tn true id))

/-- TRV and TWV: the row index is below ROWS, and TC_FAULT otherwise names the row count that would admit it (R159,
R166). -/
def Dev.rowMove (d : Dev) (h : Hart) (fn : Nat) (f : TF) (opc : TOpc) (write : Bool) (body : Dev → Dev) : Dev :=
  d.tileOp h fn f (f.rs2 == 0 && f.imm == 0) (fun d1 =>
    let s := d1.stn h.stn
    let row := ((d1.thr h).gr f.rs1).toNat
    if cfgRows (s.cfg f.tn) ≤ row then
      d1.shapeFault h (tcFaultOf opc f.tn (s.cfg f.tn) ⟨min (row + 1) 0x7FF, 0, 0⟩)
    else if s.tileWaitThr f.tn write then d1.block h .score
    else body d1)

/-- TRV copies a row into the low bytes of vd; the other bytes of vd are unchanged (R159). -/
def execTrv (h : Hart) (f : TF) (s : State) :=
  onDev s (fun d => d.rowMove h 0x04 f .trv false (fun d1 =>
    let s := d1.stn h.stn
    let bpr := cfgBytes (s.cfg f.tn)
    d1.tileIssued h f.tn false (fun t =>
      t.setV f.rd (setFld (t.vr f.rd) (8 * bpr - 1) 0 ((s.tile f.tn).readN ((t.gr f.rs1).toNat * bpr) bpr)))))

/-- TWV copies the low bytes of vs into a row (R159). -/
def execTwv (h : Hart) (f : TF) (s : State) :=
  onDev s (fun d => d.rowMove h 0x05 f .twv true (fun d1 =>
    let t := d1.thr h
    (d1.updStn h.stn (fun s =>
      let bpr := cfgBytes (s.cfg f.tn)
      s.setTile f.tn ((s.tile f.tn).writeN ((t.gr f.rs1).toNat * bpr) bpr (t.vr f.rd)))).tileIssued h f.tn true id))

/-- The oldest tile operation in flight retires (R157). -/
def Dev.tileRetire (d : Dev) (n : Nat) : Dev :=
  d.updStn n (fun s =>
    match s.tops with
    | [] => s
    | o :: r => if s.live then (({ s with tops := r }).settle).wakePrec o.prec else s)

def execTileOperationRetire (n : Fin 128) (s : State) := onDev s (fun d => d.tileRetire n)

/-! ### Ownership -/

/-- Every operation of the tile unit and the engine has retired (R162). -/
def Station.engIdle (s : Station) : Bool := s.tops.isEmpty && s.eng.queue.isEmpty && s.eng.blk.isNone

/-- A thread waits in TACQ. -/
def Station.inTacq (s : Station) (t : Fin 4) : Bool :=
  match (s.thr t).wait with
  | .tacq _ => true
  | _ => false

/-- The waiting thread that ownership passes to: the first in the order after the releasing thread, which comes last (R161,
R162). -/
def Station.nextWaiter (s : Station) (t : Fin 4) : Option (Fin 4) :=
  ([t + 1, t + 2, t + 3, t] : List (Fin 4)).find? s.inTacq

/-- A thread becomes the owner: its waiting TACQ writes 1 and completes (R161). -/
def Station.grant (s : Station) (t : Fin 4) : Station :=
  match (s.thr t).wait with
  | .tacq rd =>
    (({ s with owner := some t, ownPend := false }).updThr t (fun u => (u.setG rd 1).done 8)).wakeUp t
  | _ => { s with owner := some t, ownPend := false }

/-- Ownership becomes free after its release by thread t (R162). -/
def Station.freeOwner (s : Station) (t : Fin 4) : Station :=
  match s.nextWaiter t with
  | some w => s.grant w
  | none => { s with owner := none, ownPend := false }

/-- The owner t releases ownership, which becomes free once its operations have retired (R162, R163). -/
def Station.release (s : Station) (t : Fin 4) : Station :=
  if !s.owns t then s else if s.engIdle then s.freeOwner t else { s with ownPend := true }

/-- TACQ (R161): IMM32[31:1], rs1, rs2 and TN are zero. -/
def execTacq (h : Hart) (f : TF) (s : State) :=
  onDev s (fun d => d.issue h 8 (fun d1 =>
    if f.rs1 ≠ 0 ∨ f.rs2 ≠ 0 ∨ f.tn ≠ 0 ∨ f.imm.toNat > 1 then d1.illegal h (encT 0x38 0x08 f)
    else
      let s := d1.stn h.stn
      if s.owner.isNone || s.owns h.thr then
        (d1.updStn h.stn (fun x => { x with owner := some h.thr })).finish h 8 1 (fun t => t.setG f.rd 1)
      else if f.imm = 1 then d1.finish h 8 1 (fun t => t.setG f.rd 0)
      else d1.block h (.tacq f.rd)))

/-- TREL (R162). -/
def execTrel (h : Hart) (f : TF) (s : State) :=
  onDev s (fun d => d.issue h 8 (fun d1 =>
    if f.rd ≠ 0 ∨ f.rs1 ≠ 0 ∨ f.rs2 ≠ 0 ∨ f.tn ≠ 0 ∨ f.imm ≠ 0 then d1.illegal h (encT 0x38 0x09 f)
    else (d1.finish h 8 1 id).updStn h.stn (fun s => s.release h.thr)))

/-- A pending release takes effect once the former owner's operations have retired (R162). -/
def Dev.ownershipFree (d : Dev) (n : Nat) : Dev :=
  d.updStn n (fun s =>
    match s.owner with
    | some t => if s.live && s.ownPend && s.engIdle then s.freeOwner t else s
    | none => s)

def execOwnershipFree (n : Fin 128) (s : State) := onDev s (fun d => d.ownershipFree n)

end Sys2Proof.Machine
end

