-- ==== Sys2Proof/Machine/EngineOps.lean ====
section
/-! DEFINITION. The matrix engine's operand groups, shapes, accumulator sets, queue and ballast, and the issue checks of its
ports, which threads and the sequencer share (R171, R174 to R190, R195, R233, R240 to R246, R256, R259). -/

namespace Sys2Proof.Machine

/-! ### Operand groups (R171, R177) -/

/-- The operand group of a format: 0 FP4, 1 8-bit float, 2 8-bit integer, 3 FP16, 4 BF16, 5 Q15, 6 FP32, 7 FP64; 8 for a
format that is no operand format. -/
def fmtGroup (fmt : Nat) : Nat :=
  if fmt = 9 then 0 else if 5 ≤ fmt ∧ fmt ≤ 8 then 1 else if fmt = 10 ∨ fmt = 11 then 2 else if fmt = 3 then 3
  else if fmt = 4 then 4 else if fmt = 13 then 5 else if fmt = 2 then 6 else if fmt = 1 then 7 else 8

/-- K per pass of a format (R171). -/
def fmtK (fmt : Nat) : Nat :=
  let g := fmtGroup fmt
  if g = 0 then 1024 else if g = 1 ∨ g = 2 then 512 else if 3 ≤ g ∧ g ≤ 5 then 256 else if g = 6 then 128 else 64

/-- The block size of a BS field (R176). -/
def bsSize (bs : Nat) : Nat := if bs = 1 then 16 else 32

/-- The reserved bits of the control word of MEB and MEA are zero (R176). -/
def ctlReserved (w : Nat) : Bool := fld w 31 15 == 0 && fld w 9 9 == 0 && fld w 7 5 == 0

/-- A control word is legal (R176). -/
def ctlOk (mea : Bool) (tn w : Nat) : Bool :=
  let fmt := fld w 4 0
  let bs := fld w 11 10
  let st := fld w 14 12
  ctlReserved w && bs != 3 && fmtGroup fmt != 8 && !(mea && bitOf w 8)
    && (if bs = 0 then st == 0 else decide (fmtGroup fmt ≤ 2) && st != tn && !(fmt == 11 && bs == 2))

/-- The operand move of a control word. -/
def ctlEnt (tn w : Nat) : AEnt := ⟨tn, fld w 4 0, fld w 11 10, fld w 14 12⟩

/-- The expected shape of a B tile (R177). -/
def bShape (fmt : Nat) (tr : Bool) : Shape :=
  if tr then ⟨128, fmtK fmt * tileWidth fmt / 128, fmt⟩ else ⟨fmtK fmt, tileWidth fmt, fmt⟩

/-- The expected shape of a B tile's scale tile (R177). -/
def bScaleShape (fmt bs : Nat) (tr : Bool) : Shape :=
  let q := fmtK fmt / bsSize bs
  if tr then ⟨128, q / 16, 15⟩ else ⟨q, 8, 15⟩

/-- The expected shape of an A entry's tile: its rows are its own (R177). -/
def aShape (fmt : Nat) : Shape := ⟨0, fmtK fmt * tileWidth fmt / 128, fmt⟩

/-- The expected shape of the scale tile of an A entry of r rows (R177). -/
def aScaleShape (r fmt bs : Nat) : Shape := ⟨r, fmtK fmt / bsSize bs / 16, 15⟩

/-- TC_FAULT where a tile does not match its expected shape (R165, R166). -/
def Station.shapeErr (s : Station) (op : TOpc) (tile : Nat) (e : Shape) : Option Word :=
  if e.matches (s.cfg tile) then none else some (tcFaultOf op tile (s.cfg tile) e)

/-- The shape fault of an A entry, its tile before its scale tile (R177, R178, R184). -/
def Station.aShapeErr (s : Station) (op : TOpc) (a : AEnt) : Option Word :=
  (s.shapeErr op a.tile (aShape a.fmt)).or
    (if a.bs = 0 then none else s.shapeErr op a.stile (aScaleShape (cfgRows (s.cfg a.tile)) a.fmt a.bs))

/-- The rows of an A list. -/
def Station.aRows (s : Station) (l : List AEnt) : Nat := (l.map (fun a => cfgRows (s.cfg a.tile))).sum

/-! ### Accumulator sets (R233, R234) -/

/-- Entry (row, column) of an accumulator set. -/
def AccSet.get (a : AccSet) (row col : Nat) : Word :=
  match a.entries.get? (row * 128 + col) with
  | some w => w
  | none => (match a.free with
    | some n => Config.freeWord n (row * 128 + col)
    | none => 0)

/-- An accumulator set with one entry written. -/
def AccSet.put (a : AccSet) (row col : Nat) (w : Word) : AccSet := { a with entries := a.entries.set (row * 128 + col) w }

/-- An accumulator set with a row's 128 entries written. -/
def AccSet.putRow (a : AccSet) (row : Nat) (f : Nat → Word) : AccSet :=
  (List.range 128).foldl (fun x c => x.put row c (f c)) a

/-- The active set. -/
def Engine.active (e : Engine) : AccSet := if e.aset = 0 then e.acc0 else e.acc1

/-- The shadow set. -/
def Engine.shadow (e : Engine) : AccSet := if e.aset = 0 then e.acc1 else e.acc0

/-- The active set replaced. -/
def Engine.setActive (e : Engine) (a : AccSet) : Engine := if e.aset = 0 then { e with acc0 := a } else { e with acc1 := a }

/-- The shadow set replaced. -/
def Engine.setShadow (e : Engine) (a : AccSet) : Engine := if e.aset = 0 then { e with acc1 := a } else { e with acc0 := a }

/-- The sets are exchanged (R238). -/
def Engine.exchange (e : Engine) : Engine := { e with aset := 1 - e.aset }

/-! ### The queue -/

/-- An automatic spill, which takes no entry of the queue (R259). -/
def QEntry.auto (q : QEntry) : Bool :=
  match q.kind with
  | .mest d => d.auto
  | _ => false

/-- Entries in use (ME_STAT.QUEUE). -/
def Engine.count (e : Engine) : Nat := (e.queue.filter (fun q => !q.auto)).length

/-- The queue's eight entries are in use (R186). -/
def Engine.full (e : Engine) : Bool := decide (8 ≤ e.count)

/-- A running command block. -/
def QEntry.running (q : QEntry) : Bool :=
  match q.kind with
  | .merun _ _ st => st
  | _ => false

/-- The queue with an entry added: a sequencer's entries stand before what threads queued behind the running block (R189,
R266). -/
def qAdd (q : QEntry) : Bool → List QEntry → List QEntry
  | _, [] => [q]
  | seen, x :: r => if seen && !x.inBlk then q :: x :: r else x :: qAdd q (q.inBlk && (seen || x.running)) r

/-- An engine instruction enters the queue: it ends a gap, and one other than an operation starts a rise of the ballast level
where that is below the ceiling (R195). -/
def Engine.touch (e : Engine) (go : Bool) (ceil : Nat) : Engine :=
  { e with gap := 0, rising := e.rising || (!go && decide (e.level < ceil)) }

/-- Who issues an engine instruction: what its events name, whether the sequencer issues it, the thread to wake in precise
mode, the predicate write of SETP, and the ceiling of the ballast level. -/
structure Src where
  by_ : Raiser
  inBlk : Bool
  prec : Option (Fin 4)
  setp : Option (Nat × Nat)
  ceil : Nat
  deriving DecidableEq, Repr

/-- An entry enters the queue. -/
def Station.push (s : Station) (c : Src) (go : Bool) (k : QKind) : Station :=
  { s with eng := { s.eng.touch go c.ceil with
      queue := qAdd ⟨s.eng.nextId, k, c.prec, c.inBlk, c.setp⟩ false s.eng.queue, nextId := s.eng.nextId + 1 } }

/-- A fault of an engine instruction's issue checks. -/
inductive EFault where
  /-- ILLEGAL -/
  | ill
  /-- TILE_SHAPE with its TC_FAULT -/
  | shape (w : Word)
  deriving DecidableEq, Repr

/-- The outcome of an engine instruction's issue: a fault, a wait for the queue, or the station after it with whether an
entry is in flight. -/
inductive EIssue where
  | fault (f : EFault)
  | wait
  | ok (s : Station) (queued : Bool)
  deriving DecidableEq, Repr

/-! ### MEB (R164, R178, R179) -/

/-- The buffer a move to me.b writes (R179). -/
def Engine.target (e : Engine) : Nat :=
  match e.lastUsed with
  | some b => 1 - b
  | none => 0

/-- Stationary buffer b. -/
def Engine.buf (e : Engine) (b : Nat) : Option SBuf := if b = 0 then e.sbuf0 else e.sbuf1

/-- A list of queue entries holds a writer of one of these tiles. -/
def qWrites (l : List QEntry) (tiles : List Nat) : Bool := l.any (fun q => q.kind.writes.any (fun t => tiles.contains t))

/-- An operation of the tile unit in flight writes one of these tiles. -/
def Station.topWrites (s : Station) (tiles : List Nat) : Bool := s.tops.any (fun o => o.write && tiles.contains o.tile)

/-- The part of a queue after its last stationary load, with that load. -/
def lastLoad : List QEntry → Option (AEnt × Bool × Nat × List QEntry)
  | [] => none
  | q :: r => match lastLoad r with
    | some x => some x
    | none => (match q.kind with
      | .meb ent tr b _ => some (ent, tr, b, r)
      | _ => none)

/-- The buffer whose load a move to me.b may reuse: the last stationary load named the same tiles, format, mode and scale, and
no write to its tiles lies between (R164, R179). -/
def Station.reuse? (s : Station) (ent : AEnt) (tr : Bool) : Option Nat :=
  match lastLoad s.eng.queue with
  | some (e2, tr2, b, rest) => if e2 = ent ∧ tr2 = tr ∧ !qWrites rest ent.tiles then some b else none
  | none => (match s.eng.latch with
    | some b => (match s.eng.buf b with
      | some x =>
        if x.ent = ent ∧ x.tr = tr ∧ x.gen = s.tgen.getD ent.tile 0 ∧ (ent.bs = 0 ∨ x.sgen = s.tgen.getD ent.stile 0)
            ∧ !qWrites s.eng.queue ent.tiles ∧ !s.topWrites ent.tiles then some b else none
      | none => none)
    | none => none)

/-- A move to me.b (R178, R179). -/
def Station.meb (s : Station) (c : Src) (tn ctl : Nat) : EIssue :=
  let ent := ctlEnt tn ctl
  let tr := bitOf ctl 8
  if !ctlOk false tn ctl then .fault .ill
  else match (s.shapeErr .meb tn (bShape ent.fmt tr)).or
      (if ent.bs = 0 then none else s.shapeErr .meb ent.stile (bScaleShape ent.fmt ent.bs tr)) with
    | some w => .fault (.shape w)
    | none =>
      if s.eng.full then .wait
      else match s.reuse? ent tr with
        | some b => .ok { s with reuseStat := s.reuseStat + 1,
                                 eng := { s.eng.touch false c.ceil with sbuf := b, bInfo := some ent } } false
        | none =>
          let b := s.eng.target
          let s1 := s.push c false (.meb ent tr b false)
          .ok { s1 with eng := { s1.eng with sbuf := b, bInfo := some ent } } true

/-! ### MEA (R180) -/

/-- The rows an A list may hold (R180). -/
def aCap (fmt : Nat) : Nat := if fmtGroup fmt = 7 then 128 else 256

/-- A move to me.a (R178, R180). It leaves the queue at once (R187). -/
def Station.mea (s : Station) (c : Src) (tn ctl : Nat) : EIssue :=
  let ent := ctlEnt tn ctl
  let l := if s.eng.aNew then [] else s.eng.alist
  let left := aCap ent.fmt - s.aRows l
  if !ctlOk true tn ctl then .fault .ill
  else match s.aShapeErr .mea ent with
    | some w => .fault (.shape w)
    | none =>
      if l.length ≥ 2 then .fault (.shape (tcFaultOf .mea tn (s.cfg tn) anyShape))
      else if cfgRows (s.cfg tn) > left then .fault (.shape (tcFaultOf .mea tn (s.cfg tn) ⟨left, 0, 0⟩))
      else if s.eng.full then .wait
      else .ok { s with eng := { s.eng.touch false c.ceil with alist := l ++ [ent], aNew := false } } false

/-! ### MEACC (R188) -/

/-- The reserved bits of a MEACC's word, and the unused fields of its zeroing form (R188). -/
def meaccOk (tn imm : Nat) : Bool :=
  fld imm 31 9 == 0 && !(bitOf imm 8 && (tn != 0 || fld imm 7 0 != 0))

/-- Accumulator rows one tile row of a loading MEACC fills. -/
def meaccPer (fmt : Nat) : Nat := if fmt = 1 then 2 else 1

/-- A move to me.acc (R188). -/
def Station.meacc (s : Station) (c : Src) (tn imm : Nat) : EIssue :=
  let cfg := s.cfg tn
  let fmt := cfgFmt cfg
  let row0 := fld imm 7 0
  let bpr := if fmt = 1 then 64 else 32
  if !meaccOk tn imm then .fault .ill
  else if bitOf imm 8 then (if s.eng.full then .wait else .ok (s.push c false (.meacc true 0 0)) true)
  else if fmt = 1 ∧ row0 % 2 = 1 then .fault .ill
  else if fmt ≠ 1 ∧ fmt ≠ 2 ∧ fmt ≠ 12 then .fault (.shape (tcFaultOf .meacc tn cfg ⟨0, 0x20, 2⟩))
  else if fld cfg 22 16 ≠ bpr then .fault (.shape (tcFaultOf .meacc tn cfg ⟨0, bpr, fmt⟩))
  else if row0 + meaccPer fmt * cfgRows cfg > 256 then
    .fault (.shape (tcFaultOf .meacc tn cfg ⟨(256 - row0) / meaccPer fmt, 0, 0⟩))
  else if s.eng.full then .wait
  else .ok (s.push c false (.meacc false tn row0)) true

/-! ### MEGO (R183 to R185) and the automatic spill (R259) -/

/-- The VER field and the reserved bits of an operation descriptor (R183, R184). -/
def goStatic (d : Word) : Bool := wfld d 31 24 == 1 && wfld d 7 2 == 0 && wfld d 63 32 == 0

/-- ME_SPCTL.COUNT. -/
def Engine.spCount (e : Engine) : Nat := wfld e.spctl 63 47

/-- ME_SPCTL.COUNT written. -/
def Engine.setSpCount (e : Engine) (n : Nat) : Engine := { e with spctl := word (setFld e.spctl.toNat 63 47 (min n 0x1FFFF)) }

/-- The first A entry at which ROW0 + rows runs past the accumulators, with the rows still allowed (R184 check 5). -/
def Station.overEnt (s : Station) (per : Nat) : List AEnt → Nat → Option (AEnt × Nat)
  | [], _ => none
  | a :: r, row =>
    let n := per * cfgRows (s.cfg a.tile)
    if row + n > 256 then some (a, (256 - row) / per) else Station.overEnt s per r (row + n)

/-- The descriptor of an automatic spill (R259): MODE spill, CLR, ADD unless INIT. -/
def Engine.spillDesc (e : Engine) : Word :=
  let p := e.spctl
  word (2 + wfld p 44 43 * 4 + (if wbit p 42 then 0 else 32) + 64 + wfld p 31 24 * 2 ^ 8 + wfld p 39 32 * 2 ^ 16 + 2 ^ 38)

/-- A move to me.go (R184, R185, R259). -/
def Station.mego (s : Station) (c : Src) (desc : Word) : EIssue :=
  let e := s.eng
  let row0 := wfld desc 23 16
  let isF64 := match e.bInfo with
    | some b => fmtGroup b.fmt == 7
    | none => (match e.alist with
      | a :: _ => fmtGroup a.fmt == 7
      | [] => false)
  let zeroFault : EIssue := .fault (.shape (word (TOpc.mego.code * 2 ^ 11)))
  if !goStatic desc || (isF64 && row0 % 2 == 1) then .fault .ill
  else match e.bInfo, e.alist with
    | none, _ => zeroFault
    | _, [] => zeroFault
    | some b, a0 :: rest =>
      let l := a0 :: rest
      match l.findSome? (fun a => s.aShapeErr .mego a) with
      | some w => .fault (.shape w)
      | none =>
        if l.any (fun a => fmtGroup a.fmt != fmtGroup b.fmt || a.bs != b.bs) then
          .fault (.shape (tcFaultOf .mego a0.tile (s.cfg a0.tile) ⟨0, 0, b.fmt⟩))
        else match s.overEnt (if isF64 then 2 else 1) l row0 with
          | some (a, left) => .fault (.shape (tcFaultOf .mego a.tile (s.cfg a.tile) ⟨left, 0, 0⟩))
          | none =>
            if e.full then .wait
            else
              let spill := wbit e.spctl 41 && decide (wfld e.spctl 16 0 ≤ e.spCount)
              let swap := wbit desc 1 || spill
              let op : EngOp :=
                { acc := wbit desc 0, swap := swap, tag := wfld desc 15 8, row0 := row0, rows := s.aRows l, buf := e.sbuf,
                  alist := l, kstep := e.kstep, wseq := e.wseq, ovm := e.ovm, by_ := c.by_, started := false,
                  swapped := !swap, next := 0, failed := false, retried := false, ev := Ev.none }
              let s1 := s.push c true (.mego op)
              let e1 := { s1.eng with kstep := e.kstep + 1, lastUsed := some e.sbuf, aNew := true }
              let e2 := e1.setSpCount (if swap then 1 else e.spCount + 1)
              if spill then
                let d : Drn :=
                  { desc := e.spillDesc, rm := e.rm, ovm := e.ovm, daddr := e.daddr, spaddr := e.spaddr, wseq := e.wseq,
                    by_ := c.by_, auto := true, started := false, swapped := true, next := 0, ev := Ev.none }
                let s2 := { s1 with eng := e2 }.push { c with prec := none, setp := none } true (.mest d)
                .ok { s2 with eng := { s2.eng with spctl := word (setBit s2.eng.spctl.toNat 42 false) } } true
              else .ok { s1 with eng := e2 } true

/-! ### MEST (R240 to R246, R256) -/

/-- MODE of a drain descriptor. -/
def drnMode (d : Word) : Nat := wfld d 1 0
/-- GRP of a drain descriptor. -/
def drnGrp (d : Word) : Nat := wfld d 3 2
/-- SWAP of a drain descriptor. -/
def drnSwap (d : Word) : Bool := wbit d 4
/-- MERGE, or in spill mode ADD. -/
def drnMerge (d : Word) : Bool := wbit d 5
/-- CLR of a drain descriptor. -/
def drnClr (d : Word) : Bool := wbit d 6
/-- STATS of a drain descriptor. -/
def drnStats (d : Word) : Bool := wbit d 7
/-- ROW0 of a drain descriptor. -/
def drnRow0 (d : Word) : Nat := wfld d 15 8
/-- NR: NRM1 + 1. -/
def drnRows (d : Word) : Nat := wfld d 23 16 + 1
/-- NOUT, the output rows (R241). -/
def drnOut (d : Word) : Nat := if drnGrp d = 3 then drnRows d / 2 else drnRows d
/-- OFMT of a drain descriptor. -/
def drnFmt (d : Word) : Nat := wfld d 28 24
/-- BS of a drain descriptor. -/
def drnBs (d : Word) : Nat := wfld d 30 29
/-- CAUSAL of a drain descriptor. -/
def drnCausal (d : Word) : Bool := wbit d 31
/-- NSEG, 1, 2, 4 or 8. -/
def drnNseg (d : Word) : Nat := 2 ^ wfld d 55 54
/-- DSEG of a drain descriptor. -/
def drnDseg (d : Word) : Nat := wfld d 53 51
/-- RB, the bytes of an output row of 128 columns (R242; 0 for a format it does not list). -/
def drnRb (fmt : Nat) : Nat := if fmt = 15 then 0 else 16 * tileWidth fmt

/-- BASE of ME_SPADDR or ME_DADDR, in bytes. -/
def areaBase (a : Word) : Nat := wfld a 22 6 * 64
/-- RSTRIDE of ME_SPADDR or ME_DADDR, in bytes. -/
def areaStride (a : Word) : Nat := wfld a 47 32 * 64

/-- The spill area of rows row0 to row0 + nr − 1 lies in the scratchpad (R252, R256). -/
def spillFits (spaddr : Word) (grp row0 nr : Nat) : Bool :=
  let last := if grp = 3 then (row0 + nr) / 2 - 1 else row0 + nr - 1
  decide (32 * 64 ≤ areaStride spaddr) && decide (areaBase spaddr + last * areaStride spaddr + 2048 ≤ spSize)

/-- The VER field and the reserved bits of a drain descriptor (R240, R276). -/
def drnStatic (d : Word) : Bool := wfld d 39 38 == 1 && !wbit d 47

/-- Check 1 of R245, but for the areas of R256. -/
def drnOk (d : Word) : Bool :=
  let m := drnMode d
  let g := drnGrp d
  let fmt := drnFmt d
  let rb := drnRb fmt
  drnStatic d && m != 3 && decide (drnRow0 d + drnRows d ≤ 256)
    && !(g == 3 && (drnRow0 d % 2 == 1 || drnRows d % 2 == 1)) && !(drnStats d && g != 0)
    && (if m = 2 then
          fmt == 0 && drnBs d == 0 && !drnCausal d && wfld d 63 56 == 0 && wfld d 37 35 == 0 && wfld d 47 40 == 0
            && wfld d 55 48 == 0 && !drnStats d
        else
          rb != 0 && drnBs d != 3 && !(drnBs d != 0 && !(5 ≤ fmt && fmt ≤ 11)) && !(drnBs d == 2 && fmt == 11)
            && !(drnCausal d && (drnBs d != 0 || !(fmt == 2 || fmt == 3 || fmt == 4 || fmt == 6)))
            && decide (drnDseg d < drnNseg d) && decide (drnNseg d * rb ≤ 1024))

/-- The areas a drain touches fit (R256). -/
def Engine.areasOk (e : Engine) (d : Word) : Bool :=
  (if drnMode d = 2 ∨ drnMerge d then spillFits e.spaddr (drnGrp d) (drnRow0 d) (drnRows d) else true)
    && (if drnMode d = 1 then
          decide (drnRb (drnFmt d) ≤ areaStride e.daddr)
            && decide (areaBase e.daddr + (drnOut d - 1) * areaStride e.daddr + drnRb (drnFmt d) ≤ spSize)
        else true)

/-- Bytes of a row of the output scale tile (R244). -/
def drnScaleBytes (d : Word) : Nat := max 16 (drnNseg d * 128 / bsSize (drnBs d))

/-- The tiles a convert drain uses with their expected shapes, in position order (R244). -/
def drnShapes (d : Word) : List (Nat × Shape) :=
  if drnMode d = 2 then [] else
  (if drnMode d = 0 then [(wfld d 34 32, ⟨drnOut d, drnNseg d * drnRb (drnFmt d) / 16, drnFmt d⟩)] else [])
    ++ (if drnBs d ≠ 0 then [(wfld d 37 35, ⟨drnOut d, drnScaleBytes d / 16, 15⟩)] else [])
    ++ (if wfld d 45 43 ≠ 0 then [(wfld d 42 40, if wbit d 46 then ⟨4, 64, 1⟩ else ⟨4, 32, 2⟩)] else [])
    ++ (if drnStats d then [(wfld d 50 48, ⟨drnOut d, drnNseg d, 2⟩)] else [])

/-- A move to me.st (R245, R246, R259). -/
def Station.mest (s : Station) (c : Src) (desc : Word) : EIssue :=
  let e := s.eng
  if !drnOk desc || !e.areasOk desc then .fault .ill
  else match (drnShapes desc).findSome? (fun p => s.shapeErr .mest p.1 p.2) with
    | some w => .fault (.shape w)
    | none =>
      if e.full then .wait
      else
        let d : Drn :=
          { desc := desc, rm := e.rm, ovm := e.ovm, daddr := e.daddr, spaddr := e.spaddr, wseq := e.wseq, by_ := c.by_,
            auto := false, started := false, swapped := !drnSwap desc, next := 0, ev := Ev.none }
        let s1 := s.push c false (.mest d)
        .ok (if drnSwap desc then { s1 with eng := s1.eng.setSpCount 0 } else s1) true

/-! ### MERUN (R189) -/

/-- A move to me.run. -/
def Station.merun (s : Station) (c : Src) (addr : Word) : EIssue :=
  if s.eng.full then .wait
  else
    let s1 := s.push c false (.merun addr c.by_ false)
    .ok { s1 with eng := { s1.eng with aNew := true } } true

end Sys2Proof.Machine
end

