-- ==== Sys2Proof/Machine/Engine.lean ====
section
/-! DEFINITION. The engine instructions of threads, the stationary loads, the start of operations, swaps, MEACC and the
ballast level (R174 to R195, R238, R239). -/

namespace Sys2Proof.Machine

/-! ### Instructions -/

/-- Who a thread's engine instruction names. -/
def Dev.srcOf (d : Dev) (h : Hart) : Src :=
  let t := d.thr h
  { by_ := ⟨h.thr, t.pc, t.ring, t.axen, t.precise⟩, inBlk := false, prec := t.precThr h, setp := none, ceil := d.capL }

/-- An engine instruction of a thread: ILLEGAL before TILE_OWN before TILE_SHAPE (R105, R160); one that references tiles
waits for a queued command block (R153); in precise mode the thread waits for its entry (R108). -/
def Dev.engOp (d : Dev) (h : Hart) (fn : Nat) (f : TF) (ok tiles : Bool) (body : Station → Src → EIssue) : Dev :=
  d.issue h 8 (fun d1 =>
    let s := d1.stn h.stn
    let own := s.owns h.thr
    let held := own && tiles && s.eng.hasBlock
    if !ok then d1.illegal h (encT 0x39 fn f)
    else if held then d1.block h .score
    else match body s (d1.srcOf h) with
      | .fault .ill => d1.illegal h (encT 0x39 fn f)
      | r =>
        if !own then d1.ownFault h
        else match r with
          | .fault (.shape w) => d1.shapeFault h w
          | .fault .ill => d1
          | .wait => d1.block h .score
          | .ok s1 queued =>
            let d2 := (d1.setStn h.stn s1).finish h 8 1 id
            if queued && (d1.thr h).precise then d2.block h .precise else d2)

/-- The fields MEB and MEA do not name are zero. -/
def immOnly (f : TF) : Bool := f.rd == 0 && f.rs1 == 0 && f.rs2 == 0

def execMeb (h : Hart) (f : TF) (s : State) :=
  onDev s (fun d => d.engOp h 0x00 f (immOnly f && ctlOk false f.tn f.imm.toNat) true (fun s c => s.meb c f.tn f.imm.toNat))
def execMea (h : Hart) (f : TF) (s : State) :=
  onDev s (fun d => d.engOp h 0x01 f (immOnly f && ctlOk true f.tn f.imm.toNat) true (fun s c => s.mea c f.tn f.imm.toNat))
def execMeacc (h : Hart) (f : TF) (s : State) :=
  onDev s (fun d => d.engOp h 0x02 f (immOnly f && meaccOk f.tn f.imm.toNat) (!f.imm.getLsbD 8)
    (fun s c => s.meacc c f.tn f.imm.toNat))
def execMest (h : Hart) (f : TF) (s : State) :=
  onDev s (fun d =>
    let desc := (d.thr h).gr f.rs1
    d.engOp h 0x03 f (f.rd == 0 && f.rs2 == 0 && f.tn == 0 && f.imm == 0 && drnOk desc) true (fun s c => s.mest c desc))
def execMego (h : Hart) (f : TF) (s : State) :=
  onDev s (fun d =>
    let desc := (d.thr h).gr f.rs1
    d.engOp h 0x04 f (f.rd == 0 && f.rs2 == 0 && f.tn == 0 && f.imm == 0 && goStatic desc) true (fun s c => s.mego c desc))
def execMerun (h : Hart) (f : TF) (s : State) :=
  onDev s (fun d =>
    let addr := (d.thr h).gr f.rs1 + imm32 f.imm
    d.engOp h 0x05 f (f.rd == 0 && f.rs2 == 0 && f.tn == 0) false (fun s c => s.merun c addr))

/-- MESYNC needs no ownership and waits for the entries of the queue (R190). -/
def execMesync (h : Hart) (f : TF) (s : State) :=
  onDev s (fun d => d.issue h 8 (fun d1 =>
    let e := (d1.stn h.stn).eng
    if !immOnly f || f.tn ≠ 0 || f.imm ≠ 0 then d1.illegal h (encT 0x39 0x06 f)
    else if e.queue.isEmpty then d1.finish h 8 1 id
    else d1.block h (.sync e.nextId)))

/-! ### Order in the queue -/

/-- The kinds whose end a later entry may wait for. -/
def QEntry.isGo (q : QEntry) : Bool :=
  match q.kind with
  | .mego _ => true
  | _ => false
/-- A load or zeroing of the active set. -/
def QEntry.isAcc (q : QEntry) : Bool :=
  match q.kind with
  | .meacc _ _ _ => true
  | _ => false
/-- A drain or spill. -/
def QEntry.isDrn (q : QEntry) : Bool :=
  match q.kind with
  | .mest _ => true
  | _ => false
/-- A command block. -/
def QEntry.isRun (q : QEntry) : Bool :=
  match q.kind with
  | .merun _ _ _ => true
  | _ => false
/-- A swap that has been requested and has not taken place. -/
def QEntry.unswapped (q : QEntry) : Bool :=
  match q.kind with
  | .mego o => !o.swapped
  | .mest d => !d.swapped
  | _ => false
/-- A drain or spill that has not read its last shadow entry (R239). -/
def QEntry.reading (q : QEntry) : Bool :=
  match q.kind with
  | .mest d => decide (d.next < drnOut d.desc)
  | _ => false

/-- The first entry with a property, with the entries before it. -/
def qFirst (p : QEntry → Bool) : List QEntry → Option (List QEntry × QEntry)
  | [] => none
  | q :: r => if p q then some ([], q) else (qFirst p r).map (fun x => (q :: x.1, x.2))

/-- An entry's swap can take place: every earlier operation has committed, every earlier MEACC has ended and every earlier
drain has read its last entry (R239). -/
def canSwap (pre : List QEntry) : Bool := !pre.any (fun q => q.isGo || q.isAcc || q.reading)

/-- The queue with the entry of one number replaced. -/
def qPut (l : List QEntry) (q : QEntry) : List QEntry := l.map (fun x => if x.id = q.id then q else x)

/-- The station with one entry of its queue replaced. -/
def Station.setQ (s : Station) (q : QEntry) : Station := { s with eng := { s.eng with queue := qPut s.eng.queue q } }

/-- A predicate of the sequencer. -/
def Engine.pred (e : Engine) (p : Nat) : Bool := e.cbPred.getLsbD p

/-- A predicate of the sequencer written. -/
def Engine.setPred (e : Engine) (p : Nat) (b : Bool) : Engine :=
  { e with cbPred := BitVec.ofNat 8 (setBit e.cbPred.toNat p b) }

/-- An entry retires: it leaves the queue, its predicate write takes place, and what waits for it goes on (R186, R274). -/
def Station.retireQ (s : Station) (q : QEntry) (val : Bool) : Station :=
  let e := { s.eng with queue := s.eng.queue.filter (fun x => x.id != q.id) }
  let e1 := match q.setp with
    | some (_, p) => e.setPred p val
    | none => e
  (({ s with eng := e1 }).settle).wakePrec q.prec

/-- The enabled events of a retired operation or drain: those of a block's work wait for its end, others are raised now
(R227, R266). -/
def Dev.raiseWork (d : Dev) (n : Nat) (inBlk : Bool) (by_ : Raiser) (ev : Ev) : Dev :=
  let en := ev.enabled by_.axen
  if en = 0 then d
  else if inBlk then
    d.updStn n (fun s => { s with eng := { s.eng with blk := s.eng.blk.map (fun b => { b with ariths := b.ariths ++ [en] }) } })
  else d.raiseArith n ⟨by_.thr % 4, Nat.mod_lt _ (by decide)⟩ en by_.pc by_.ring by_.precise none

/-- A change of one station, if it runs. -/
def Dev.onLive (d : Dev) (n : Nat) (f : Station → Station) : Dev := d.updStn n (fun s => if s.live then f s else s)

/-! ### Stationary loads (R182) -/

/-- The next stationary load starts: the previous one has ended, no earlier operation uses its buffer, and every earlier
write to its tiles has completed. It reads the tile and its scales. -/
def Station.startLoad (s : Station) : Station :=
  match qFirst (fun q => match q.kind with
      | .meb _ _ _ _ => true
      | _ => false) s.eng.queue with
  | some (pre, q) => (match q.kind with
    | .meb ent tr b false =>
      let uses := pre.any (fun x => match x.kind with
        | .mego o => o.buf == b
        | _ => false)
      if uses || qWrites pre ent.tiles || s.topWrites ent.tiles || (pre.any QEntry.isRun && !q.inBlk) then s
      else
        let sb : SBuf := { ent := ent, tr := tr, data := s.tile ent.tile,
                           scale := if ent.bs = 0 then Mem.empty else s.tile ent.stile,
                           gen := s.tgen.getD ent.tile 0, sgen := s.tgen.getD ent.stile 0 }
        let s1 := s.setQ { q with kind := .meb ent tr b true }
        { s1 with eng := { s1.eng with sbuf0 := if b = 0 then some sb else s1.eng.sbuf0,
                                       sbuf1 := if b = 0 then s1.eng.sbuf1 else some sb, latch := some b } }
    | _ => s)
  | none => s

def execStationaryLoad (n : Fin 128) (s : State) := onDev s (fun d => d.onLive n Station.startLoad)

/-- The running stationary load ends and its MEB retires (R186). -/
def Station.endLoad (s : Station) : Station :=
  match s.eng.queue.find? (fun q => match q.kind with
      | .meb _ _ _ true => true
      | _ => false) with
  | some q => s.retireQ q false
  | none => s

def execStationaryLoadEnd (n : Fin 128) (s : State) := onDev s (fun d => d.onLive n Station.endLoad)

/-! ### Operations (R187) and swaps (R239) -/

/-- The next operation's first row enters the grid: earlier operations have started, its load has ended, earlier MEACCs have
completed, the writes to its tiles have completed, and the ballast level is at its ceiling. -/
def Station.startOp (ceil : Nat) (s : Station) : Station :=
  match qFirst (fun q => match q.kind with
      | .mego o => !o.started
      | _ => false) s.eng.queue with
  | some (pre, q) => (match q.kind with
    | .mego o =>
      let tiles := q.kind.reads
      let loading := pre.any (fun x => match x.kind with
        | .meb _ _ b _ => b == o.buf
        | _ => false)
      if loading || pre.any QEntry.isAcc || qWrites pre tiles || s.topWrites tiles || decide (s.eng.level < ceil)
          || (pre.any QEntry.isRun && !q.inBlk) then s
      else
        let s1 := s.setQ { q with kind := .mego { o with started := true } }
        { s1 with eng := { s1.eng with gap := 0 } }
    | _ => s)
  | none => s

def execOperationStart (n : Fin 128) (s : State) := onDev s (fun d => d.onLive n (Station.startOp d.capL))

/-- The swap of the operation whose first commit is due takes place where R239 allows it; a drain's swap takes place at its
first read. -/
def Station.takeSwap (s : Station) : Station :=
  match qFirst (fun q => q.unswapped) s.eng.queue with
  | some (pre, q) => (match q.kind with
    | .mego o =>
      if o.started && canSwap pre then
        let s1 := s.setQ { q with kind := .mego { o with swapped := true } }
        { s1 with eng := s1.eng.exchange }
      else s
    | _ => s)
  | none => s

def execSwap (n : Fin 128) (s : State) := onDev s (fun d => d.onLive n Station.takeSwap)

/-! ### MEACC (R188) -/

/-- The active set after a MEACC has loaded a tile's rows. -/
def Station.accLoad (s : Station) (tile row0 : Nat) : AccSet :=
  let cfg := s.cfg tile
  let m := s.tile tile
  let fmt := cfgFmt cfg
  let bpr := cfgBytes cfg
  (List.range (cfgRows cfg)).foldl (fun a r =>
    if fmt = 1 then
      (a.putRow (row0 + 2 * r) (fun c => word (tileElem m (r * bpr) 64 c))).putRow (row0 + 2 * r + 1) (fun _ => 0)
    else if fmt = 12 then a.putRow (row0 + r) (fun c => sext 32 (word (tileElem m (r * bpr) 32 c)))
    else a.putRow (row0 + r) (fun c => word (tileElem m (r * bpr) 32 c))) s.eng.active

/-- The next MEACC completes: every earlier operation has committed, every earlier swap has taken place, and the writes to
its tile have completed. -/
def Station.endAcc (s : Station) : Station :=
  match qFirst QEntry.isAcc s.eng.queue with
  | some (pre, q) => (match q.kind with
    | .meacc zero tile row0 =>
      if pre.any (fun x => x.isGo || x.unswapped) || (pre.any QEntry.isRun && !q.inBlk)
          || (!zero && (qWrites pre [tile] || s.topWrites [tile])) then s
      else
        let a := if zero then AccSet.zero else s.accLoad tile row0
        ({ s with eng := s.eng.setActive a }).retireQ q false
    | _ => s)
  | none => s

def execMeaccEnd (n : Fin 128) (s : State) := onDev s (fun d => d.onLive n Station.endAcc)

/-! ### Ballast (R195) -/

/-- The ballast level one 32-cycle step later, under a ceiling. -/
def Engine.ballast (e : Engine) (ceil : Nat) : Engine :=
  let rows := e.queue.any (fun q => match q.kind with
    | .mego o => o.started
    | _ => false)
  let waits := e.queue.any (fun q => match q.kind with
    | .mego o => !o.started
    | _ => false)
  if e.falling then { e with level := e.level - 1, falling := decide (1 < e.level) }
  else if ceil < e.level then { e with level := e.level - 1, gap := 0, rising := false }
  else if rows then { e with gap := 0 }
  else if waits || e.rising then
    { e with level := min ceil (e.level + 1), gap := 0, rising := e.rising && decide (e.level + 1 < ceil) }
  else if 64 < e.gap + 32 then { e with level := e.level - 1, gap := e.gap + 32 }
  else { e with gap := e.gap + 32 }

/-- A 32-cycle step of a station's engine ends; the level moves on even in a station that is locked up (R195). -/
def execBallastStep (n : Fin 128) (s : State) :=
  onDev s (fun d => d.updStn n (fun x => { x with eng := x.eng.ballast d.capL }))

end Sys2Proof.Machine
end

