-- ==== Sys2Proof/Machine/Grid.lean ====
section
/-! DEFINITION. What a row of an operation computes: the operand elements, the exact pass contributions, the check column,
the commit with its special values, and the retry and the poison of a failing row (R170, R177, R181, R196 to R200, R211,
R214 to R218, R225 to R230). -/

namespace Sys2Proof.Machine

/-! ### Operands -/

/-- The value of an operand element: scaled under a scale code where BS ≠ 0, an integer in units of its accumulator in the
integer and Q15 groups (R205, R209, R211). -/
def opVal (fmt bs E x : Nat) : FV :=
  if bs ≠ 0 then blockVal fmt E x
  else match tileFmt? fmt with
    | some F => F.decode x
    | none =>
      let i : Int := if fmt = 11 then ((x % 256 : Nat) : Int) else sval (tileWidth fmt) x
      .fin (decide (i < 0)) ⟨i, 0⟩

/-- B[k, n] of a stationary buffer (R177, R181). -/
def SBuf.elem (b : SBuf) (k n : Nat) : FV :=
  let fmt := b.ent.fmt
  let w := tileWidth fmt
  let K := fmtK fmt
  let x := if b.tr then tileElem b.data (n * (K * w / 8)) w k else tileElem b.data (k * (16 * w)) w n
  let q := k / bsSize b.ent.bs
  let E := (b.scale.get (if b.tr then n * (K / bsSize b.ent.bs) + q else q * 128 + n)).toNat
  opVal fmt b.ent.bs E x

/-- Element k of a row of an A entry (R177). -/
def Station.aElem (s : Station) (a : AEnt) (row k : Nat) : FV :=
  let w := tileWidth a.fmt
  let K := fmtK a.fmt
  let x := tileElem (s.tile a.tile) (row * (K * w / 8)) w k
  let E := ((s.tile a.stile).get (row * (K / bsSize a.bs) + k / bsSize a.bs)).toNat
  opVal a.fmt a.bs E x

/-- Row m of an operation: its A entry and the row within it (R180). -/
def Station.rowOf (s : Station) : List AEnt → Nat → Option (AEnt × Nat)
  | [], _ => none
  | a :: r, m => let n := cfgRows (s.cfg a.tile); if m < n then some (a, m) else Station.rowOf s r (m - n)

/-! ### The pass contribution (R214, R216) -/

/-- The products of one column, in K order: whether one is NaN, the lowest k of a signalling NaN, of a product 0 × ∞, of an
infinity of each sign, of an infinity opposite to a lower one; the exact sum of the finite ones, and whether every one is
−0. -/
structure Pass where
  nan : Bool
  snan : Option Nat
  inv : Option Nat
  pinf : Option Nat
  ninf : Option Nat
  clash : Option Nat
  sum : Dy
  negz : Bool
  deriving DecidableEq, Repr

/-- No product. -/
def Pass.empty : Pass := ⟨false, none, none, none, none, none, Dy.zero, true⟩

/-- One more product. -/
def Pass.step (p : Pass) (k : Nat) (a b : FV) : Pass :=
  if a.isNan || b.isNan then
    { p with nan := true, snan := p.snan.or (if a.isSnan || b.isSnan then some k else none), negz := false }
  else match (a.mul b).1 with
    | .nan _ => { p with nan := true, inv := p.inv.or (some k), negz := false }
    | .inf true => { p with ninf := p.ninf.or (some k), clash := p.clash.or (p.pinf.map (fun _ => k)), negz := false }
    | .inf false => { p with pinf := p.pinf.or (some k), clash := p.clash.or (p.ninf.map (fun _ => k)), negz := false }
    | .fin n d => { p with sum := p.sum.add d, negz := p.negz && n && d.isZero }

/-- The pass contribution of a column. -/
def passOf (K : Nat) (a b : Nat → FV) : Pass := (List.range K).foldl (fun p k => p.step k (a k) (b k)) Pass.empty

/-- The KIDX of an event that no product causes (R229). -/
def noK : Nat := 0x7FF

/-- The candidate (KIDX, CAUSE) of lower KIDX (R228). -/
def lowK (a b : Option (Nat × Nat)) : Option (Nat × Nat) :=
  match a, b with
  | some x, some y => if y.1 < x.1 then some y else some x
  | some x, none => some x
  | none, y => y

/-- The value, error and events of a commit of a column in a floating-point format, with the KIDX and CAUSE of its invalid
event: the terms are those held in the accumulator (none under ACC = 0) (R215, R216, R229). -/
def commitFp (F : Fmt) (ovm : Bool) (terms : List FV) (p : Pass) : Nat × Nat × Ev × Option (Nat × Nat) :=
  let nan := p.nan || terms.any FV.isNan
  let pos := p.pinf.isSome || terms.any (fun v => v.isInf && !v.sign)
  let neg := p.ninf.isSome || terms.any (fun v => v.isInf && v.sign)
  if nan then
    let c := lowK (lowK (p.inv.map (fun k => (k, 1))) (p.snan.map (fun k => (k, 2))))
      (if terms.any FV.isSnan then some (noK, 2) else none)
    (F.nanBits, 0, if c.isSome then Ev.inv else Ev.none, c)
  else if pos && neg then (F.nanBits, 0, Ev.inv, some (p.clash.getD noK, 3))
  else if pos || neg then (F.infBits neg, 0, Ev.none, none)
  else
    let T := terms.foldl (fun t v => t.add v.dy) p.sum
    let zneg := p.negz && terms.all (fun v => v.isZero && v.sign)
    let (v, ev) := F.round .rne ovm zneg T
    if ev.of then (v, 0, ev, none)
    else (v, (F.round .rne false false (T.sub (F.decode v).dy)).1, ev, none)

/-- The integer of an exact contribution of the integer and Q15 groups. -/
def Pass.int (p : Pass) : Int := p.sum.m * pow2 p.sum.e

/-- The entry and event of a commit of a column of the integer and Q15 groups (R217). -/
def commitInt (ovm : Bool) (old x : Int) : Nat × Ev :=
  let (c, out) := clampInt (-(2 ^ 63)) (2 ^ 63 - 1) (old + x)
  if out then (if ovm then wrap 64 (if c < 0 then c + 1 else c) else wrap 64 (old + x), { Ev.none with of := true })
  else (wrap 64 c, Ev.none)

/-! ### The check column (R196 to R198) -/

/-- The group accumulates as exact integers (R171, R212). -/
def exactGroup (a : AEnt) : Bool := a.bs == 0 && (fmtGroup a.fmt == 2 || fmtGroup a.fmt == 5)

/-- The accumulator format of a floating-point group. -/
def accFmt (fmt : Nat) : Fmt := if fmtGroup fmt = 7 then fp64 else fp32

/-- A value is finite. -/
def FV.isFin : FV → Bool
  | .fin _ _ => true
  | _ => false

/-- The outcome of a row's check. -/
inductive RowChk where
  | skip
  | pass
  | fail
  deriving DecidableEq, Repr

/-- The check of a row: skipped where an element or scale, or a sum, is not finite; otherwise |D − X| ≤ τ (R196 to R198). -/
def rowCheck (a : AEnt) (K : Nat) (av : Nat → FV) (bv : Nat → Nat → FV) (ps : List Pass) : RowChk :=
  let ks := List.range K
  let cols := List.range 128
  if !(ks.all (fun k => (av k).isFin && cols.all (fun n => (bv k n).isFin))) then .skip
  else
    let F := accFmt a.fmt
    let S (k : Nat) : FV :=
      let t := cols.foldl (fun t n => t.add (bv k n).dy) Dy.zero
      if exactGroup a then .fin false t else F.decode (F.round .rne false false t).1
    if !(ks.all (fun k => (S k).isFin)) then .skip
    else
      let D := ps.foldl (fun t p => t.add p.sum) Dy.zero
      let X := ks.foldl (fun t k => t.add ((av k).dy.mul (S k).dy)) Dy.zero
      let G := ks.foldl (fun t k => t.add ((av k).dy.abs.mul (cols.foldl (fun u n => u.add (bv k n).dy.abs) Dy.zero))) Dy.zero
      let tau := if exactGroup a then Dy.zero else G.scale (if fmtGroup a.fmt = 7 then -51 else -23)
      if (D.sub X).abs.le tau then .pass else .fail

/-! ### Flags and captures (R225, R228 to R230) -/

/-- The events of engine work set the sticky flags and the phase flag set; an invalid event makes the captures that find
their bit clear. -/
def Station.engEvents (s : Station) (tt : Tt) (ev : Ev) (src cause kidx row col : Nat) (kstep : BitVec 32) (seq : Word) :
    Station :=
  let e := s.eng
  let pos : Nat := 2 ^ 63 + src * 2 ^ 62 + cause * 2 ^ 59 + kidx * 2 ^ 32 + (row % 256) * 2 ^ 8 + col % 128
  let e1 := if ev.nv && !e.flags.getLsbD 0 then { e with firstNv := word pos, firstNvK := kstep, firstNvSeq := seq } else e
  let e2 := if ev.nv && !s.phFlags.getLsbD 0 then
      { e1 with phNv := word (pos + tt.phase.toNat * 2 ^ 43 + (tt.cycnum % 2 ^ 16) * 2 ^ 16), phNvK := kstep, phSeq := seq }
    else e1
  { s with eng := { e2 with flags := e2.flags ||| ev.meBits }, phFlags := s.phFlags ||| ev.phaseBits }

/-- A bit of the phase flag set. -/
def Station.phBit (s : Station) (i : Nat) : Station :=
  { s with phFlags := BitVec.ofNat 7 (setBit s.phFlags.toNat i true) }

/-- The recorder's data of a row event: the accumulator row and the low 48 bits of ME_WSEQ (R497). -/
def rowData (row : Nat) (w : Word) : Nat := row + (w.toNat % 2 ^ 48) * 2 ^ 16

/-! ### Commit (R172, R193, R199, R200) -/

/-- An operation's row, computed: the entry written to each column, its events, and the winner of the first-invalid capture
as (column, KIDX, CAUSE). In the FP64 group the error goes to the row above. -/
structure RowRes where
  row : Nat
  lo : List Word
  hi : Option (List Word)
  ev : Ev
  nv : Option (Nat × Nat × Nat)
  deriving DecidableEq, Repr

/-- The accumulator row of row m of an operation (R183). -/
def EngOp.accRow (o : EngOp) (fmt m : Nat) : Nat := if fmtGroup fmt = 7 then o.row0 + 2 * m else o.row0 + m

/-- The row of the capture's winner: the lowest column with an invalid event (R228). -/
def firstNvCol (l : List (Option (Nat × Nat))) : Option (Nat × Nat × Nat) :=
  (l.zip (List.range 128)).findSome? (fun p => p.1.map (fun x => (p.2, x.1, x.2)))

/-- A row of an operation committed into accumulator row `row` (R215 to R217). -/
def commitRow (o : EngOp) (a : AEnt) (acc : AccSet) (row : Nat) (ps : List Pass) : RowRes :=
  let cs := ps.zip (List.range 128)
  if exactGroup a then
    let rs := cs.map (fun p => commitInt o.ovm (if o.acc then sval 64 (acc.get row p.2).toNat else 0) p.1.int)
    ⟨row, rs.map (fun r => word r.1), none, rs.foldl (fun e r => e.or r.2) Ev.none, none⟩
  else
    let f64 := fmtGroup a.fmt == 7
    let F := accFmt a.fmt
    let rs := cs.map (fun p =>
      let v := (acc.get row p.2).toNat
      let e := if f64 then (acc.get (row + 1) p.2).toNat else v / 2 ^ 32
      commitFp F o.ovm (if o.acc then [F.decode (v % 2 ^ F.w), F.decode e] else []) p.1)
    ⟨row, rs.map (fun r => if f64 then word r.1 else word (r.2.1 * 2 ^ 32 + r.1)),
      if f64 then some (rs.map (fun r => word r.2.1)) else none,
      rs.foldl (fun e r => e.or r.2.2.1) Ev.none, firstNvCol (rs.map (fun r => r.2.2.2))⟩

/-- The row a second mismatch commits (R200): poison. -/
def poisonRow (a : AEnt) (row : Nat) : RowRes :=
  let f64 := fmtGroup a.fmt == 7
  let x : Word := if exactGroup a then 0x8000000000000000 else if f64 then 0x7FF8000000000000 else 0x7FC00000
  ⟨row, List.replicate 128 x, if f64 then some (List.replicate 128 0) else none, Ev.none, none⟩

/-- An accumulator set with a computed row written. -/
def AccSet.write (acc : AccSet) (r : RowRes) : AccSet :=
  let a1 := acc.putRow r.row (fun c => r.lo.getD c 0)
  match r.hi with
  | some h => a1.putRow (r.row + 1) (fun c => h.getD c 0)
  | none => a1

/-- The first operation whose rows are committed: it has started, and every earlier requested swap has taken place, its own
included, which may be taken now (R193, R239). -/
def Station.commitOp (s : Station) : Option (Station × QEntry × EngOp) :=
  match qFirst QEntry.isGo s.eng.queue with
  | some (pre, q) => (match q.kind with
    | .mego o =>
      if !o.started || pre.any (fun x => x.isAcc || x.unswapped) then none
      else if o.swapped then some (s, q, o)
      else if canSwap pre then some ({ s with eng := s.eng.exchange }, q, { o with swapped := true })
      else none
    | _ => none)
  | none => none

/-- An operation after its last row: it retires (R172, R183, R185). -/
def Dev.retireOp (d : Dev) (n : Nat) (q : QEntry) (o : EngOp) : Dev :=
  let val := match q.setp with
    | some (1, _) => o.ev.nv
    | some (2, _) => o.ev.of
    | some (_, _) => o.retried
    | none => false
  let d1 := d.updStn n (fun s =>
    ({ s with eng := { s.eng with lastTag := BitVec.ofNat 8 o.tag } }).retireQ q val)
  d1.raiseWork n q.inBlk o.by_ o.ev

/-- A row's result is in place: the next row follows, or the operation retires. -/
def Dev.rowDone (d : Dev) (n : Nat) (q : QEntry) (o : EngOp) (r : RowRes) : Dev :=
  let o1 := { o with next := o.next + 1, failed := false, ev := o.ev.or r.ev }
  let d1 := d.updStn n (fun s =>
    let s1 := { s with eng := s.eng.setActive (s.eng.active.write r) }
    let (c, k, u) := r.nv.getD (0, 0, 0)
    (s1.engEvents d.tt r.ev 0 u k r.row c o.kstep o.wseq).setQ { q with kind := .mego o1 })
  if o1.next < o.rows then d1 else d1.retireOp n q o1

/-- A row of the earliest operation leaves the grid, is compared and committed; `mismatch` is a computing error of the
hardware. A first failing check streams the row again, a second one commits poison (R172, R196 to R200). -/
def Dev.rowCommit (d : Dev) (n : Nat) (mismatch : Bool) : Dev :=
  let s := d.stn n
  if !s.live then d else
  match s.commitOp with
  | none => d
  | some (s1, q, o) =>
    match s.rowOf o.alist o.next, s.eng.buf o.buf with
    | some (a, r), some b =>
      let K := fmtK a.fmt
      let av (k : Nat) : FV := s.aElem a r k
      let ps := (List.range 128).map (fun c => passOf K av (fun k => b.elem k c))
      let row := o.accRow a.fmt o.next
      let chk := rowCheck a K av b.elem ps
      let s2 := s1.latchRow a.tile r
      let by_ : Fin 4 := ⟨o.by_.thr % 4, Nat.mod_lt _ (by decide)⟩
      if chk ≠ .skip ∧ (mismatch ∨ chk = .fail) then
        if !o.failed then
          (d.setStn n (s2.setQ { q with kind := .mego { o with failed := true, retried := true } })).event 1 5 2 n
            (rowData row o.wseq) false
        else
          let e := s2.eng
          let s3 := { s2 with eng := { e with retreq := true, fails := if e.fails = 0xFFFF then e.fails else e.fails + 1 } }
          let d1 := ((d.setStn n (s3.phBit 5)).event 1 2 4 n (rowData row o.wseq) false).raiseMchk n by_ 0
          d1.rowDone n q o (poisonRow a row)
      else
        let e := s2.eng
        let e1 := if chk = .skip then { e with skipped := e.skipped + 1 } else e
        let e2 := if o.failed then { e1 with retries := if e1.retries = 0xFFFF then e1.retries else e1.retries + 1 } else e1
        let s3 := { s2 with eng := e2, phRetries := if o.failed then min 0xFFFF (s2.phRetries + 1) else s2.phRetries }
        let s4 := if o.failed then s3.phBit 4 else s3
        (d.setStn n s4).rowDone n q o (commitRow o a s1.eng.active row ps)
    | _, _ => d

def execRowCommit (n : Fin 128) (mismatch : Bool) (s : State) := onDev s (fun d => d.rowCommit n mismatch)

end Sys2Proof.Machine
end

