-- ==== Sys2Proof/Machine/VecOps.lean ====
section
/-! DEFINITION. The issue of a vector instruction (R115, R116, R120, R124, R125, R128), its operands and its results, and its
completion. -/

namespace Sys2Proof.Machine

/-- Element i of the second source: vs2, or with SX = 1 the low ET-width bits of the general register it names (R121). -/
def Thread.op2 (t : Thread) (f : VF) (w i : Nat) : Nat :=
  if f.sx then (t.gr f.vs2).toNat % 2 ^ w else elemOf (t.vr f.vs2) w i

/-- Element i of the first source. -/
def Thread.op1 (t : Thread) (f : VF) (w i : Nat) : Nat := elemOf (t.vr f.vs1) w i

/-- A register's number with a list of elements of width w written, in order. -/
def elemsSet (w : Nat) : List (Nat × Nat) → Nat → Nat
  | [], x => x
  | p :: r, x => elemsSet w r (elemSet x w p.1 p.2)

/-- A destination register with a list of its elements written; with ZM = 1 the inactive elements below VL are zero (R120). -/
def Thread.putL (t : Thread) (km : Nat) (zm : Bool) (w vd : Nat) (l : List (Nat × Nat)) : Thread :=
  let base := if zm then
      elemsSet w (((List.range t.vlN).filter (fun i => !t.active km i)).map (fun i => (i, 0))) (t.vr vd)
    else t.vr vd
  t.setV vd (elemsSet w l base)

/-- A vector instruction's result: its thread's registers, and the events of its elements in ascending order. -/
abbrev VRes := Thread × List (Nat × Ev)

/-- An elementwise instruction: each active element of vd takes a value, with its events (R115, R120, R128). -/
def Thread.mapEv (t : Thread) (f : VF) (w : Nat) (g : Nat → Nat × Ev) : VRes :=
  let l := (t.actives f.km).map (fun i => (i, g i))
  (t.putL f.km f.zm w f.vd (l.map (fun p => (p.1, p.2.1))), l.map (fun p => (p.1, p.2.2)))

/-- An elementwise instruction without events. -/
def Thread.mapV (t : Thread) (f : VF) (w : Nat) (g : Nat → Nat) : VRes :=
  (t.putL f.km f.zm w f.vd ((t.actives f.km).map (fun i => (i, g i))), [])

/-- An elementwise instruction that draws on VSLFSR: each active element, in ascending order, takes a value computed with
the state, which then advances 32 steps (R129). -/
def drawMap (g : Nat → Nat → Nat × Ev) : List Nat → Nat → List (Nat × Nat × Ev) × Nat
  | [], u => ([], u)
  | i :: r, u => let (l, u') := drawMap g r (lfsr32 u); ((i, g i u) :: l, u')

/-- The queue entry of an instruction that touches n elements of width w. -/
def vqEntryOf (h : Hart) (t : Thread) (n w : Nat) (sto : Bool) (evs : List (Nat × Ev)) : VqEntry :=
  { thr := h.thr, ev := evs.foldl (fun e p => e.or p.2) Ev.none,
    elem := (evs.find? (fun p => p.2.enabled t.axen != 0)).map (·.1),
    axen := t.axen, ring := t.ring, addr := t.pc, precise := t.precise, sto := sto, groups := groupsOf n w }

/-- A legal vector instruction that touches n elements of width w issues into the vector queue; a full queue turns it away
(R124, log entry 7). With nothing to touch it changes nothing (R115). In precise mode its thread waits until it has
completed (R108, R125). -/
def Dev.vecRun (d : Dev) (h : Hart) (n w : Nat) (sto : Bool) (body : Thread → VRes) : Dev :=
  let t := d.thr h
  if n = 0 then d.finish h 8 1 id
  else if (d.stn h.stn).vq.length ≥ vqSize then d
  else
    let r := body t
    let d1 := (d.updStn h.stn (fun s => s.vqPush (vqEntryOf h t n w sto r.2))).finish h 8 1 (fun _ => r.1)
    if t.precise then d1.block h .precise else d1

/-- A vector instruction in format V. It takes ILLEGAL where its fields are wrong, or where VL elements of its widest operand
of width w, or what `fits` adds, exceed VLEN (R116, R58). -/
def Dev.vec (d : Dev) (h : Hart) (op fn : Nat) (f : VF) (ok : Bool) (w : Nat) (fits : Thread → Bool)
    (body : Thread → VRes) : Dev :=
  d.issue h 8 (fun d1 =>
    let t := d1.thr h
    if !ok || decide (t.vlN * w > vlen) || !fits t then d1.illegal h (encV op fn f)
    else d1.vecRun h t.vlN w (f.rm == 5) body)

/-- No further operand constrains VL. -/
def always (_ : Thread) : Bool := true

/-- The rounding direction of an RM field other than stochastic (R127). -/
def Thread.rnd (t : Thread) (rm : BitVec 3) : Rnd :=
  let m := if rm = 4 then t.frm else rm
  if m = 1 then .rtz else if m = 2 then .rdn else if m = 3 then .rup else .rne

/-- RM of an instruction that rounds; the stochastic value is allowed where `sto` says (R127). -/
def rmOk (sto : Bool) (rm : BitVec 3) : Bool := decide (rm.toNat ≤ 4) || (sto && rm == 5)

/-- An event a signalling NaN operand raises. -/
def snanEv (v : FV) : Ev := if v.isSnan then Ev.inv else Ev.none

/-! ### Completion -/

/-- The oldest instruction of the vector queue has completed: its events set the sticky flags of its thread, an enabled one
raises ARITH, and its thread, where it waits for it in precise mode or on the scoreboard, becomes ready (R124, R128, R92, R108, R110). -/
def Dev.vecComplete (d : Dev) (n : Fin 128) : Dev :=
  let s := d.stn n
  match s.vq with
  | [] => d
  | e :: r =>
    if !s.live then d else
    let thr : Fin 4 := ⟨e.thr % 4, Nat.mod_lt _ (by decide)⟩
    let d1 := d.updStn n (fun s => ({ s with vq := r }.updThr thr (fun t => { t with vflags := t.vflags ||| e.ev.vuBits })))
    let d2 := d1.raiseArith n thr (e.ev.enabled e.axen) e.addr e.ring e.precise e.elem
    d2.updStn n (fun s => if (e.precise && (s.thr thr).wait == .precise) || (s.thr thr).wait == .score then s.wakeUp thr else s)

def execVectorInstructionComplete (n : Fin 128) (s : State) := onDev s (fun d => d.vecComplete n)

/-- A lane group that has been idle for VU_PGCTL.IDLE cycles, and that no queued instruction needs, is gated (R126). -/
def execLaneGroupGate (n : Fin 128) (g : Fin 8) (s : State) :=
  onDev s (fun d => d.updStn n (fun s =>
    if s.live && s.pgEn && s.pgOn.getLsbD g && !s.vq.any (fun e => decide (g.val < e.groups))
        && decide (s.pgIdle.toNat ≤ s.cycle - s.pgLast.getD g 0)
    then { s with pgOn := BitVec.ofNat 8 (setBit s.pgOn.toNat g false) } else s))

end Sys2Proof.Machine
end

