-- ==== Sys2Proof/Machine/VecExp.lean ====
section
/-! DEFINITION. The approximations VEXP2 and VLOG2 (R137): exact and special cases, and otherwise a result the
implementation fixes within the bound. The bound is tested against the exact function to about 2^−60. -/

namespace Sys2Proof.Machine

/-- Fraction bits of the fixed-point numbers below. -/
def fxBits : Nat := 128

/-- ∏ 2^(2^−k) over the set bits of a fraction: `root` is 2^(2^−k) at step k, in units of 2^−128 (64 steps). -/
def exp2Frac : Nat → Nat → Nat → Nat → Nat
  | 0, _, _, acc => acc
  | n + 1, root, frac, acc =>
    let r := isqrt (root * 2 ^ fxBits)
    let two := 2 * frac
    let acc' := if two ≥ 2 ^ fxBits then acc * r / 2 ^ fxBits else acc
    exp2Frac n r (two % 2 ^ fxBits) acc'

/-- 2^x to about 100 bits; an x below −2000 gives 2^−2000. -/
def exp2Dy (x : Dy) : Dy :=
  if x.lt ⟨-2000, 0⟩ then ⟨1, -2000⟩
  else
    let u := if x.e ≥ -(fxBits : Int) then x.m * pow2 (x.e + fxBits) else x.m / pow2 (-(x.e + fxBits))
    let n := u / 2 ^ fxBits
    let frac := (u % 2 ^ fxBits).toNat
    ⟨(exp2Frac 64 (2 * 2 ^ fxBits) frac (2 ^ fxBits) : Int), n - fxBits⟩

/-- The bits of log2 of a number y in [1, 2) in units of 2^−128, by squaring. -/
def log2Frac : Nat → Nat → Nat → Nat
  | 0, _, acc => acc
  | n + 1, y, acc =>
    let q := y * y / 2 ^ fxBits
    if q ≥ 2 * 2 ^ fxBits then log2Frac n (q / 2) (2 * acc + 1) else log2Frac n q (2 * acc)

/-- log2 of a positive number, to 64 fraction bits. -/
def log2Dy (x : Dy) : Dy :=
  let n := x.log2
  let m := x.m.natAbs
  let y := if m.log2 ≤ fxBits then m * 2 ^ (fxBits - m.log2) else m / 2 ^ (m.log2 - fxBits)
  ⟨n * 2 ^ 64 + (log2Frac 64 y 0 : Nat), -64⟩

/-- The spacing of a format at a nonzero magnitude. -/
def Fmt.ulpAt (f : Fmt) (y : Dy) : Dy :=
  ⟨1, (if y.isZero then 1 - (f.bias : Int) else max y.log2 (1 - (f.bias : Int))) - f.fb⟩

/-- A proposed result is taken where it is a finite value within a bound of the exact one; otherwise the exact one rounded
to nearest-even stands (log entry 12). -/
def withinOr (F : Fmt) (cand : Nat) (exact bound : Dy) : Nat :=
  match F.decode (cand % 2 ^ F.w) with
  | .fin _ d => if (d.sub exact).abs.le bound then cand % 2 ^ F.w else (F.round .rne false false exact).1
  | _ => (F.round .rne false false exact).1

/-- Whether a number is an integer. -/
def Dy.isInt (x : Dy) : Bool := decide (x.e ≥ 0) || decide (x.m % pow2 (-x.e) = 0)

/-- Whether a positive number is a power of two. -/
def Dy.isPow2 (x : Dy) : Bool := decide (x.m.natAbs = 2 ^ x.m.natAbs.log2)

/-- The largest x below which exp2(x) is finite in a format: its largest exponent plus 1. -/
def Fmt.expTop (F : Fmt) : Dy := ⟨(2 ^ F.eb - 1 : Nat) - (F.bias : Int), 0⟩

/-- VEXP2 of an element of FP32, FP16 or BF16 (R137). -/
def exp2Elem (et a : Nat) : Nat × Ev :=
  let F := (vecFmt? et).getD fp32
  match F.decode a with
  | .nan s => (F.nanBits, if s then Ev.inv else Ev.none)
  | .inf n => (if n then 0 else F.infBits false, Ev.none)
  | .fin _ x =>
    if x.isZero then ((F.round .rne false false ⟨1, 0⟩).1, Ev.none)
    else if F.expTop.le x then (F.infBits false, { Ev.none with of := true, nx := true })
    else
      let E := exp2Dy x
      let r := F.round .rne false false E
      if x.isInt && !r.2.nx then (r.1, Ev.none)
      else
        let b := withinOr F (Config.exp2Approx et a) E ((F.ulpAt E).scale (if et = 9 then 1 else 0))
        (b, { Ev.none with nx := true, uf := decide (b % 2 ^ (F.w - 1) < F.minNormal) })

/-- The bound of VLOG2 at x whose logarithm is E (R137). -/
def log2Bound (et : Nat) (F : Fmt) (x E : Dy) : Dy :=
  if Dy.le ⟨1, -1⟩ x && x.le ⟨2, 0⟩ then ⟨1, if et = 9 then -22 else if et = 10 then -11 else -8⟩
  else (F.ulpAt E).scale (if et = 9 then 1 else 0)

/-- VLOG2 of an element of FP32, FP16 or BF16 (R137). -/
def log2Elem (et a : Nat) : Nat × Ev :=
  let F := (vecFmt? et).getD fp32
  match F.decode a with
  | .nan s => (F.nanBits, if s then Ev.inv else Ev.none)
  | .inf n => if n then (F.nanBits, Ev.inv) else (F.infBits false, Ev.none)
  | .fin n x =>
    if x.isZero then (F.infBits true, { Ev.none with dz := true })
    else if n then (F.nanBits, Ev.inv)
    else if x.isPow2 then ((F.round .rne false false ⟨x.log2, 0⟩).1, Ev.none)
    else
      let E := log2Dy x
      (withinOr F (Config.log2Approx et a) E (log2Bound et F x E), { Ev.none with nx := true })

/-- VEXP2 and VLOG2: FP32, FP16 or BF16 with RM = 0 (R137, R148). -/
def Dev.vapprox (d : Dev) (h : Hart) (fn : Nat) (f : VF) (g : Nat → Nat → Nat × Ev) : Dev :=
  let et := f.et.toNat
  let w := etWidth et
  d.vec h 0x37 fn f
    (decide (9 ≤ et) && decide (et ≤ 11) && f.rm == 0 && f.vs3 == 0 && f.vs2 == 0 && !f.sx && f.imm == 0) w always
    (fun t => t.mapEv f w (fun i => g et (t.op1 f w i)))

def execVexp2 (h : Hart) (f : VF) (s : State) := onDev s (fun d => d.vapprox h 0x001 f exp2Elem)
def execVlog2 (h : Hart) (f : VF) (s : State) := onDev s (fun d => d.vapprox h 0x002 f log2Elem)

end Sys2Proof.Machine
end

