-- ==== Sys2Proof/Machine/VecFloat.lean ====
section
/-! DEFINITION. Vector floating point (R127, R144). -/

namespace Sys2Proof.Machine

/-- The floating-point format of an arithmetic element type: FP64, FP32, FP16 or BF16 (R118, R144). -/
def arithFmt? (et : Nat) : Option Fmt := if 8 ≤ et ∧ et ≤ 11 then vecFmt? et else none

/-- A floating-point instruction: its element result from the format, the direction and the operands vs1[i], vs2[i] and
vd[i]. `unary` forms have vs2 zero and SX = 0; forms that do not round have RM = 0. -/
def Dev.vfp (d : Dev) (h : Hart) (fn : Nat) (f : VF) (unary rounds : Bool)
    (g : Fmt → Rnd → Nat → Nat → Nat → Nat × Ev) : Dev :=
  let F := (arithFmt? f.et.toNat).getD fp64
  d.vec h 0x33 fn f
    ((arithFmt? f.et.toNat).isSome && f.vs3 == 0 && f.imm == 0 && (!unary || (f.vs2 == 0 && !f.sx))
      && (if rounds then rmOk false f.rm else f.rm == 0))
    F.w always
    (fun t => t.mapEv f F.w (fun i => g F (t.rnd f.rm) (t.op1 f F.w i) (t.op2 f F.w i) (elemOf (t.vr f.vd) F.w i)))

/-- A two-operand arithmetic form on values, rounded once. -/
def vf2 (op : Rnd → FV → FV → FV × Ev) (F : Fmt) (r : Rnd) (a b _c : Nat) : Nat × Ev :=
  F.fromVal r false (op r (F.decode a) (F.decode b))

/-- a × b + c with the signs of the product and of c as given, rounded once (R144). -/
def vfma (np nc : Bool) (F : Fmt) (r : Rnd) (a b c : Nat) : Nat × Ev :=
  let p := (F.decode a).mul (F.decode b)
  let c' := F.decode c
  let q := FV.add r (if np then p.1.neg else p.1) (if nc then c'.neg else c')
  F.fromVal r false (q.1, p.2.or q.2)

/-- Minimum or maximum: the operand's own bits, or the canonical NaN (R127). -/
def vfmm (op : FV → FV → FV × Ev) (F : Fmt) (_ : Rnd) (a b _c : Nat) : Nat × Ev :=
  F.fromVal .rne false (op (F.decode a) (F.decode b))

def execVfadd (h : Hart) (f : VF) (s : State) := onDev s (fun d => d.vfp h 0x000 f false true (vf2 (fun r a b => a.add r b)))
def execVfsub (h : Hart) (f : VF) (s : State) := onDev s (fun d => d.vfp h 0x001 f false true (vf2 (fun r a b => a.add r b.neg)))
def execVfmul (h : Hart) (f : VF) (s : State) := onDev s (fun d => d.vfp h 0x002 f false true (vf2 (fun _ a b => a.mul b)))
def execVfdiv (h : Hart) (f : VF) (s : State) := onDev s (fun d => d.vfp h 0x003 f false true (vf2 (fun _ a b => a.div b)))
def execVfsqrt (h : Hart) (f : VF) (s : State) := onDev s (fun d => d.vfp h 0x004 f true true (vf2 (fun _ a _ => a.sqrt)))
def execVfmin (h : Hart) (f : VF) (s : State) := onDev s (fun d => d.vfp h 0x005 f false false (vfmm FV.min))
def execVfmax (h : Hart) (f : VF) (s : State) := onDev s (fun d => d.vfp h 0x006 f false false (vfmm FV.max))
/-- VFABS clears the sign bit (R144, R207). -/
def execVfabs (h : Hart) (f : VF) (s : State) :=
  onDev s (fun d => d.vfp h 0x007 f true false (fun F _ a _ _ => (a % 2 ^ (F.w - 1), Ev.none)))
/-- VFNEG inverts the sign bit (R144, R207). -/
def execVfneg (h : Hart) (f : VF) (s : State) :=
  onDev s (fun d => d.vfp h 0x008 f true false (fun F _ a _ _ => (a ^^^ 2 ^ (F.w - 1), Ev.none)))
def execVfma (h : Hart) (f : VF) (s : State) := onDev s (fun d => d.vfp h 0x010 f false true (vfma false false))
def execVfms (h : Hart) (f : VF) (s : State) := onDev s (fun d => d.vfp h 0x011 f false true (vfma false true))
def execVfnma (h : Hart) (f : VF) (s : State) := onDev s (fun d => d.vfp h 0x012 f false true (vfma true false))

end Sys2Proof.Machine
end

