-- ==== Sys2Proof/Machine/Fixed.lean ====
section
/-! DEFINITION. The fixed-point class (R74 to R78): Q formats, the 72-bit accumulators, rounding by QRM. -/

namespace Sys2Proof.Machine

/-- The width of a Q format's operands, by QF (R74). -/
def qWidth (qf : BitVec 2) : Nat := if qf = 0 then 16 else if qf = 1 then 32 else 64

/-- The fraction bits of a Q format, by QF (R74). -/
def qFrac (qf : BitVec 2) : Nat := qWidth qf - 1

/-- A register operand of a Q format: the low bits, the upper bits ignored (R74). -/
def qArg (qf : BitVec 2) (x : Word) : Int := sval (qWidth qf) x.toNat

/-- The rounding mode QRM of a thread (R77). -/
def Thread.qmode (t : Thread) : QRnd :=
  if t.qrm = 0 then .trunc else if t.qrm = 1 then .up else if t.qrm = 2 then .even else .sto t.qlfsr.toNat

/-- After a stochastic rounding that discards d > 0 bits, QLFSR advances 32 steps (R77). -/
def Thread.qadvance (d : Nat) (t : Thread) : Thread :=
  if t.qrm = 3 ∧ d > 0 then { t with qlfsr := BitVec.ofNat 32 (lfsr32 t.qlfsr.toNat) } else t

/-- An exact result saturated to a Q format's range, sign-extended into rd; saturation sets FXCSR.SAT (R76). -/
def Thread.qput (qf : BitVec 2) (rd : Fin 32) (x : Int) (t : Thread) : Thread :=
  let (v, sat) := clampInt (-(2 ^ (qFrac qf))) (2 ^ (qFrac qf) - 1) x
  { t with fxSat := t.fxSat || sat }.setG rd (BitVec.ofInt 64 v)

/-- The value of an accumulator: M, a 72-bit two's-complement integer (R74). -/
def Thread.maVal (t : Thread) (n : Nat) : Int := (t.ma.getD n 0).toInt

/-- An accumulator written with an exact result; outside the 72-bit range it takes the nearest extreme and sets FXCSR.OV
(R75). -/
def Thread.maPut (n : Nat) (x : Int) (t : Thread) : Thread :=
  let (v, ov) := clampInt (-(2 ^ 71)) (2 ^ 71 - 1) x
  { t with ma := t.ma.set n (BitVec.ofInt 72 v), fxOv := t.fxOv || ov }

/-- A product as it is placed in ma: shifted left 33 (Q15) or 1 (Q31), or shifted right 63 and rounded by QRM (Q63)
(R74). -/
def Thread.qplace (t : Thread) (qf : BitVec 2) (p : Int) : Int :=
  if qf = 0 then p * 2 ^ 33 else if qf = 1 then p * 2 else qround t.qmode p 63

/-- The bits a Q63 product discards on its way into ma. -/
def qDisc (qf : BitVec 2) : Nat := if qf = 2 then 63 else 0

/-- The word of a fixed-point instruction (R78: FN = 4 × code + QF). -/
def qBits (code : Nat) (qf : BitVec 2) (rd rs1 rs2 : Fin 32) : Word := encA 0x0A (4 * code + qf.toNat) rd rs1 rs2

/-- QMAC and QMSU (R75): rd[21] selects the accumulator, the other bits of rd are zero, QF 0b11 is reserved. -/
def Dev.qmacOp (d : Dev) (h : Hart) (code : Nat) (neg : Bool) (rd rs1 rs2 : Fin 32) (qf : BitVec 2) : Dev :=
  d.issue h 4 (fun d1 =>
    if qf = 3 ∨ rd.val > 1 then d1.illegal h (qBits code qf rd rs1 rs2)
    else d1.finish h 4 1 (fun t =>
      let p := t.qplace qf (qArg qf (t.gr rs1) * qArg qf (t.gr rs2))
      (t.maPut rd (if neg then t.maVal rd - p else t.maVal rd + p)).qadvance (qDisc qf)))

def execQmac (h : Hart) (rd rs1 rs2 : Fin 32) (qf : BitVec 2) (s : State) := onDev s (fun d => d.qmacOp h 0 false rd rs1 rs2 qf)
def execQmsu (h : Hart) (rd rs1 rs2 : Fin 32) (qf : BitVec 2) (s : State) := onDev s (fun d => d.qmacOp h 1 true rd rs1 rs2 qf)

/-- QMUL rounds the exact product to the format's fraction bits by QRM and saturates (R76). -/
def execQmul (h : Hart) (rd rs1 rs2 : Fin 32) (qf : BitVec 2) (s : State) :=
  onDev s (fun d => d.issue h 4 (fun d1 =>
    if qf = 3 then d1.illegal h (qBits 2 qf rd rs1 rs2)
    else d1.finish h 4 1 (fun t =>
      (t.qput qf rd (qround t.qmode (qArg qf (t.gr rs1) * qArg qf (t.gr rs2)) (qFrac qf))).qadvance (qFrac qf))))

/-- QADD and QSUB compute the exact sum and saturate (R76). -/
def Dev.qaddOp (d : Dev) (h : Hart) (code : Nat) (neg : Bool) (rd rs1 rs2 : Fin 32) (qf : BitVec 2) : Dev :=
  d.issue h 4 (fun d1 =>
    if qf = 3 then d1.illegal h (qBits code qf rd rs1 rs2)
    else d1.finish h 4 1 (fun t =>
      let b := qArg qf (t.gr rs2)
      t.qput qf rd (qArg qf (t.gr rs1) + (if neg then -b else b))))

def execQadd (h : Hart) (rd rs1 rs2 : Fin 32) (qf : BitVec 2) (s : State) := onDev s (fun d => d.qaddOp h 3 false rd rs1 rs2 qf)
def execQsub (h : Hart) (rd rs1 rs2 : Fin 32) (qf : BitVec 2) (s : State) := onDev s (fun d => d.qaddOp h 4 true rd rs1 rs2 qf)

/-- QRND shifts ma right by 63 less the fraction bits, rounds by QRM and saturates; ma is unchanged (R76). -/
def execQrnd (h : Hart) (rd rs1 rs2 : Fin 32) (qf : BitVec 2) (s : State) :=
  onDev s (fun d => d.issue h 4 (fun d1 =>
    if qf = 3 ∨ rs1.val > 1 ∨ rs2 ≠ 0 then d1.illegal h (qBits 5 qf rd rs1 rs2)
    else d1.finish h 4 1 (fun t =>
      (t.qput qf rd (qround t.qmode (t.maVal rs1) (63 - qFrac qf))).qadvance (63 - qFrac qf))))

/-- QCLR (R78). -/
def execQclr (h : Hart) (rd rs1 rs2 : Fin 32) (s : State) :=
  onDev s (fun d => d.issue h 4 (fun d1 =>
    if rd.val > 1 ∨ rs1 ≠ 0 ∨ rs2 ≠ 0 then d1.illegal h (encA 0x0A 0x018 rd rs1 rs2)
    else d1.finish h 4 1 (fun t => { t with ma := t.ma.set rd 0 })))

/-- MFMAL reads ma[63:0] (R78). -/
def execMfmal (h : Hart) (rd rs1 rs2 : Fin 32) (s : State) :=
  onDev s (fun d => d.issue h 4 (fun d1 =>
    if rs1.val > 1 ∨ rs2 ≠ 0 then d1.illegal h (encA 0x0A 0x020 rd rs1 rs2)
    else d1.finish h 4 1 (fun t => t.setG rd ((t.ma.getD rs1 0).truncate 64))))

/-- MFMAH reads ma[71:64], sign-extended (R78). -/
def execMfmah (h : Hart) (rd rs1 rs2 : Fin 32) (s : State) :=
  onDev s (fun d => d.issue h 4 (fun d1 =>
    if rs1.val > 1 ∨ rs2 ≠ 0 then d1.illegal h (encA 0x0A 0x021 rd rs1 rs2)
    else d1.finish h 4 1 (fun t => t.setG rd (((t.ma.getD rs1 0).extractLsb' 64 8).signExtend 64))))

/-- MTMAL writes ma[63:0] (R78). -/
def execMtmal (h : Hart) (rd rs1 rs2 : Fin 32) (s : State) :=
  onDev s (fun d => d.issue h 4 (fun d1 =>
    if rd.val > 1 ∨ rs2 ≠ 0 then d1.illegal h (encA 0x0A 0x022 rd rs1 rs2)
    else d1.finish h 4 1 (fun t =>
      { t with ma := t.ma.set rd ((t.ma.getD rd 0).extractLsb' 64 8 ++ t.gr rs1) })))

/-- MTMAH writes ma[71:64] with rs1[7:0] (R78). -/
def execMtmah (h : Hart) (rd rs1 rs2 : Fin 32) (s : State) :=
  onDev s (fun d => d.issue h 4 (fun d1 =>
    if rd.val > 1 ∨ rs2 ≠ 0 then d1.illegal h (encA 0x0A 0x023 rd rs1 rs2)
    else d1.finish h 4 1 (fun t =>
      { t with ma := t.ma.set rd ((t.gr rs1).truncate 8 ++ (t.ma.getD rd 0).truncate 64) })))

end Sys2Proof.Machine
end

