-- ==== Sys2Proof/Machine/VecInt.lean ====
section
/-! DEFINITION. Vector integer and fixed point (R119, R127, R145). -/

namespace Sys2Proof.Machine

/-- An integer instruction: its element result from the element type, the width and the operands. -/
def Dev.vint (d : Dev) (h : Hart) (fn : Nat) (f : VF) (g : Nat → Nat → Nat → Nat) : Dev :=
  let w := etWidth f.et.toNat
  d.vec h 0x34 fn f (etInt f.et.toNat && f.vs3 == 0 && f.rm == 0 && f.imm == 0) w always
    (fun t => t.mapV f w (fun i => g w (t.op1 f w i) (t.op2 f w i) % 2 ^ w))

/-- The order of two elements of an integer type: signed or unsigned by ET (R145, R146). -/
def intLt (et w a b : Nat) : Bool := if etUnsigned et then decide (a < b) else decide (sval w a < sval w b)

def execVadd (h : Hart) (f : VF) (s : State) := onDev s (fun d => d.vint h 0x000 f (fun _ a b => a + b))
def execVsub (h : Hart) (f : VF) (s : State) := onDev s (fun d => d.vint h 0x001 f (fun w a b => wrap w ((a : Int) - b)))
def execVmul (h : Hart) (f : VF) (s : State) := onDev s (fun d => d.vint h 0x002 f (fun _ a b => a * b))
def execVmulh (h : Hart) (f : VF) (s : State) :=
  onDev s (fun d => d.vint h 0x003 f (fun w a b => wrap w (sval w a * sval w b / 2 ^ w)))
def execVmulhu (h : Hart) (f : VF) (s : State) := onDev s (fun d => d.vint h 0x004 f (fun w a b => a * b / 2 ^ w))
def execVand (h : Hart) (f : VF) (s : State) := onDev s (fun d => d.vint h 0x005 f (fun _ a b => a &&& b))
def execVor (h : Hart) (f : VF) (s : State) := onDev s (fun d => d.vint h 0x006 f (fun _ a b => a ||| b))
def execVxor (h : Hart) (f : VF) (s : State) := onDev s (fun d => d.vint h 0x007 f (fun _ a b => a ^^^ b))
/-- Shifts are by vs2[i] modulo the width (R145). -/
def execVsll (h : Hart) (f : VF) (s : State) := onDev s (fun d => d.vint h 0x008 f (fun w a b => a <<< (b % w)))
def execVsrl (h : Hart) (f : VF) (s : State) := onDev s (fun d => d.vint h 0x009 f (fun w a b => a >>> (b % w)))
def execVsra (h : Hart) (f : VF) (s : State) :=
  onDev s (fun d => d.vint h 0x00A f (fun w a b => wrap w (sval w a / 2 ^ (b % w))))
def execVmin (h : Hart) (f : VF) (s : State) :=
  onDev s (fun d => d.vint h 0x00B f (fun w a b => if intLt f.et.toNat w b a then b else a))
def execVmax (h : Hart) (f : VF) (s : State) :=
  onDev s (fun d => d.vint h 0x00C f (fun w a b => if intLt f.et.toNat w a b then b else a))

/-- A saturated fixed-point element with the SAT event (R76, R128). -/
def qElem (w : Nat) (x : Int) : Nat × Ev :=
  let (v, sat) := clampInt (-(2 ^ (w - 1))) (2 ^ (w - 1) - 1) x
  (wrap w v, { Ev.none with sat := sat })

/-- The rounding mode FXCSR.QRM with VSLFSR as its stochastic source (R127). -/
def vqmode (t : Thread) (u : Nat) : QRnd :=
  if t.qrm = 0 then .trunc else if t.qrm = 1 then .up else if t.qrm = 2 then .even else .sto u

/-- A fixed-point instruction on Q15, Q31 or Q63 with RM = 0: the exact result of two elements, of which `disc` says whether
its fraction bits are discarded by QRM. Under the stochastic mode a rounding instruction advances VSLFSR for each active
element (R76, R77, R127, R129). -/
def Dev.vq (d : Dev) (h : Hart) (fn : Nat) (f : VF) (disc : Bool) (g : Int → Int → Int) : Dev :=
  let w := etWidth f.et.toNat
  let k := if disc then etQFrac f.et.toNat else 0
  d.vec h 0x34 fn f (etQ f.et.toNat && f.vs3 == 0 && f.rm == 0 && f.imm == 0) w always (fun t =>
    let e (i u : Nat) : Nat × Ev := qElem w (qround (vqmode t u) (g (sval w (t.op1 f w i)) (sval w (t.op2 f w i))) k)
    if disc && t.qrm == 3 then
      let r := drawMap e (t.actives f.km) t.vslfsr.toNat
      ({ t.putL f.km f.zm w f.vd (r.1.map (fun p => (p.1, p.2.1))) with vslfsr := BitVec.ofNat 32 r.2 },
        r.1.map (fun p => (p.1, p.2.2)))
    else t.mapEv f w (fun i => e i 0))

def execVqadd (h : Hart) (f : VF) (s : State) := onDev s (fun d => d.vq h 0x010 f false (fun a b => a + b))
def execVqsub (h : Hart) (f : VF) (s : State) := onDev s (fun d => d.vq h 0x011 f false (fun a b => a - b))
def execVqmul (h : Hart) (f : VF) (s : State) := onDev s (fun d => d.vq h 0x012 f true (fun a b => a * b))

end Sys2Proof.Machine
end

