-- ==== Sys2Proof/Machine/VecPerm.lean ====
section
/-! DEFINITION. Permutes, reductions and top-k selection (R135, R136, R138, R139, R147). -/

namespace Sys2Proof.Machine

/-- A permute that moves elements of any type; `vs2IsReg` says that the vs2 field names a general register, or is unused,
so that SX is zero. -/
def Dev.vperm (d : Dev) (h : Hart) (fn : Nat) (f : VF) (ok : Bool) (body : Nat → Thread → VRes) : Dev :=
  let w := etWidth f.et.toNat
  d.vec h 0x36 fn f (ok && w != 0 && f.vs3 == 0 && f.rm == 0 && f.imm == 0) w always (body w)

/-- VSLIDEUP: vd[i + s] ← vs1[i] for i + s < VL (R147). -/
def execVslideup (h : Hart) (f : VF) (s : State) :=
  onDev s (fun d => d.vperm h 0x000 f (!f.sx) (fun w t =>
    let k := (t.gr f.vs2).toNat
    (t.putL f.km f.zm w f.vd (((t.actives f.km).filter (fun i => decide (k ≤ i))).map (fun i => (i, t.op1 f w (i - k)))), [])))

/-- VSLIDEDN: vd[i] ← vs1[i + s], or 0 where i + s ≥ VL (R147). -/
def execVslidedn (h : Hart) (f : VF) (s : State) :=
  onDev s (fun d => d.vperm h 0x001 f (!f.sx) (fun w t =>
    let k := (t.gr f.vs2).toNat
    t.mapV f w (fun i => if i + k < t.vlN then t.op1 f w (i + k) else 0)))

/-- VPERM: vd[i] ← vs1[vs2[i]], or 0 where vs2[i] ≥ VL (R147). -/
def execVperm (h : Hart) (f : VF) (s : State) :=
  onDev s (fun d => d.vperm h 0x002 f true (fun w t =>
    t.mapV f w (fun i => if t.op2 f w i < t.vlN then t.op1 f w (t.op2 f w i) else 0)))

/-- VCOMPRESS: the active elements of vs1 packed to vd from element 0 (R147). -/
def execVcompress (h : Hart) (f : VF) (s : State) :=
  onDev s (fun d => d.vperm h 0x003 f (!f.sx && f.vs2 == 0 && !f.zm) (fun w t =>
    (t.putL 0 false w f.vd ((t.actives f.km).zipIdx.map (fun p => (p.2, t.op1 f w p.1))), [])))

/-- VIOTA: vd[i] ← i, of an integer type (R147). -/
def execViota (h : Hart) (f : VF) (s : State) :=
  onDev s (fun d => d.vperm h 0x004 f (!f.sx && f.vs2 == 0 && f.vs1 == 0 && etInt f.et.toNat) (fun w t =>
    t.mapV f w (fun i => i % 2 ^ w)))

/-! ### Reductions (R135, R136) -/

/-- A term of a tree: a value's bits in the tree's format, with the events so far. -/
abbrev Term := Nat × Ev

/-- One level of the pairwise tree. -/
def treeLevel (op : Nat → Nat → Nat × Ev) : List Term → List Term
  | a :: b :: r => let c := op a.1 b.1; (c.1, (a.2.or b.2).or c.2) :: treeLevel op r
  | l => l

/-- The pairwise tree over a power of two of terms (fuel levels). -/
def treeFold (op : Nat → Nat → Nat × Ev) : Nat → List Term → List Term
  | 0, l => l
  | n + 1, l => match l with
    | _ :: _ :: _ => treeFold op n (treeLevel op l)
    | _ => l

/-- The smallest power of two at or above n, at least 1. -/
def pow2Up (n : Nat) : Nat := if n ≤ 1 then 1 else 2 ^ ((n - 1).log2 + 1)

/-- The segments of R135: the index of each and the elements it holds. -/
def segments (vl S : Nat) : List (Nat × List Nat) :=
  if S = 0 then [] else (List.range ((vl + S - 1) / S)).map (fun j => (j, upFrom (j * S) (min (j * S + S) vl - j * S)))

/-- The tree of one segment: its terms padded with the identity (R135). -/
def segTree (op : Nat → Nat → Nat × Ev) (ident : Nat) (terms : List Term) : Term :=
  let p := pow2Up terms.length
  (treeFold op 12 (terms ++ List.replicate (p - terms.length) (ident, Ev.none))).headD (ident, Ev.none)

/-- The segment length: the general register the vs2 field names. -/
def segLen (t : Thread) (f : VF) : Nat := (t.gr f.vs2).toNat

/-- The destination of a reduction holds ⌈VL / S⌉ elements of width wo (R116). -/
def redFits (f : VF) (wo : Nat) (t : Thread) : Bool := decide ((segments t.vlN (segLen t f)).length * wo ≤ vlen)

/-- A reduction: `term` gives the term of an active element of segment j, in the destination's format of width wo. -/
def redBody (f : VF) (wo : Nat) (op : Nat → Nat → Nat × Ev) (ident : Nat) (term : Thread → Nat → Nat → Term)
    (t : Thread) : VRes :=
  let rs := (segments t.vlN (segLen t f)).map (fun sg =>
    (sg.1, segTree op ident (sg.2.map (fun i => if t.active f.km i then term t sg.1 i else (ident, Ev.none)))))
  (t.putL 0 false wo f.vd (rs.map (fun p => (p.1, p.2.1))), rs.map (fun p => (p.1, p.2.2)))

/-- One addition of a tree, rounded once (R135). -/
def treeAdd (F : Fmt) (r : Rnd) (a b : Nat) : Nat × Ev := F.fromVal r false (FV.add r (F.decode a) (F.decode b))

/-- The fields of a reduction (R121, R135). -/
def redOk (f : VF) (rounds : Bool) : Bool :=
  (arithFmt? f.et.toNat).isSome && f.vs3 == 0 && f.imm == 0 && !f.zm && !f.sx && (if rounds then rmOk false f.rm else f.rm == 0)

/-- The format of a sum: FP32 for FP16 and BF16 sources (R135). -/
def sumFmt (F : Fmt) : Fmt := if F.w = 16 then fp32 else F

/-- VRSUM: segment sums, −0 for an inactive element (R135). A signalling NaN among the active elements is invalid, also in a
segment of one element, whose result is the canonical NaN (R207, DEDUCED, log entry 15). -/
def execVrsum (h : Hart) (f : VF) (s : State) :=
  onDev s (fun d =>
    let F := (arithFmt? f.et.toNat).getD fp64
    let G := sumFmt F
    d.vec h 0x36 0x010 f (redOk f true) F.w (redFits f G.w) (fun t =>
      redBody f G.w (treeAdd G (t.rnd f.rm)) (G.withSign true 0)
        (fun t _ i => let a := F.decode (t.op1 f F.w i); (G.ofVal a, snanEv a)) t))

/-- A segment minimum or maximum in the source format (R127, R135). -/
def Dev.vredmm (d : Dev) (h : Hart) (fn : Nat) (f : VF) (op : FV → FV → FV × Ev) (negIdent : Bool) : Dev :=
  let F := (arithFmt? f.et.toNat).getD fp64
  d.vec h 0x36 fn f (redOk f false) F.w (redFits f F.w) (fun t =>
    redBody f F.w (fun a b => F.fromVal .rne false (op (F.decode a) (F.decode b))) (F.infBits negIdent)
      (fun t _ i => let a := F.decode (t.op1 f F.w i); (F.ofVal a, snanEv a)) t)

def execVrmax (h : Hart) (f : VF) (s : State) := onDev s (fun d => d.vredmm h 0x011 f FV.max true)
def execVrmin (h : Hart) (f : VF) (s : State) := onDev s (fun d => d.vredmm h 0x012 f FV.min false)

/-- VRSEXP2: the segment sums of exp2(vs1[i] − vs3[j]) in FP32 (R136). -/
def execVrsexp2 (h : Hart) (f : VF) (s : State) :=
  onDev s (fun d =>
    let et := f.et.toNat
    let F := (arithFmt? et).getD fp64
    d.vec h 0x36 0x013 f
      (decide (9 ≤ et) && decide (et ≤ 11) && f.imm == 0 && !f.zm && !f.sx && rmOk false f.rm) F.w (redFits f 32)
      (fun t =>
        redBody f 32 (treeAdd fp32 (t.rnd f.rm)) (fp32.withSign true 0) (fun t j i =>
          let a := F.decode (t.op1 f F.w i)
          let b := fp32.decode (elemOf (t.vr f.vs3) 32 j)
          let x := fp32.fromVal .rne false (FV.add .rne a b.neg)
          let y := exp2Elem 9 x.1
          (y.1, x.2.or y.2)) t))

/-! ### Top-k selection (R138, R139) -/

/-- The value of an element of a type VTOPK supports (R138). -/
def topVal (et x : Nat) : FV :=
  match arithFmt? et with
  | some F => F.decode x
  | none => .fin (decide (sval 32 x < 0)) ⟨sval 32 x, 0⟩

/-- Candidate a (bits, index) ranks before candidate b (R138). -/
def ranksBefore (et : Nat) (a b : Nat × Nat) : Bool :=
  let x := topVal et a.1
  let y := topVal et b.1
  if x.isNan && y.isNan then decide (a.2 ≤ b.2)
  else if x.isNan then true
  else if y.isNan then false
  else if y.ltNum x then true
  else if x.ltNum y then false
  else decide (a.2 ≤ b.2)

/-- A candidate placed in a ranked list. -/
def rankInsert (et : Nat) (a : Nat × Nat) : List (Nat × Nat) → List (Nat × Nat)
  | [] => [a]
  | b :: r => if ranksBefore et b a then b :: rankInsert et a r else a :: b :: r

/-- What fills the positions that have no candidate: −∞ or the most negative integer, with index 0xFFFF_FFFF (R138). -/
def topFill (et : Nat) : Nat × Nat :=
  ((match arithFmt? et with
    | some F => F.infBits true
    | none => 0x80000000), 0xFFFFFFFF)

/-- VTOPK and VTOPKM: the k largest of the candidates, their values to vd and their indices to vs3 (R138, R139). -/
def topBody (f : VF) (merge : Bool) (t : Thread) : VRes :=
  let et := f.et.toNat
  let w := etWidth et
  let k := min (t.gr f.vs2).toNat 256
  let base := (t.gr (f.imm.toNat % 32)).toNat
  let old := if merge then (List.range k).map (fun i => (elemOf (t.vr f.vd) w i, elemOf (t.vr f.vs3) 32 i)) else []
  let new := (t.actives f.km).map (fun i => (t.op1 f w i, (base + i) % 2 ^ 32))
  let ranked := ((old ++ new).foldl (fun l a => rankInsert et a l) []).take k
  let all := ranked ++ List.replicate (k - ranked.length) (topFill et)
  let t1 := t.putL 0 false w f.vd (all.zipIdx.map (fun p => (p.2, p.1.1)))
  (t1.putL 0 false 32 f.vs3 (all.zipIdx.map (fun p => (p.2, p.1.2))), [])

/-- VTOPK and VTOPKM issue: FP32, FP16, BF16 or INT32, IMM13[12:5], RM, SX and ZM zero (R116, R138). -/
def Dev.vtop (d : Dev) (h : Hart) (fn : Nat) (f : VF) (merge : Bool) : Dev :=
  let et := f.et.toNat
  d.vec h 0x36 fn f
    ((et == 2 || et == 9 || et == 10 || et == 11) && f.rm == 0 && !f.sx && !f.zm && decide (f.imm.toNat < 32)) (etWidth et)
    always (topBody f merge)

def execVtopk (h : Hart) (f : VF) (s : State) := onDev s (fun d => d.vtop h 0x018 f false)
def execVtopkm (h : Hart) (f : VF) (s : State) := onDev s (fun d => d.vtop h 0x019 f true)

end Sys2Proof.Machine
end

