-- ==== Sys2Proof/Machine/Drain.lean ====
section
/-! DEFINITION. The drain path: conversion of shadow rows, spills and merges, row statistics, and the start and end of a
drain (R213, R219 to R224, R229, R239, R243, R246 to R257). -/

namespace Sys2Proof.Machine

/-! ### Column LFSRs (R224) -/

/-- The state a seed loads into column n. -/
def seedCol (seed n : Nat) : BitVec 32 :=
  let x := BitVec.ofNat 32 seed ^^^ BitVec.ofNat 32 (n * 0x00010001)
  if x = 0 then 1 else x

/-- The state of column n's LFSR. -/
def Engine.col (e : Engine) (n : Nat) : BitVec 32 := e.lfsr.getD n (seedCol 1 n)

/-- Every column's LFSR loaded from a seed (R224, R231). -/
def Engine.loadSeed (e : Engine) (seed : BitVec 32) : Engine :=
  { e with srseed := seed, lfsr := (List.range 128).foldl (fun t n => t.set n (seedCol seed.toNat n)) .empty }

/-- Every column's LFSR 32 steps on (R224). -/
def Engine.stepCols (e : Engine) : Engine :=
  { e with lfsr := (List.range 128).foldl (fun t n => t.set n (BitVec.ofNat 32 (lfsr32 (e.col n).toNat))) .empty }

/-- The rounding direction of a drain at a column (R222, R223). -/
def drnRnd (rm : BitVec 3) (u : BitVec 32) : Rnd :=
  if rm = 1 then .rtz else if rm = 2 then .rdn else if rm = 3 then .rup else if rm = 4 then .sto u.toNat else .rne

/-! ### Entries (R233, R252) -/

/-- A wide entry of the spill area: its 128 bits, none where it met an uncorrectable error (R257). -/
abbrev Wide := Option Nat

/-- The wide row of a drain's output row (R252). -/
def drnWide (desc : Word) (j : Nat) : Nat := if drnGrp desc = 3 then drnRow0 desc / 2 + j else drnRow0 desc + j

/-- The accumulator row of a drain's output row (R241). -/
def drnAcc (desc : Word) (j : Nat) : Nat := if drnGrp desc = 3 then drnRow0 desc + 2 * j else drnRow0 desc + j

/-- Entry c of the wide row at a scratchpad offset. -/
def Station.wideAt (s : Station) (off c : Nat) : Wide :=
  let a := off + 16 * c
  if setHas s.spPoison (a / 8) || setHas s.spPoison (a / 8 + 1) then none else some (s.sp.readN a 16)

/-- The terms of a shadow entry: value and error, or the integer (R233, R219). -/
def accTerms (grp : Nat) (acc : AccSet) (row c : Nat) : List FV :=
  let w := (acc.get row c).toNat
  if grp = 0 then [fp32.decode (w % 2 ^ 32), fp32.decode (w / 2 ^ 32)]
  else if grp = 3 then [fp64.decode w, fp64.decode (acc.get (row + 1) c).toNat]
  else let i := sval 64 w; [.fin (decide (i < 0)) ⟨i, if grp = 2 then -30 else 0⟩]

/-- The terms of a wide entry; a poisoned one is the marked value (R252, R257). -/
def wideTerms (grp : Nat) (w : Wide) : List FV :=
  if grp = 0 ∨ grp = 3 then
    match w with
    | some x => [fp64.decode (x % 2 ^ 64), fp64.decode (x / 2 ^ 64)]
    | none => [.nan false, .fin false Dy.zero]
  else
    let i : Int := match w with
      | some x => sval 128 x
      | none => -(2 ^ 127)
    [.fin (decide (i < 0)) ⟨i, if grp = 2 then -30 else 0⟩]

/-- The exact sum of a list of terms, with its events (R219). -/
def sumTerms (r : Rnd) : List FV → FV × Ev
  | [] => (.fin false Dy.zero, Ev.none)
  | a :: l => l.foldl (fun p v => let q := p.1.add r v; (q.1, p.2.or q.2)) (a, snanEv a)

/-! ### Conversion (R219, R220, R247) -/

/-- A column's parameter of PTILE: row 0 the scale, 1 the bias, 2 and 3 the clip bounds (R244). -/
def Station.param (s : Station) (desc : Word) (row c : Nat) : FV :=
  let m := s.tile (wfld desc 42 40)
  if wbit desc 46 then fp64.decode (tileElem m (row * 1024) 64 c) else fp32.decode (tileElem m (row * 512) 32 c)

/-- y of an entry, with its invalid events: scale, bias, clip and mask of the exact sum (R219, R247, R248). -/
def Station.drainY (s : Station) (desc : Word) (r : Rnd) (j c : Nat) (terms : List FV) : FV × Ev :=
  let x := sumTerms r terms
  let step (p : FV × Ev) (use : Bool) (f : FV → FV × Ev) : FV × Ev :=
    if use then (let q := f p.1; (q.1, p.2.or q.2)) else p
  let y1 := step x (wbit desc 43) (fun v => v.mul (s.param desc 0 c))
  let y2 := step y1 (wbit desc 44) (fun v => v.add r (s.param desc 1 c))
  let y3 := step y2 (wbit desc 45) (fun v => v.max (s.param desc 2 c))
  let y4 := step y3 (wbit desc 45) (fun v => v.min (s.param desc 3 c))
  if drnCausal desc && decide ((c : Int) > (j : Int) + sval 8 (wfld desc 63 56)) then (.inf true, Ev.none)
  else if y4.1.isNan then (.nan false, y4.2) else y4

/-- An unscaled element of an output format (R220). -/
def outElem (fmt : Nat) (r : Rnd) (ovm : Bool) (v : FV × Ev) : Nat × Ev :=
  match tileFmt? fmt with
  | some F => F.convert r ovm v
  | none =>
    let w := tileWidth fmt
    let x := convertInt r w (if fmt = 13 then 15 else if fmt = 14 then 31 else 0) (fmt == 11) v
    (x.1, x.2.1)

/-- The bits of a list of elements of width w, the first lowest (R149). -/
def packElems (w : Nat) : List Nat → Nat
  | [] => 0
  | x :: r => x % 2 ^ w + 2 ^ w * packElems w r

/-- An output row: its elements, its block scales, and the events of each column. -/
structure OutRow where
  elems : List Nat
  scales : List Nat
  evs : List Ev
  deriving DecidableEq, Repr

/-- The conversion of a row (R213, R220, R247). -/
def convertRow (d : Drn) (e : Engine) (ys : List (FV × Ev)) : OutRow :=
  let fmt := drnFmt d.desc
  let rnd (c : Nat) : Rnd := drnRnd d.rm (e.col c)
  if drnBs d.desc = 0 then
    let rs := (ys.zip (List.range 128)).map (fun p => outElem fmt (rnd p.2) d.ovm p.1)
    ⟨rs.map (·.1), [], rs.map (·.2)⟩
  else
    let b := bsSize (drnBs d.desc)
    let blk (q : Nat) : Nat × List (Nat × Ev) :=
      let l := (ys.drop (q * b)).take b
      let E := blockScale fmt (l.map (·.1))
      (E, (l.zip (upFrom (q * b) b)).map (fun p =>
        let x := blockElem (rnd p.2) fmt E p.1.1
        (x.1, x.2.or p.1.2)))
    let bs := (List.range (128 / b)).map blk
    ⟨bs.flatMap (fun p => p.2.map (·.1)), bs.map (·.1), bs.flatMap (fun p => p.2.map (·.2))⟩

/-- A part of a row of a tile written. -/
def Station.tileSeg (s : Station) (tile row off : Nat) (bs : List Byte) : Station :=
  s.setTile tile ((s.tile tile).writeBytes (row * cfgBytes (s.cfg tile) + off) bs)

/-- The statistics of a row: its maximum and the sum of exp2 of the differences from it (R250, R251). -/
def rowStats (ys : List FV) : Nat × Nat :=
  let fs := ys.map (fun y => (fp32.fromVal .rne false (y, Ev.none)).1)
  let m := fs.tail.foldl (fun a x => (fp32.fromVal .rne false ((fp32.decode a).max (fp32.decode x))).1) (fs.headD 0)
  let mv := fp32.decode m
  let l := if mv = .inf true then 0
    else if mv.isNan || mv.isInf then fp32.nanBits
    else
      let ts : List Term := fs.map (fun x =>
        ((exp2Elem 9 (fp32.fromVal .rne false ((fp32.decode x).add .rne mv.neg)).1).1, Ev.none))
      (segTree (treeAdd fp32 .rne) 0 ts).1
  (m, l)

/-- The events of a drained row, and the lowest column with an invalid one. -/
def rowEvents (evs : List Ev) : Ev × Nat :=
  (evs.foldl Ev.or Ev.none, ((evs.zip (List.range 128)).find? (fun p => p.1.nv)).map (·.2) |>.getD 0)

/-- The events of a drain's row set the flags and captures as conversion events (R225, R229, R249). -/
def Station.drainEvents (s : Station) (tt : Tt) (d : Drn) (row : Nat) (evs : List Ev) : Station :=
  let (ev, c) := rowEvents evs
  s.engEvents tt ev 1 4 noK row c 0xFFFFFFFF d.wseq

/-- The shadow entries of a row, or a pair of rows, cleared (R247). -/
def Engine.clearShadow (e : Engine) (grp row : Nat) : Engine :=
  let a := e.shadow.putRow row (fun _ => 0)
  e.setShadow (if grp = 3 then a.putRow (row + 1) (fun _ => 0) else a)

/-- A row of a convert drain: converted and written with its scales and statistics (R243, R247, R250). -/
def Station.convRow (s : Station) (d : Drn) (wides : List Wide) : Station × List Ev :=
  let desc := d.desc
  let j := d.next
  let row := drnAcc desc j
  let rt := drnRnd (if d.rm = 4 then 0 else d.rm) 0
  let ys := (List.range 128).map (fun c =>
    s.drainY desc rt j c (accTerms (drnGrp desc) s.eng.shadow row c
      ++ (if drnMerge desc then wideTerms (drnGrp desc) (wides.getD c none) else [])))
  let o := convertRow d s.eng ys
  let rb := drnRb (drnFmt desc)
  let bytes := bytesLE rb (packElems (tileWidth (drnFmt desc)) o.elems)
  let s1 := if drnMode desc = 0 then s.tileSeg (wfld desc 34 32) j (drnDseg desc * rb) bytes
    else s.spWrite (areaBase d.daddr + j * areaStride d.daddr) bytes
  let s2 := if drnBs desc = 0 then s1
    else s1.tileSeg (wfld desc 37 35) j (drnDseg desc * o.scales.length) (o.scales.map (BitVec.ofNat 8))
  let s3 := if drnStats desc then
      let (m, l) := rowStats (ys.map (·.1))
      s2.tileSeg (wfld desc 50 48) j (16 * drnDseg desc) (bytesLE 16 (m + l * 2 ^ 32))
    else s2
  let s4 := if d.rm = 4 then { s3 with eng := s3.eng.stepCols } else s3
  (if drnClr desc then { s4 with eng := s4.eng.clearShadow (drnGrp desc) row } else s4, o.evs)

/-- A spilled entry: its 128 bits and events (R253, R257). -/
def spillEntry (grp : Nat) (add ovm : Bool) (terms : List FV) (w : Wide) : Nat × Ev :=
  let all := terms ++ (if add then wideTerms grp w else [])
  if grp = 0 ∨ grp = 3 then
    if add && w.isNone then (fp64.nanBits, Ev.none)
    else
      let r := commitFp fp64 ovm all Pass.empty
      (r.1 + r.2.1 * 2 ^ 64, r.2.2.1)
  else if add && w.isNone then (2 ^ 127, Ev.none)
  else (wrap 128 (all.foldl (fun t v => t + v.dy.m) 0), Ev.none)

/-- A row of a spill (R253). -/
def Station.spillRow (s : Station) (d : Drn) (wides : List Wide) : Station × List Ev :=
  let desc := d.desc
  let g := drnGrp desc
  let row := drnAcc desc d.next
  let rs := (List.range 128).map (fun c =>
    spillEntry g (drnMerge desc) d.ovm (accTerms g s.eng.shadow row c) (wides.getD c none))
  let s1 := s.spWrite (areaBase d.spaddr + drnWide desc d.next * areaStride d.spaddr) (rs.flatMap (fun r => bytesLE 16 r.1))
  (if drnClr desc then { s1 with eng := s1.eng.clearShadow g row } else s1, rs.map (·.2))

/-! ### Start, rows and end (R239, R246, R247) -/

/-- A drain uses the station's scratchpad. -/
def drnScratch (desc : Word) : Bool := drnMode desc != 0 || drnMerge desc

/-- The first drain reads its first entry: earlier swaps have taken place and its own can take place now, and the operations
in flight on its tiles have completed. A scratchpad that is not ON starts to wake (R239, R246, R317). -/
def Station.startDrain (s : Station) : Station :=
  match qFirst QEntry.isDrn s.eng.queue with
  | some (pre, q) => (match q.kind with
    | .mest d =>
      let uses (t : Nat) : Bool := s.tops.any (fun o => o.tile == t) || pre.any (fun x => x.kind.reads.contains t)
      if d.started || pre.any QEntry.unswapped || (!d.swapped && !canSwap pre) || q.kind.writes.any uses
          || s.topWrites q.kind.reads then s
      else if drnScratch d.desc && s.spState ≠ 0 then s.startWake
      else
        let s1 := if d.swapped then s else { s with eng := s.eng.exchange }
        s1.setQ { q with kind := .mest { d with started := true, swapped := true } }
    | _ => s)
  | none => s

def execDrainStart (n : Fin 128) (s : State) := onDev s (fun d => d.onLive n Station.startDrain)

/-- The running drain, if any. -/
def Engine.drain? (e : Engine) : Option (QEntry × Drn) :=
  match e.queue.find? QEntry.isDrn with
  | some q => (match q.kind with
    | .mest d => if d.started then some (q, d) else none
    | _ => none)
  | none => none

/-- MCHK and the recorder entry of each poisoned wide entry a drain has read (R257, R487). -/
def Dev.widePoison (d : Dev) (n : Nat) (t : Fin 4) (off : Nat) : List Wide → Nat → Dev
  | [], _ => d
  | w :: r, c =>
    let d1 := if w.isNone then
        (let a := off + 16 * c
         let pa := scratchPa n (if setHas (d.stn n).spPoison (a / 8) then a else a + 8)
         (d.poisonEvent pa).raiseMchk n t (word pa))
      else d
    Dev.widePoison d1 n t off r (c + 1)

/-- The running drain's next output row passes through the pipeline (R247). -/
def Dev.drainRow (d : Dev) (n : Nat) : Dev :=
  let s := d.stn n
  if !s.live then d else
  match s.eng.drain? with
  | none => d
  | some (q, dr) =>
    if dr.next ≥ drnOut dr.desc then d
    else
      let off := areaBase dr.spaddr + drnWide dr.desc dr.next * areaStride dr.spaddr
      let wides : List Wide := if drnMerge dr.desc then (List.range 128).map (s.wideAt off) else []
      let (s1, evs) := if drnMode dr.desc = 2 then s.spillRow dr wides else s.convRow dr wides
      let s2 := (s1.drainEvents d.tt dr (drnAcc dr.desc dr.next) evs).setQ
        { q with kind := .mest { dr with next := dr.next + 1, ev := dr.ev.or (rowEvents evs).1 } }
      (d.setStn n s2).widePoison n ⟨dr.by_.thr % 4, Nat.mod_lt _ (by decide)⟩ off wides 0

def execDrainRow (n : Fin 128) (s : State) := onDev s (fun d => d.drainRow n)

/-- A drain or spill whose rows are all written retires (R247, R227, R274). -/
def Dev.drainRetire (d : Dev) (n : Nat) : Dev :=
  let s := d.stn n
  if !s.live then d else
  match s.eng.drain? with
  | none => d
  | some (q, dr) =>
    if dr.next < drnOut dr.desc then d
    else
      let val := match q.setp with
        | some (1, _) => dr.ev.nv
        | some (_, _) => dr.ev.of
        | none => false
      (d.updStn n (fun x => x.retireQ q val)).raiseWork n q.inBlk dr.by_ dr.ev

def execDrainRetire (n : Fin 128) (s : State) := onDev s (fun d => d.drainRetire n)

end Sys2Proof.Machine
end

