-- ==== Sys2Proof/Machine/CmdBlocks.lean ====
section
/-! DEFINITION. Command blocks: the read and the start checks, the evaluation of commands by the sequencer, and the end of a
block (R261 to R284). -/

namespace Sys2Proof.Machine

/-! ### Layout (R262 to R265) -/

/-- OPC of a command. -/
def cmdOp (c : Nat) : Nat := fld c 7 0
/-- PRED of a command. -/
def cmdPred (c : Nat) : Nat := fld c 15 8
/-- SETP of a command. -/
def cmdSetp (c : Nat) : Nat := fld c 23 16
/-- TN of a command. -/
def cmdTn (c : Nat) : Nat := fld c 26 24
/-- SLOT of a command. -/
def cmdSlot (c : Nat) : Nat := fld c 30 28
/-- ARG of a command. -/
def cmdArg (c : Nat) : Nat := fld c 63 32
/-- DESC of a command. -/
def cmdDesc (c : Nat) : Word := word (fld c 127 64)

/-- The opcodes that issue work: they allow SETP with COND 0 (R274). -/
def opWork (o : Nat) : Bool := (decide (2 ≤ o) && decide (o ≤ 5)) || (decide (8 ≤ o) && decide (o ≤ 12))

/-- The SETP rule (R274). -/
def setpOk (o v : Nat) : Bool :=
  let cond := fld v 6 4
  fld v 3 3 == 0 &&
  (if bitOf v 7 then
    (cond == 0 && opWork o) || ((cond == 1 || cond == 2) && (o == 11 || o == 12)) || (cond == 3 && o == 11)
  else v == 0)

/-- The fields of a command by opcode: reserved values, unused fields, slots, and the reserved bits of control words and
descriptors (R264, R265, R276). -/
def cmdOk (nslot c : Nat) : Bool :=
  let o := cmdOp c
  let ts := fld c 31 24
  let arg := cmdArg c
  let desc := fld c 127 64
  let tnOnly := fld ts 7 3 == 0
  let slotOk := decide (cmdSlot c < nslot)
  fld (cmdPred c) 5 3 == 0 && setpOk o (cmdSetp c) &&
  (if o = 0x00 ∨ o = 0x1E ∨ o = 0x1F then ts == 0 && arg == 0 && desc == 0
   else if o = 0x01 then ts == 0 && fld arg 31 27 == 0 && fld desc 63 10 == 0
   else if o = 0x02 ∨ o = 0x03 then bitOf ts 3 == false && bitOf ts 7 == false && slotOk && desc == 0
   else if o = 0x04 then tnOnly && desc == 0
   else if o = 0x05 then tnOnly && arg == 0 && desc == 0
   else if o = 0x08 ∨ o = 0x09 then tnOnly && desc == 0 && ctlReserved arg
   else if o = 0x0A then tnOnly && desc == 0 && fld arg 31 9 == 0
   else if o = 0x0B then ts == 0 && arg == 0 && goStatic (word desc)
   else if o = 0x0C then ts == 0 && arg == 0 && drnStatic (word desc)
   else if o = 0x10 then ts == 0 && fld arg 31 16 == 0 && desc == 0
   else if o = 0x11 then ts == 0 && fld arg 31 11 == 0 && fld arg 7 3 == 0 && desc == 0
   else if o = 0x12 then bitOf ts 7 == false && fld ts 3 0 == 0 && slotOk && fld arg 31 3 == 0 && desc == 0
   else false)

/-- BODY of a LOOP. -/
def loopBody (c : Nat) : Nat := fld c 73 64

/-- The loop structure at a command (R268): its body lies in the block, the loops in it lie in it, and at most three loops
enclose it. -/
def loopOk (cmds : List Nat) (i : Nat) : Bool :=
  let at_ (k : Nat) : Nat := cmds.getD k 0
  let isLoop (k : Nat) : Bool := cmdOp (at_ k) == 1
  if !isLoop i then true
  else
    let b := loopBody (at_ i)
    decide (1 ≤ b) && decide (i + b < cmds.length)
      && (upFrom (i + 1) b).all (fun k => !isLoop k || decide (k + loopBody (at_ k) ≤ i + b))
      && decide (((List.range i).filter (fun k => isLoop k && decide (i ≤ k + loopBody (at_ k)))).length ≤ 3)

/-- The lowest command that fails a start check (R276). -/
def firstBad (nslot : Nat) (cmds : List Nat) : Option Nat :=
  (List.range cmds.length).find? (fun i => !(cmdOk nslot (cmds.getD i 0) && loopOk cmds i))

/-! ### Reading memory for the sequencer -/

/-- A read of the sequencer: its bytes, or the cause code and address of its fault, or the physical address of an error. -/
inductive SeqRead where
  | ok (bs : List Byte)
  | fault (code va : Nat)
  | bad (pa : Nat)
  /-- a scratchpad it needs is not ON -/
  | asleep (l : List Nat)
  deriving DecidableEq, Repr

/-- A read of n bytes at a virtual address, of a given alignment, in a ring (R261, R267, R276). -/
def Dev.seqRead (d : Dev) (h : Hart) (ring align va n : Nat) : Dev × SeqRead :=
  if va % align ≠ 0 then (d, .fault 3 va)
  else
    let accs := pieces 0 8 va n
    match Dev.checkAccs h ring .load .bulk accs d [] with
    | (d1, .error (c, a)) => (d1, .fault c a.va)
    | (d1, .ok locs) =>
      if d1.sleeping locs ≠ [] then (d1, .asleep (d1.sleeping locs))
      else
        let (bs, bad) := d1.fillPlaces (locs.zip (accs.map (·.size)))
        (d1, match bad with
          | some pa => .bad pa
          | none => .ok bs)

/-- The hart whose rights a block has (R272). -/
def blkHart (n : Fin 128) (b : Raiser) : Hart := ⟨n, ⟨b.thr % 4, Nat.mod_lt _ (by decide)⟩⟩

/-! ### Start (R276, R284) -/

/-- The first command block of the queue, where the engine has reached it: every earlier entry but drains has retired. -/
def Engine.nextRun (e : Engine) : Option (QEntry × Word × Raiser) :=
  match qFirst QEntry.isRun e.queue with
  | some (pre, q) => (match q.kind with
    | .merun a by_ false => if pre.all QEntry.isDrn then some (q, a, by_) else none
    | _ => none)
  | none => none

/-- A block has started; RESUME is cleared (R284). -/
def Station.blkBegin (s : Station) (q : QEntry) (b : Blk) : Station :=
  let s1 := s.setQ { q with kind := .merun b.addr b.by_ true }
  { s1 with eng := { s1.eng with blk := some b, cbResume := false } }

/-- A block as it is read, before evaluation. -/
def Blk.fresh (addr : Word) (by_ : Raiser) (slots cmds : List Nat) : Blk :=
  { addr := addr, by_ := by_, slots := slots, cmds := cmds, next := 0, loops := [], stop := none, exit := false, ariths := [] }

/-- A block that does not pass its read or its start checks (R280, R281). -/
def Blk.failed (addr : Word) (by_ : Raiser) (status fcode cmd : Nat) (xaddr : Word) : Blk :=
  { Blk.fresh addr by_ [] [] with stop := some ⟨status, fcode, cmd, 0, false, xaddr⟩ }

/-- No command is named (ME_CBSTAT.CMD). -/
def noCmd : Nat := 0x7FF

/-- A list of bytes cut into numbers of w bytes. -/
def chunks (w : Nat) : Nat → List Byte → List Nat
  | 0, _ => []
  | n + 1, l => natLE (l.take w) :: chunks w n (l.drop w)

/-- The address of a command of a block (R261). -/
def Blk.cmdAddr (b : Blk) (i : Nat) : Word := b.addr + word (16 + 32 * b.slots.length + 16 * i)

/-- The loops that enclose a command, innermost first, with their state taken from ME_CBLV (R284). -/
def resumeLoops (cmds : List Nat) (lv : Tab Word) (at_ : Nat) : List BLoop :=
  let cs := (List.range at_).filter (fun k =>
    cmdOp (cmds.getD k 0) == 1 && decide (at_ ≤ k + loopBody (cmds.getD k 0)))
  ((cs.zip (List.range cs.length)).map (fun p =>
    let v := lv.getD p.2 0
    (⟨p.1, loopBody (cmds.getD p.1 0), wfld v 47 24, wfld v 23 0⟩ : BLoop))).reverse

/-- A block whose checks have passed begins evaluation, or resumes where one stopped (R276, R284). -/
def Station.blkGo (s : Station) (q : QEntry) (b : Blk) (pmask pinit : Nat) : Station :=
  let e := s.eng
  if e.cbResume then
    let c := e.cbCmd.toNat
    let ls := resumeLoops b.cmds e.cbLv c
    if !e.cbRsm || decide (b.cmds.length ≤ c) || ls.any (fun l => l.count == 0 || decide (l.count ≤ l.iter)) then
      s.blkBegin q (Blk.failed b.addr b.by_ 2 1 noCmd b.addr)
    else
      let s1 := s.blkBegin q { b with next := c, loops := ls }
      { s1 with eng := { s1.eng with cbStatus := 1 } }
  else
    let s1 := s.blkBegin q b
    let p := ((e.cbPred.toNat &&& (255 - pmask)) ||| (pinit &&& pmask))
    { s1 with eng := { s1.eng with cbPred := BitVec.ofNat 8 p, cbLv := .empty, cbStatus := 1 } }

/-- A failed read of a block: FAULT with its cause code, or an uncorrectable error, whose MCHK is raised when the block ends
(R276, R280, R281). -/
def Dev.blkReadFail (d : Dev) (n : Nat) (q : QEntry) (addr : Word) (by_ : Raiser) (r : SeqRead) : Dev :=
  match r with
  | .fault c va => d.updStn n (fun s => s.blkBegin q (Blk.failed addr by_ 3 c noCmd (word va)))
  | .bad pa => (d.poisonEvent pa).updStn n (fun s => s.blkBegin q (Blk.failed addr by_ 3 0x12 noCmd (word pa)))
  | .asleep l => d.wakeAll l
  | .ok _ => d

/-- The sequencer reads and checks the next command block (R276). -/
def Dev.blkStart (d : Dev) (n : Fin 128) : Dev :=
  let s := d.stn n
  if !s.live then d else
  match s.eng.nextRun with
  | none => d
  | some (q, addr, by_) =>
    let h := blkHart n by_
    match d.seqRead h by_.ring 16 addr.toNat 16 with
    | (d1, .ok hd) =>
      let x := natLE hd
      let ns := fld x 15 8
      let nc := fld x 31 16
      if fld x 7 0 ≠ 1 ∨ ns > 8 ∨ nc = 0 ∨ nc > 1024 ∨ fld x 127 48 ≠ 0 then
        d1.updStn n (fun s => s.blkBegin q (Blk.failed addr by_ 2 1 noCmd addr))
      else
        (match d1.seqRead h by_.ring 16 (addr + 16).toNat (32 * ns + 16 * nc) with
         | (d2, .ok bs) =>
           let slots := chunks 32 ns bs
           let cmds := chunks 16 nc (bs.drop (32 * ns))
           let b := Blk.fresh addr by_ slots cmds
           d2.updStn n (fun s =>
             if slots.any (fun v => fld v 255 192 != 0) then s.blkBegin q (Blk.failed addr by_ 2 1 noCmd addr)
             else match firstBad ns cmds with
               | some i => s.blkBegin q (Blk.failed addr by_ 2 1 i (b.cmdAddr i))
               | none => s.blkGo q b (fld x 39 32) (fld x 47 40))
         | (d2, r) => d2.blkReadFail n q addr by_ r)
    | (d1, r) => d1.blkReadFail n q addr by_ r

def execBlockStart (n : Fin 128) (s : State) := onDev s (fun d => d.blkStart n)

/-! ### Evaluation (R268 to R277) -/

/-- The loops and the next command after the evaluation of a command (R270); the innermost loop stands first. -/
def loopAfter (last : Nat) : List BLoop → List BLoop × Nat
  | [] => ([], last + 1)
  | l :: r =>
    if l.cmd + l.body = last then
      if l.iter + 1 < l.count then ({ l with iter := l.iter + 1 } :: r, l.cmd + 1) else loopAfter last r
    else (l :: r, last + 1)

/-- A block after the evaluation of a command, or of the last command of a body that is skipped. -/
def Blk.after (b : Blk) (last : Nat) : Blk :=
  let (ls, nx) := loopAfter last b.loops
  { b with loops := ls, next := nx }

/-- The running block replaced. -/
def Station.setBlk (s : Station) (b : Blk) : Station := { s with eng := { s.eng with blk := some b } }

/-- The iteration index of the loop at a level, 0 where it is not active (R272). -/
def Blk.idx (b : Blk) (level : Nat) : Nat :=
  match (b.loops.reverse)[level]? with
  | some l => l.iter
  | none => 0

/-- The address slot s gives (R272). -/
def Blk.slotAddr (b : Blk) (s : Nat) : Word :=
  let v := b.slots.getD s 0
  (List.range 4).foldl (fun a L =>
    a + BitVec.ofInt 64 (((b.idx L : Nat) : Int) * sval 32 (fld v (95 + 32 * L) (64 + 32 * L)))) (word (fld v 63 0))

/-- A command of the block stops it (R280, R281). -/
def Blk.halt (b : Blk) (status fcode : Nat) (xaddr : Word) : Blk :=
  { b with stop := some ⟨status, fcode, b.next, b.loops.length, true, xaddr⟩ }

/-- Every command of the block that has issued has retired (R267, R278). -/
def Station.blkQuiet (s : Station) : Bool := !(s.eng.queue.any (·.inBlk) || s.tops.any (·.inBlk))

/-- The command's predicate has a result write on its way (R273). -/
def Engine.predPending (e : Engine) (p : Nat) : Bool :=
  e.queue.any (fun q => q.inBlk && (match q.setp with
    | some (_, x) => x == p
    | none => false))

/-- The predicate write of a command that issues (R274): COND 0 is written now. -/
def Engine.setpNow (e : Engine) (v : Nat) : Engine :=
  if bitOf v 7 && fld v 6 4 == 0 then e.setPred (fld v 2 0) true else e

/-- The predicate write of a command that retires. -/
def setpLater (v : Nat) : Option (Nat × Nat) :=
  if bitOf v 7 && fld v 6 4 != 0 then some (fld v 6 4, fld v 2 0) else none

/-- What evaluating a command does: it waits, it issues (the device after it), or it stops the block. -/
inductive CmdRes where
  | wait (d : Dev)
  | issued (d : Dev)
  | stop (d : Dev) (status fcode : Nat) (xaddr : Word)
  deriving DecidableEq, Repr

/-- The running block's next command is evaluated if its opcode is op: it is skipped where its predicate says so, else it
issues, waits or stops the block (R273, R277, R280). -/
def Dev.cmd (d : Dev) (n : Fin 128) (op : Nat) (act : Dev → Blk → Nat → CmdRes) : Dev :=
  let s := d.stn n
  match s.eng.blk with
  | none => d
  | some b =>
    let c := b.cmds.getD b.next 0
    if !s.live || b.stop.isSome || b.exit || decide (b.cmds.length ≤ b.next) || cmdOp c != op then d
    else
      let p := cmdPred c
      if bitOf p 7 && s.eng.predPending (fld p 2 0) then d
      else if bitOf p 7 && s.eng.pred (fld p 2 0) != bitOf p 6 then
        d.updStn n (fun s => s.setBlk (b.after (if op = 1 then b.next + loopBody c else b.next)))
      else match act d b c with
        | .wait d1 => d1
        | .stop d1 st fc xa => d1.updStn n (fun s => s.setBlk (b.halt st fc xa))
        | .issued d1 => d1.updStn n (fun s =>
            let s1 := { s with eng := s.eng.setpNow (cmdSetp c) }
            s1.setBlk (match s1.eng.blk with
              | some b1 => if op = 1 then b1 else b1.after b.next
              | none => b.after b.next))

/-- CB_NOP. -/
def execCbNop (n : Fin 128) (s : State) := onDev s (fun d => d.cmd n 0x00 (fun d1 _ _ => .issued d1))

/-- CB_LOOP latches its count and enters its body, or continues after it where the count is 0 (R269). -/
def Dev.cmdLoop (d : Dev) (n : Fin 128) (b : Blk) (c : Nat) : CmdRes :=
  let arg := cmdArg c
  let cnt := if bitOf arg 24 then ((d.stn n).eng.cbCnt.getD (fld arg 26 25) 0).toNat else fld arg 23 0
  let body := loopBody c
  .issued (d.updStn n (fun s => s.setBlk
    (if cnt = 0 then b.after (b.next + body)
     else { b with loops := ⟨b.next, body, cnt, 0⟩ :: b.loops, next := b.next + 1 })))

def execCbLoop (n : Fin 128) (s : State) := onDev s (fun d => d.cmd n 0x01 (fun d1 b c => d1.cmdLoop n b c))

/-- The accesses of the rows of a tile at an address and a stride. -/
def tileAccs (cfg : Nat) (base stride : Word) : List Acc :=
  (List.range (cfgRows cfg)).flatMap (fun r => pieces r 2 (base + word r * stride).toNat (cfgBytes cfg))

/-- CB_FILL and CB_DUMP: alignment, the tile's shape, the scoreboard, then the accesses in the block's ring (R155, R156,
R265, R266, R272). -/
def Dev.cmdMem (d : Dev) (n : Fin 128) (b : Blk) (c : Nat) (fill : Bool) : CmdRes :=
  let s := d.stn n
  let tn := cmdTn c
  let cfg := s.cfg tn
  let base := b.slotAddr (cmdSlot c)
  let stride : Word := BitVec.ofInt 64 (sval 32 (cmdArg c))
  let row (r : Nat) : Word := base + word r * stride
  if base.toNat % 16 ≠ 0 ∨ stride.toNat % 16 ≠ 0 then
    .stop d 3 3 (match (List.range (cfgRows cfg)).find? (fun r => (row r).toNat % 16 != 0) with
      | some r => row r
      | none => base)
  else if !anyShape.matches cfg then .stop d 4 0x0D (b.cmdAddr b.next)
  else if s.tileWait tn fill then .wait d
  else
    let h := blkHart n b.by_
    let accs := tileAccs cfg base stride
    match Dev.checkAccs h b.by_.ring (if fill then .load else .store) .bulk accs d [] with
    | (d1, .error (code, a)) => .stop d1 3 code (word a.va)
    | (d1, .ok locs) =>
      if d1.sleeping locs ≠ [] then .wait (d1.wakeAll (d1.sleeping locs))
      else if fill then
        let (bs, bad) := d1.fillPlaces (locs.zip (accs.map (·.size)))
        .issued ((d1.updStn n (fun x =>
          (x.setTile tn ((x.tile tn).writeBytes 0 bs)).addTop tn true none true)).fillPoison n h.thr bad)
      else
        let m := s.tile tn
        let step := fun (p : Nat × List (List Byte)) (a : Acc) => (p.1 + a.size, p.2 ++ [m.readBytes p.1 a.size])
        .issued ((Dev.storeAll h (locs.zip (accs.foldl step (0, [])).2) d1).updStn n
          (fun x => x.addTop tn false none true))

def execCbFill (n : Fin 128) (s : State) := onDev s (fun d => d.cmd n 0x02 (fun d1 b c => d1.cmdMem n b c true))
def execCbDump (n : Fin 128) (s : State) := onDev s (fun d => d.cmd n 0x03 (fun d1 b c => d1.cmdMem n b c false))

/-- CB_SHAPE (R151, R153, R265). -/
def Dev.cmdShape (d : Dev) (n : Fin 128) (b : Blk) (c : Nat) : CmdRes :=
  let s := d.stn n
  let v := cmdArg c
  let tn := cmdTn c
  if !cfgOk v then .stop d 4 0x0E (b.cmdAddr b.next)
  else if v = s.cfg tn then .issued d
  else if s.tileUsed tn then .wait d
  else .issued (d.updStn n (fun x => x.writeCfg tn v))

def execCbShape (n : Fin 128) (s : State) := onDev s (fun d => d.cmd n 0x04 (fun d1 b c => d1.cmdShape n b c))

/-- CB_BLANK (R159, R265). -/
def Dev.cmdBlank (d : Dev) (n : Fin 128) (b : Blk) (c : Nat) : CmdRes :=
  let s := d.stn n
  let tn := cmdTn c
  if !anyShape.matches (s.cfg tn) then .stop d 4 0x0D (b.cmdAddr b.next)
  else if s.tileWait tn true then .wait d
  else .issued (d.updStn n (fun x => (x.blank tn).addTop tn true none true))

def execCbBlank (n : Fin 128) (s : State) := onDev s (fun d => d.cmd n 0x05 (fun d1 b c => d1.cmdBlank n b c))

/-- A command that the engine's ports take (R265, R266): its issue checks are those of its instruction. -/
def Dev.cmdEng (d : Dev) (n : Fin 128) (b : Blk) (c : Nat) (body : Station → Src → EIssue) : CmdRes :=
  let src : Src := { by_ := b.by_, inBlk := true, prec := none, setp := setpLater (cmdSetp c), ceil := d.capL }
  match body (d.stn n) src with
  | .fault .ill => .stop d 2 1 (b.cmdAddr b.next)
  | .fault (.shape _) => .stop d 4 0x0D (b.cmdAddr b.next)
  | .wait => .wait d
  | .ok s1 _ => .issued (d.setStn n s1)

def execCbMb (n : Fin 128) (s : State) :=
  onDev s (fun d => d.cmd n 0x08 (fun d1 b c => d1.cmdEng n b c (fun s r => s.meb r (cmdTn c) (cmdArg c))))
def execCbMa (n : Fin 128) (s : State) :=
  onDev s (fun d => d.cmd n 0x09 (fun d1 b c => d1.cmdEng n b c (fun s r => s.mea r (cmdTn c) (cmdArg c))))
def execCbMacc (n : Fin 128) (s : State) :=
  onDev s (fun d => d.cmd n 0x0A (fun d1 b c => d1.cmdEng n b c (fun s r => s.meacc r (cmdTn c) (cmdArg c))))
def execCbGo (n : Fin 128) (s : State) :=
  onDev s (fun d => d.cmd n 0x0B (fun d1 b c => d1.cmdEng n b c (fun s r => s.mego r (cmdDesc c))))
def execCbSt (n : Fin 128) (s : State) :=
  onDev s (fun d => d.cmd n 0x0C (fun d1 b c => d1.cmdEng n b c (fun s r => s.mest r (cmdDesc c))))

/-- PSET (R265, R275). -/
def execPset (n : Fin 128) (s : State) :=
  onDev s (fun d => d.cmd n 0x10 (fun d1 _ c => .issued (d1.updStn n (fun x =>
    let p := x.eng.cbPred.toNat
    { x with eng := { x.eng with
        cbPred := BitVec.ofNat 8 ((p &&& (255 - fld (cmdArg c) 15 8)) ||| fld (cmdArg c) 7 0) } }))))

/-- PLOOP: whether the loop at a level is active and on its first or last iteration (R265). -/
def Blk.ploop (b : Blk) (arg : Nat) : Bool :=
  match (b.loops.reverse)[fld arg 1 0]? with
  | some l => if bitOf arg 2 then l.iter + 1 == l.count else l.iter == 0
  | none => false

def execPloop (n : Fin 128) (s : State) :=
  onDev s (fun d => d.cmd n 0x11 (fun d1 b c => .issued (d1.updStn n (fun x =>
    { x with eng := x.eng.setPred (fld (cmdArg c) 10 8) (b.ploop (cmdArg c)) }))))

/-- PTEST waits for every earlier command, then reads its word; an error leaves its target as it is (R267). -/
def Dev.cmdPtest (d : Dev) (n : Fin 128) (b : Blk) (c : Nat) : CmdRes :=
  if !(d.stn n).blkQuiet then .wait d
  else
    let h := blkHart n b.by_
    match d.seqRead h b.by_.ring 8 (b.slotAddr (cmdSlot c)).toNat 8 with
    | (d1, .ok bs) =>
      .issued (d1.updStn n (fun x => { x with eng := x.eng.setPred (fld (cmdArg c) 2 0) (natLE bs != 0) }))
    | (d1, .fault code va) => .stop d1 3 code (word va)
    | (d1, .bad pa) => .issued ((d1.poisonEvent pa).raiseMchk n h.thr (word pa))
    | (d1, .asleep l) => .wait (d1.wakeAll l)

def execPtest (n : Fin 128) (s : State) := onDev s (fun d => d.cmd n 0x12 (fun d1 b c => d1.cmdPtest n b c))

/-- SYNC (R267). -/
def execCbSync (n : Fin 128) (s : State) :=
  onDev s (fun d => d.cmd n 0x1E (fun d1 _ _ => if (d1.stn n).blkQuiet then .issued d1 else .wait d1))

/-- EXIT ends the block with DONE (R270, R278). -/
def execExit (n : Fin 128) (s : State) :=
  onDev s (fun d => d.cmd n 0x1F (fun d1 b _ => .issued (d1.updStn n (fun x => x.setBlk { b with exit := true }))))

/-! ### Stop and end (R278 to R283) -/

/-- ME_CBCTL.STOP: a running block evaluates no further command; a failure already met stands (R282). -/
def Station.stopBlk (s : Station) : Station :=
  match s.eng.blk with
  | some b =>
    if b.stop.isSome || b.exit || decide (b.cmds.length ≤ b.next) then s else s.setBlk (b.halt 5 0 0)
  | none => s

/-- The loop state registers as a stopped block leaves them: count and index by level, 0 where no loop is active (R280). -/
def Blk.levels (b : Blk) : Tab Word :=
  let ls := b.loops.reverse
  (ls.zip (List.range ls.length)).foldl (fun t p => t.set p.2 (word (p.1.count * 2 ^ 24 + p.1.iter))) .empty

/-- ME_CBSTAT at the end of a block (R278 to R280). -/
def Engine.blkStat (e : Engine) (b : Blk) : Engine :=
  match b.stop with
  | some x =>
    { e with cbStatus := BitVec.ofNat 8 x.status, cbFcode := BitVec.ofNat 6 x.fcode, cbRsm := x.rsm,
             cbDepth := BitVec.ofNat 3 x.depth, cbCmd := BitVec.ofNat 11 x.cmd,
             cbLv := if x.rsm then b.levels else e.cbLv }
  | none => { e with cbStatus := 0, cbFcode := 0, cbRsm := false, cbDepth := 0, cbCmd := 0x7FF, cbLv := .empty }

/-- The exceptions a block's end raises: its deferred ARITHs in order, then ME_CMD, or MCHK for a read error (R266, R281). -/
def Dev.blkRaise (d : Dev) (n : Nat) (t : Fin 4) (b : Blk) : Dev :=
  let d1 := b.ariths.foldl (fun x en => x.raiseArith n t en b.by_.pc b.by_.ring b.by_.precise none) d
  match b.stop with
  | some x =>
    if x.status = 5 then d1
    else if x.fcode = 0x12 then d1.raiseMchk n t x.xaddr
    else d1.raiseMeCmd n t x.xaddr b.by_.ring
  | none => d1

/-- A block whose evaluation has ended and whose commands have retired ends: ME_CBSTAT is written, the MERUN retires,
IPEND.ENGINE is set and its exceptions are raised (R278). -/
def Dev.blkEnd (d : Dev) (n : Fin 128) : Dev :=
  let s := d.stn n
  match s.eng.blk with
  | none => d
  | some b =>
    if !s.live || !(b.stop.isSome || b.exit || decide (b.cmds.length ≤ b.next)) || !s.blkQuiet then d
    else
      let t : Fin 4 := ⟨b.by_.thr % 4, Nat.mod_lt _ (by decide)⟩
      let d1 := d.updStn n (fun x =>
        let x1 := { x with eng := { x.eng.blkStat b with blk := none } }
        match x1.eng.queue.find? QEntry.running with
        | some q => x1.retireQ q false
        | none => x1)
      (d1.blkRaise n t b).setIpend n t 1

def execBlockEnd (n : Fin 128) (s : State) := onDev s (fun d => d.blkEnd n)

end Sys2Proof.Machine
end

