-- ==== Sys2Proof/Machine/VecMem.lean ====
section
/-! DEFINITION. SETVL and the vector memory forms (R114, R115, R117, R130 to R134, R142, R143). -/

namespace Sys2Proof.Machine

/-- VL and SEW after SETVL or a write of VCFG (R114). -/
def Thread.setVl (n : Nat) (sew : BitVec 2) (t : Thread) : Thread :=
  { t with vl := BitVec.ofNat 16 (min n (vlen / (8 * 2 ^ sew.toNat))), sew := sew }

/-- SETVL: the vd field is rd, the vs1 field rs1, SEW stands in IMM13[1:0] (R142). -/
def execSetvl (h : Hart) (f : VF) (s : State) :=
  onDev s (fun d => d.issue h 8 (fun d1 =>
    if f.vs3 ≠ 0 ∨ f.km ≠ 0 ∨ f.zm ∨ f.et ≠ 0 ∨ f.rm ≠ 0 ∨ f.sx ∨ f.imm.toNat ≥ 4 ∨ f.vs2 ≠ 0 then d1.illegal h (encV 0x30 0x000 f)
    else d1.finish h 8 1 (fun t =>
      let t1 := t.setVl (t.gr f.vs1).toNat (BitVec.ofNat 2 f.imm.toNat)
      t1.setG f.vd (t1.vl.zeroExtend 64))))

/-- Whether the fields of a vector memory form are legal (R58, R120, R121, R130). -/
def vmOk (form : VmForm) (store : Bool) (f : VmF) : Bool :=
  f.vs3 == 0 && !(store && f.zm) && (match form with
    | .unit => etWidth f.et.toNat != 0 && f.rs2 == 0 && f.iw == 0 && !f.ix
    | .strided => etWidth f.et.toNat != 0 && f.iw == 0 && !f.ix
    | .indexed => etWidth f.et.toNat != 0 && f.iw != 0 && f.imm == 0
    | .wholeV => f.km == 0 && !f.zm && f.et == 0 && f.iw == 0 && !f.ix && f.rs2 == 0
    | .wholeK => f.km == 0 && !f.zm && f.et == 0 && f.iw == 0 && !f.ix && f.rs2 == 0 && decide (f.vd.val < 16)
        && (store || f.vd != 0))

/-- The widest operand of a form: its elements, or its indexes (R116). -/
def vmWidth (form : VmForm) (f : VmF) : Nat :=
  match form with
  | .indexed => max (etWidth f.et.toNat) (8 * 2 ^ f.iw.toNat)
  | .wholeV => 0
  | .wholeK => 0
  | _ => etWidth f.et.toNat

/-- A form that VL = 0 leaves without effect (R115). -/
def vmUsesVl : VmForm → Bool
  | .wholeV => false
  | .wholeK => false
  | _ => true

/-- The FN of a form (R143). -/
def vmFn : VmForm → Nat
  | .unit => 0
  | .strided => 1
  | .indexed => 2
  | .wholeV => 3
  | .wholeK => 4

/-- A vector memory instruction. -/
def Dev.vmem (d : Dev) (h : Hart) (form : VmForm) (store : Bool) (f : VmF) (hit : Bool) : Dev :=
  d.issue h 8 (fun d1 =>
    let t := d1.thr h
    if !vmOk form store f || decide (t.vlN * vmWidth form f > vlen) then
      d1.illegal h (encVM (if store then 0x32 else 0x31) (vmFn form) f)
    else if vmUsesVl form && t.vlN == 0 then d1.finish h 8 1 id
    else if (d1.stn h.stn).vq.length ≥ vqSize then d1
    else d1.memRun h (.vm form store f) false hit)

def execVld (h : Hart) (f : VmF) (hit : Bool) (s : State) := onDev s (fun d => d.vmem h .unit false f hit)
def execVlds (h : Hart) (f : VmF) (hit : Bool) (s : State) := onDev s (fun d => d.vmem h .strided false f hit)
def execVldx (h : Hart) (f : VmF) (hit : Bool) (s : State) := onDev s (fun d => d.vmem h .indexed false f hit)
def execVlr (h : Hart) (f : VmF) (hit : Bool) (s : State) := onDev s (fun d => d.vmem h .wholeV false f hit)
def execKlr (h : Hart) (f : VmF) (hit : Bool) (s : State) := onDev s (fun d => d.vmem h .wholeK false f hit)
def execVst (h : Hart) (f : VmF) (hit : Bool) (s : State) := onDev s (fun d => d.vmem h .unit true f hit)
def execVsts (h : Hart) (f : VmF) (hit : Bool) (s : State) := onDev s (fun d => d.vmem h .strided true f hit)
def execVstx (h : Hart) (f : VmF) (hit : Bool) (s : State) := onDev s (fun d => d.vmem h .indexed true f hit)
def execVsr (h : Hart) (f : VmF) (hit : Bool) (s : State) := onDev s (fun d => d.vmem h .wholeV true f hit)
def execKsr (h : Hart) (f : VmF) (hit : Bool) (s : State) := onDev s (fun d => d.vmem h .wholeK true f hit)

end Sys2Proof.Machine
end

