-- ==== Sys2Proof/Machine/CtrlRegs.lean ====
section
/-! DEFINITION. The control registers a core reads with MFC and writes with MTC: assignment, access, value and the effect of
a write (R50, R80, R86 to R94, R102, R104, R112, R113, R126 to R129, R161, R164, R166, R201, R226, R231, R260, R285 to
R287). -/

namespace Sys2Proof.Machine

/-- The low n bits of a value. -/
def lowBits (n : Nat) (v : Word) : Word := word (v.toNat % 2 ^ n)

/-- The threads of a station with a property, as a mask. -/
def Station.thrMask (_s : Station) (p : Fin 4 → Bool) : Nat :=
  b2n (p 0) + 2 * b2n (p 1) + 4 * b2n (p 2) + 8 * b2n (p 3)

/-- TC_OWN (R163). -/
def Station.tcOwn (s : Station) : Word :=
  word (s.thrMask s.inTacq * 2 ^ 8 + b2n s.ownPend * 16 + (match s.owner with
    | some t => 8 + t.val
    | none => 0))

/-- A stationary load is in progress. -/
def Engine.loading (e : Engine) : Bool :=
  e.queue.any (fun q => match q.kind with
    | .meb _ _ _ st => st
    | _ => false)

/-- ME_STAT (R201). -/
def Engine.stat (e : Engine) : Word :=
  word (e.lastTag.toNat * 2 ^ 40 + e.count * 2 ^ 32 + e.level * 2 ^ 8 + b2n e.retreq * 128 + e.sbuf * 16 + e.aset * 8
    + b2n e.blk.isSome * 4 + b2n e.loading * 2 + b2n (!e.queue.isEmpty))

/-- ME_CHK (R201). -/
def Engine.chk (e : Engine) : Word :=
  word (e.skipped.toNat * 2 ^ 32 + e.fails.toNat * 2 ^ 16 + e.retries.toNat)

/-- ME_CBSTAT (R285). -/
def Engine.cbStat (e : Engine) : Word :=
  word (e.cbStatus.toNat * 2 ^ 56 + e.cbFcode.toNat * 2 ^ 48 + b2n e.cbRsm * 2 ^ 47 + e.cbDepth.toNat * 2 ^ 32 + e.cbCmd.toNat)

/-- FEAT_STNj (R287). -/
def Dev.featStn (d : Dev) (j : Nat) : Word :=
  if j < 2 then word ((d.made &&& ~~~d.retStn).toNat >>> (64 * j)) else 0

/-- The per-ring registers of ring r (R86). -/
def Thread.ringReg (s : Station) (t : Thread) (r i : Nat) : Option Word :=
  if i = 0 then some (t.xpc.getD r 0) else if i = 1 then some (t.xst.getD r 0) else if i = 2 then some (t.xcause.getD r 0)
  else if i = 3 then some (t.xaddr.getD r 0) else if i = 4 then some (t.xsp.getD r 0) else if i = 5 then some (t.gateSp.getD r 0)
  else if i = 6 then some (s.xvec.getD r 0) else if i = 7 then some (s.gatePc.getD r 0) else none

/-- The value of a control register of the core, the rings and the vector unit, where the number is assigned (R50, R86,
R113, R126 to R132). -/
def Dev.crCore (d : Dev) (h : Hart) (n : Nat) : Option Word :=
  let s := d.stn h.stn
  let t := d.thr h
  if n = 0x001 then some (word (h.stn.val * 4 + h.thr.val)) else if n = 0x002 then some (word s.cycle)
  else if n = 0x003 then some t.instret
  else if n = 0x008 ∨ n = 0x009 then some ((t.lc.getD (n - 8) 0).zeroExtend 64)
  else if n = 0x00A ∨ n = 0x00B then some ((t.lrem.getD (n - 0xA) 0).zeroExtend 64)
  else if n = 0x00C then some (t.lhead.getD 0 0) else if n = 0x00D then some (t.ltail.getD 0 0)
  else if n = 0x00E then some (t.lhead.getD 1 0) else if n = 0x00F then some (t.ltail.getD 1 0)
  else if n = 0x010 then some (t.lflags.zeroExtend 64)
  else if n = 0x011 then some (word (b2n t.fxOv * 16 + b2n t.fxSat * 8 + t.qrm.toNat))
  else if n = 0x012 then some (t.qlfsr.zeroExtend 64)
  else if n = 0x020 then some (word (s.thrMask (fun k => (s.thr k).enabled)))
  else if 0x100 ≤ n ∧ n < 0x140 then t.ringReg s ((n - 0x100) / 16) (n % 16)
  else if n = 0x140 then some (t.status.zeroExtend 64) else if n = 0x141 then some s.xdel0 else if n = 0x142 then some s.xdel1
  else if n = 0x143 then some (s.nointMax.zeroExtend 64) else if n = 0x144 then some (word (s.nointCnt t))
  else if n = 0x145 then some (t.ipend.zeroExtend 64) else if n = 0x146 then some (t.imask.zeroExtend 64)
  else if n = 0x147 then some 0
  else if 0x160 ≤ n ∧ n < 0x180 then some (s.gtab.getD (n - 0x160) 0)
  else if n = 0x200 then some (word (t.sew.toNat * 2 ^ 16 + t.vl.toNat))
  else if n = 0x201 then some (word (t.frm.toNat * 2 ^ 8 + t.vflags.toNat))
  else if n = 0x202 then some (t.vfault.zeroExtend 64) else if n = 0x203 then some (t.vslfsr.zeroExtend 64)
  else if n = 0x204 then some (word (b2n s.pgEn * 2 ^ 16 + s.pgIdle.toNat)) else if n = 0x205 then some (s.pgOn.zeroExtend 64)
  else none

/-- The value of a control register of the tiles, the engine and its sequencer, and of the feature registers (R149, R163,
R164, R166, R201, R231, R260, R285 to R287). -/
def Dev.crTile (d : Dev) (h : Hart) (n : Nat) : Option Word :=
  let s := d.stn h.stn
  let t := d.thr h
  let e := s.eng
  if 0x300 ≤ n ∧ n < 0x308 then some ((s.tcfg.getD (n - 0x300) 0).zeroExtend 64) else if n = 0x308 then some s.tcOwn
  else if n = 0x309 then some t.tcFault
  else if n = 0x30A then some (word (s.reuseStat.toNat * 2 ^ 32 + s.reuseRow.toNat))
  else if n = 0x320 then some e.stat else if n = 0x321 then some e.chk else if n = 0x322 then some e.wseq
  else if n = 0x323 then some (e.kstep.zeroExtend 64) else if n = 0x328 then some (e.flags.zeroExtend 64)
  else if n = 0x329 then some (word (b2n e.ovm * 16 + e.rm.toNat)) else if n = 0x32A then some (e.srseed.zeroExtend 64)
  else if n = 0x32B then some e.firstNv else if n = 0x32C then some (e.firstNvK.zeroExtend 64)
  else if n = 0x32D then some e.firstNvSeq else if n = 0x32E then some e.phNv else if n = 0x32F then some (e.phNvK.zeroExtend 64)
  else if n = 0x330 then some e.spctl else if n = 0x331 then some e.spaddr else if n = 0x332 then some e.daddr
  else if n = 0x340 then some e.cbStat else if n = 0x341 then some (boolWord e.cbResume)
  else if n = 0x342 then some (e.cbPred.zeroExtend 64)
  else if 0x343 ≤ n ∧ n < 0x347 then some ((e.cbCnt.getD (n - 0x343) 0).zeroExtend 64)
  else if 0x348 ≤ n ∧ n < 0x34C then
    some (if e.blk.isSome then word (Config.freeValue d.free) else e.cbLv.getD (n - 0x348) 0)
  else if 0x350 ≤ n ∧ n < 0x358 then some (d.featStn (n - 0x350))
  else if n = 0x358 then some 0x08000840 else if n = 0x359 then some 0x0000040000404008
  else if n = 0x35A then some 0x2FFE010000800080 else if n = 0x35B then some 0x04000884
  else if n = 0x35C then some 0x0000004000402000 else none

/-- The value of a control register, none where its number is not assigned. -/
def Dev.cr (d : Dev) (h : Hart) (n : Nat) : Option Word := (d.crCore h n).or (d.crTile h n)

/-- A read of loop state while a block runs takes a free value (R285). -/
def Dev.crDraws (d : Dev) (h : Hart) (n : Nat) : Bool := decide (0x348 ≤ n ∧ n < 0x34C) && (d.stn h.stn).eng.blk.isSome

/-- Whether a control register is read only (R50, R86, R113, R149, R201, R231, R285, R286). -/
def crReadOnly (n : Nat) : Bool :=
  n == 1 || n == 2 || n == 3 || n == 0x20 || n == 0x144 || n == 0x202 || n == 0x205 || decide (0x300 ≤ n ∧ n < 0x308)
    || n == 0x309 || n == 0x30A || n == 0x320 || n == 0x321 || decide (0x32B ≤ n ∧ n < 0x330) || n == 0x340
    || decide (0x350 ≤ n ∧ n < 0x35D)

/-- Whether a ring may not read (or write) a control register (R87, R126, R163, R201). -/
def crPriv (ring n : Nat) (write : Bool) : Bool :=
  if 0x100 ≤ n ∧ n < 0x140 then decide ((n - 0x100) / 16 < ring)
  else write && ((n == 0x141 || n == 0x142 || n == 0x143 || decide (0x160 ≤ n ∧ n < 0x180) || n == 0x204) && ring != 0
    || (n == 0x308 && decide (2 ≤ ring)) || ((n == 0x322 || n == 0x323) && ring == 3))

/-- Whether a write needs ownership of the engine (R231, R260, R285). -/
def crOwned (n : Nat) : Bool :=
  n == 0x329 || n == 0x32A || decide (0x330 ≤ n ∧ n < 0x333) || decide (0x341 ≤ n ∧ n < 0x34C)

/-! ### Writes -/

/-- ME_SPCTL after a write: GRP, INIT, EN, SNRM1, SROW0, and INTERVAL where it is 1 to 65,536 (R260). -/
def spctlWrite (old v : Word) : Word :=
  let iv := wfld v 16 0
  let keep := wfld old 63 47 * 2 ^ 47 + (if 1 ≤ iv ∧ iv ≤ 65536 then iv else wfld old 16 0)
  word (keep + wfld v 44 41 * 2 ^ 41 + wfld v 39 24 * 2 ^ 24)

/-- ME_SPADDR or ME_DADDR after a write: RSTRIDE and BASE (R260). -/
def areaWrite (v : Word) : Word := word (wfld v 47 32 * 2 ^ 32 + wfld v 22 6 * 2 ^ 6)

/-- ME_SPCTL and ME_SPADDR values with which automatic spills may be enabled (R260). -/
def spillRegsOk (ctl addr : Word) : Bool :=
  let r0 := wfld ctl 31 24
  let nr := wfld ctl 39 32 + 1
  let g := wfld ctl 44 43
  !wbit ctl 41 || (decide (r0 + nr ≤ 256) && !(g == 3 && (r0 % 2 == 1 || nr % 2 == 1)) && spillFits addr g r0 nr)

/-- A write that takes ILLEGAL by its value (R260). -/
def Engine.crIllegal (e : Engine) (n : Nat) (v : Word) : Bool :=
  (n == 0x330 && !spillRegsOk (spctlWrite e.spctl v) e.spaddr) || (n == 0x331 && !spillRegsOk e.spctl (areaWrite v))

/-- STATUS after an MTC in its ring (R89): OVRSTAY is cleared by writing 1. -/
def Thread.statusMtc (t : Thread) (v : Word) : BitVec 16 :=
  let o := t.status.toNat
  let a := setFld o 10 6 (wfld v 10 6)
  let b := setBit a 4 (wbit v 4)
  let c := if wbit v 11 then setBit b 11 false else b
  BitVec.ofNat 16 (if t.ring = 3 then c else setBit c 2 (wbit v 2))

/-- XREL: the shadow sets of the named rings that are not more privileged are released (R90). -/
def Thread.release (t : Thread) (v : Word) : Thread :=
  { t with status := BitVec.ofNat 16 ((List.range 4).foldl (fun x r =>
      if wbit v r && decide (t.ring ≤ r) then setBit x (12 + r) false else x) t.status.toNat) }

/-- The fields of a per-ring register's value (R86, R88, R91). -/
def ringMask (i : Nat) (v : Word) : Word :=
  if i = 0 then v &&& ~~~3#64
  else if i = 1 then lowBits 19 v
  else if i = 2 then v &&& 0xE00000000000FF3F#64
  else if i = 6 then v &&& ~~~0xFFF#64
  else if i = 7 then v &&& ~~~0x3FFF#64
  else v

/-- A write of a per-ring register. -/
def Station.ringWrite (s : Station) (thr : Fin 4) (r i : Nat) (v : Word) : Station :=
  let x := ringMask i v
  if i = 6 then { s with xvec := s.xvec.set r x }
  else if i = 7 then { s with gatePc := s.gatePc.set r x }
  else s.updThr thr (fun t =>
    if i = 0 then { t with xpc := t.xpc.set r x } else if i = 1 then { t with xst := t.xst.set r x }
    else if i = 2 then { t with xcause := t.xcause.set r x } else if i = 3 then { t with xaddr := t.xaddr.set r x }
    else if i = 4 then { t with xsp := t.xsp.set r x } else { t with gateSp := t.gateSp.set r x })

/-- A nonzero LFSR state: a write of zero loads 1. -/
def lfsrLoad (v : Word) : BitVec 32 := if v.truncate 32 = (0 : BitVec 32) then 1 else v.truncate 32

/-- A write of a register of the thread's core, loops and vector unit (R50, R77, R80, R104, R114, R128, R129). -/
def Thread.crWrite (n : Nat) (v : Word) (cycle : Nat) (t : Thread) : Thread :=
  if n = 0x008 ∨ n = 0x009 then { t with lc := t.lc.set (n - 8) (v.truncate 24) }
  else if n = 0x00A ∨ n = 0x00B then { t with lrem := t.lrem.set (n - 0xA) (v.truncate 24) }
  else if n = 0x00C then { t with lhead := t.lhead.set 0 v } else if n = 0x00D then { t with ltail := t.ltail.set 0 v }
  else if n = 0x00E then { t with lhead := t.lhead.set 1 v } else if n = 0x00F then { t with ltail := t.ltail.set 1 v }
  else if n = 0x010 then { t with lflags := v.truncate 3 }
  else if n = 0x011 then { t with qrm := v.truncate 2, fxSat := t.fxSat && !wbit v 3, fxOv := t.fxOv && !wbit v 4 }
  else if n = 0x012 then { t with qlfsr := lfsrLoad v }
  else if n = 0x140 then t.setStatus cycle (t.statusMtc v)
  else if n = 0x145 then { t with ipend := t.ipend &&& ~~~(v.truncate 4) }
  else if n = 0x146 then { t with imask := v.truncate 4 }
  else if n = 0x147 then t.release v
  else if n = 0x200 then t.setVl (wfld v 15 0) (BitVec.ofNat 2 (wfld v 17 16))
  else if n = 0x201 then
    { t with frm := if wfld v 10 8 < 4 then BitVec.ofNat 3 (wfld v 10 8) else t.frm, vflags := t.vflags &&& ~~~(v.truncate 6) }
  else if n = 0x203 then { t with vslfsr := lfsrLoad v }
  else t

/-- A write of a register of the engine or its sequencer (R201, R226, R231, R260, R285). -/
def Engine.crWrite (n : Nat) (v : Word) (e : Engine) : Engine :=
  if n = 0x322 then { e with wseq := v } else if n = 0x323 then { e with kstep := v.truncate 32 }
  else if n = 0x328 then
    { e with flags := e.flags &&& ~~~(v.truncate 5),
             firstNv := if wbit v 0 then word (setBit e.firstNv.toNat 63 false) else e.firstNv }
  else if n = 0x329 then { e with ovm := wbit v 4, rm := if wfld v 2 0 ≤ 4 then BitVec.ofNat 3 (wfld v 2 0) else e.rm }
  else if n = 0x32A then e.loadSeed (lfsrLoad v)
  else if n = 0x330 then { e with spctl := spctlWrite e.spctl v } else if n = 0x331 then { e with spaddr := areaWrite v }
  else if n = 0x332 then { e with daddr := areaWrite v }
  else if n = 0x341 then { e with cbResume := wbit v 0 }
  else if n = 0x342 then { e with cbPred := v.truncate 8 }
  else if 0x343 ≤ n ∧ n < 0x347 then { e with cbCnt := e.cbCnt.set (n - 0x343) (v.truncate 24) }
  else if 0x348 ≤ n ∧ n < 0x34C then
    if e.blk.isSome then e else { e with cbLv := e.cbLv.set (n - 0x348) (lowBits 48 v) }
  else e

/-- A write of a control register by its thread. -/
def Station.crWrite (s : Station) (thr : Fin 4) (n : Nat) (v : Word) : Station :=
  if 0x100 ≤ n ∧ n < 0x140 then s.ringWrite thr ((n - 0x100) / 16) (n % 16) v
  else if n = 0x141 then { s with xdel0 := word (setFld v.toNat 37 36 0) }
  else if n = 0x142 then { s with xdel1 := v }
  else if n = 0x143 then
    if 1 ≤ wfld v 14 0 ∧ wfld v 14 0 ≤ 16384 ∧ wfld v 63 15 = 0 then { s with nointMax := v.truncate 15 } else s
  else if 0x160 ≤ n ∧ n < 0x180 then { s with gtab := s.gtab.set (n - 0x160) (v &&& 0xBFBFBFBFBFBFBFBF#64) }
  else if n = 0x204 then
    { s with pgEn := wbit v 16, pgIdle := if 64 ≤ wfld v 15 0 then BitVec.ofNat 16 (wfld v 15 0) else s.pgIdle }
  else if n = 0x308 then
    if wbit v 7 then (match s.owner with
      | some t => s.release t
      | none => s) else s
  else if 0x320 ≤ n ∧ n < 0x350 then
    let s1 := { s with eng := s.eng.crWrite n v }
    if n = 0x341 ∧ wbit v 1 then s1.stopBlk else s1
  else s.updThr thr (Thread.crWrite n v s.cycle)

/-- An MTC that has to wait: one that sets PRECISE, for the thread's vector, tile and engine work; one to VSLFSR, for its
stochastic vector instructions; one to ME_SRSEED, for earlier drains (R110, R231, R299). -/
def Station.crWait (s : Station) (thr : Fin 4) (n : Nat) (v : Word) : Bool :=
  if n = 0x140 then
    wbit v 4 && !(s.thr thr).precise && (s.vq.any (fun e => e.thr == thr.val) || (s.owner == some thr && !s.engIdle))
  else if n = 0x203 then s.vq.any (fun e => e.thr == thr.val && e.sto)
  else n == 0x32A && s.eng.queue.any QEntry.isDrn

end Sys2Proof.Machine
end

