-- ==== Sys2Proof/Machine/Scratch.lean ====
section
/-! DEFINITION. The commands of the scratchpad power register, the gather engine, the translation registers and the far
tier's ports (R316, R317, R333 to R339, R353 to R355, R361 to R368), and the AADD.F logs' application (R302). -/

namespace Sys2Proof.Machine

/-! ### Scratchpad power -/

/-- A thread's access to station n's scratchpad is in flight or waits for it. -/
def Thread.usesScratch (n : Nat) (t : Thread) : Bool :=
  let hits (locs : List (Nat × TlbE)) : Bool := locs.any (fun l => ownScratch n l)
  match t.wait with
  | .reply _ locs => hits locs
  | .wake _ locs => hits locs
  | _ => false

/-- No access to station n's scratchpad is in flight or queued. -/
def Dev.scratchQuiet (d : Dev) (n : Nat) : Bool :=
  !d.stns.entries.any (fun p => (List.range 4).any (fun t => (p.2.thr t).usesScratch n))

/-- The station's engine, drain path and gather engine are idle, so that its scratchpad may leave ON (R316). -/
def Dev.scratchIdle (d : Dev) (n : Nat) : Bool :=
  (d.stn n).engIdle && !(List.range 64).any (fun k => ((d.stn n).stream k).active) && d.scratchQuiet n

/-- SP_PWR.TARGET takes effect: RETAIN keeps the contents, OFF loses them (R315, R316). A scratchpad already off stays off. -/
def Station.powerDown (s : Station) : Station :=
  if s.spTarget = 1 ∧ s.spState = 0 then { s with spState := 1 }
  else if s.spTarget = 2 ∧ (s.spState = 0 ∨ s.spState = 1) then { s with spState := 2, sp := .empty, spPoison := [] }
  else s

/-- The accesses that waited for scratchpads that are now ON are served (R317). -/
def Dev.serveWakes (d : Dev) : Dev :=
  d.stns.keys.foldl (fun u k =>
    if hk : k < 128 then
      ([0, 1, 2, 3] : List (Fin 4)).foldl (fun (v : Dev) (t : Fin 4) =>
        match ((v.stn k).thr t).wait with
        | .wake op locs => if (v.sleeping locs) = [] then v.serve ⟨⟨k, hk⟩, t⟩ op locs 0 else v
        | _ => v) u
    else u) d

/-- A wake completes: the scratchpad is ON and what waited is served (R317). -/
def Dev.wakeEnd (d : Dev) (n : Nat) : Dev :=
  if (d.stn n).spState = 3 then (d.updStn n (fun s => { s with spState := 0 })).serveWakes else d

/-- SP_PWR_WRITE (R316) -/
def execSpPwrWrite (h : Hart) (n : Fin 128) (v : Word) (s : State) := onDev s (fun d => d.unitWrite h (.stSp n) 0 v)

/-- SP_POWER_DOWN (R316) -/
def execSpPowerDown (n : Fin 128) (s : State) :=
  onDev s (fun d => if d.scratchIdle n then d.updStn n Station.powerDown else d)

/-- SP_WAKE_END (R317) -/
def execSpWakeEnd (n : Fin 128) (s : State) := onDev s (fun d => d.wakeEnd n)

/-! ### The gather engine -/

/-- A write of GE_CMD at station n: the stream and the command code (R335). -/
def Dev.geCommand (d : Dev) (h : Hart) (n : Fin 128) (k : Fin 64) (op : Nat) : Dev :=
  d.unitWrite h (.stGe n) 0 (word (k.val + op * 256))

/-- GE_START (R335) -/
def execGeStart (h : Hart) (n : Fin 128) (k : Fin 64) (s : State) := onDev s (fun d => d.geCommand h n k 1)

/-- GE_RESUME (R335) -/
def execGeResume (h : Hart) (n : Fin 128) (k : Fin 64) (s : State) := onDev s (fun d => d.geCommand h n k 2)

/-- GE_STOP (R338) -/
def execGeStop (h : Hart) (n : Fin 128) (k : Fin 64) (s : State) := onDev s (fun d => d.geCommand h n k 3)

/-- GATHER_ELEMENT (R336): the engine of a station that runs. -/
def execGatherElement (n : Fin 128) (err : Bool) (s : State) :=
  onDev s (fun d => if (d.stn n).live then d.geElement n err else d)

/-- STREAM_END (R338) -/
def execStreamEnd (n : Fin 128) (k : Fin 64) (s : State) := onDev s (fun d => d.geEnd n k)

/-! ### Translation and the far tier -/

/-- MM_ROOT_WRITE (R355) -/
def execMmRootWrite (h : Hart) (n : Fin 128) (v : Word) (s : State) := onDev s (fun d => d.unitWrite h (.stMm n) 0 v)

/-- MM_TLBINV (R354) -/
def execMmTlbinv (h : Hart) (n : Fin 128) (v : Word) (s : State) := onDev s (fun d => d.unitWrite h (.stMm n) 8 v)

/-- FT_SMBASE_WRITE (R363) -/
def execFtSmbaseWrite (h : Hart) (v : Word) (s : State) := onDev s (fun d => d.unitWrite h .ft 0 v)

/-- FT_INVAL (R366) -/
def execFtInval (h : Hart) (v : Word) (s : State) := onDev s (fun d => d.unitWrite h .ft 8 v)

/-- CXL_PORT_DOWN (R368) -/
def execCxlPortDown (p : Fin 4) (s : State) := onDev s (fun d => d.cxlDown p)

/-- CXL_LINK_UP (R361): whether the port has power and clocks decides first. -/
def execCxlLinkUp (p : Fin 4) (sw dcd gpf : Bool) (width : Fin 16) (unsup : Bool) (s : State) :=
  onDev s (fun d => if d.up then d.cxlUp p sw dcd gpf width unsup else d)

/-! ### The AADD.F logs (R302) -/

/-- The order in which a bank applies its log: station, then thread, then issue order. -/
def logBefore (a b : LogE) : Bool := decide (a.stn < b.stn) || (a.stn == b.stn && decide (a.thr < b.thr))

/-- An entry put behind those that precede it or have equal rank. -/
def logInsert (e : LogE) : List LogE → List LogE
  | [] => [e]
  | x :: r => if logBefore e x then e :: x :: r else x :: logInsert e r

/-- A log in the order of its application. -/
def logSort (l : List LogE) : List LogE := l.foldl (fun acc e => logInsert e acc) []

/-- One entry of a log applied to the scratchpad of station n; an entry of a poisoned group is not, and the first for each
group writes a recorder entry. -/
def Dev.applyLog (n : Nat) (p : Dev × List Nat) (e : LogE) : Dev × List Nat :=
  let (d, told) := p
  let g := e.off / 8
  if setHas (d.stn n).spPoison g then
    (if told.contains g then (d, told) else (d.event 1 4 4 n e.off false, g :: told))
  else (d.updStn n (fun s => s.spWrite e.off (bytesLE 4 (fp32Add (s.sp.readN e.off 4) e.addend))), told)

/-- Every bank of station n applies its log, which is then empty. -/
def Dev.applyLogs (d : Dev) (n : Nat) : Dev :=
  let d1 := ((d.stn n).logs.entries).foldl (fun u p => ((logSort p.2).foldl (Dev.applyLog n) (u, [])).1) d
  d1.updStn n (fun s => { s with logs := .empty })

end Sys2Proof.Machine
end

