-- ==== Sys2Proof/Machine/Halt.lean ====
section
/-! DEFINITION. The steps of a halt: what the halt tick stops, what it leaves undefined, and the start of the device monitor
while the device is held (R42 to R46, R163, R179, R202, R237, R258, R260, R283, R303, R339, R578). -/

namespace Sys2Proof.Machine

/-! ### What a halt leaves undefined (R44, log entry 5) -/

/-- n entries of a table from number lo, each a free value of a draw. -/
def freeTab (w draw base lo n : Nat) : Tab (BitVec w) :=
  ⟨(List.range n).map (fun i => (lo + i, BitVec.ofNat w (Config.freeBits draw (base + i))))⟩

/-- A thread at the halt tick: it stops at an instruction boundary; its general, vector, predicate and multiplier registers,
its accumulators and loop counters are undefined. -/
def Thread.stopAt (draw base : Nat) (t : Thread) : Thread :=
  { t with g := freeTab 64 draw base 1 31, v := freeTab 16384 draw (base + 32) 0 32, k := freeTab 2048 draw (base + 64) 1 15,
           mq := freeTab 64 draw (base + 80) 0 4, mqPend := [], ma := freeTab 72 draw (base + 84) 0 2,
           lc := freeTab 24 draw (base + 86) 0 2, lrem := freeTab 24 draw (base + 88) 0 2, acks := 0,
           wait := if t.enabled then .halted else t.wait }

/-- The bytes of the tile registers of a station, undefined. -/
def freeTiles (draw n : Nat) : Tab Mem :=
  ⟨(List.range 8).map (fun t => (t, Mem.empty.writeBytes 0
    ((List.range 0x10000).map (fun i => Config.freeByte draw ((n * 8 + t) * 0x10000 + i)))))⟩

/-- The engine at the halt tick (R202, R237, R258, R260, R283): its work is abandoned, its sets are undefined, its ballast
level only falls. A block abandoned shows HALTED. -/
def Engine.stopAt (draw n : Nat) (e : Engine) : Engine :=
  let had := e.blk.isSome || e.queue.any (fun q => match q.kind with
    | .merun _ _ _ => true
    | _ => false)
  let e1 := if had then
      { e with cbStatus := 6, cbFcode := BitVec.ofNat 6 (Config.freeBits draw (n * 4)),
               cbDepth := BitVec.ofNat 3 (Config.freeBits draw (n * 4 + 1)),
               cbCmd := BitVec.ofNat 11 (Config.freeBits draw (n * 4 + 2)) }
    else e
  { e1 with queue := [], blk := none, sbuf0 := none, sbuf1 := none, sbuf := 0, bInfo := none, latch := none, lastUsed := none,
            alist := [], aNew := true, acc0 := ⟨.empty, some draw⟩, acc1 := ⟨.empty, some (draw + 1)⟩, rising := false,
            gap := 0, falling := decide (0 < e.level), spctl := word (e.spctl.toNat % 2 ^ 47), cbRsm := false,
            cbResume := false }

/-- A station at the halt tick. One that is locked or held in reset stays as it is. -/
def Station.stopAt (draw n : Nat) (s : Station) : Station :=
  if !s.live then s
  else
    let s1 := { s with th := ⟨(List.range 4).map (fun t => (t, (s.thr t).stopAt draw ((n * 4 + t) * 128)))⟩ }
    { s1.geHalt with running := none, vq := [], tiles := freeTiles draw n, owner := none, ownPend := false, rowLatch := none,
                     tops := [], eng := s.eng.stopAt (draw + 1) n, logs := .empty, slots := 0 }

/-- The streams of a station whose stop interrupts their thread (R338). -/
def Station.haltIrqs (s : Station) : List (Fin 4) :=
  if !s.live then []
  else (List.range 64).filterMap (fun k =>
    let g := s.stream k
    if g.active && g.irq then some ⟨g.thr % 4, Nat.mod_lt _ (by decide)⟩ else none)

/-- Every station stops. -/
def Dev.stopStations (d : Dev) : Dev :=
  let irqs := d.stns.entries.map (fun p => (p.1, p.2.haltIrqs))
  let d1 := { d with stns := d.stns.mapVal (Station.stopAt d.free), free := d.free + 3 }
  irqs.foldl (fun u p => p.2.foldl (fun v t => v.setIpend p.1 t 3) u) d1

/-- Every running reduction instance ends with HALTED (R424); its status is written at its end. -/
def RedGrp.stopAt (g : RedGrp) : RedGrp :=
  match g.inst with
  | some i => if i.fin.isSome then g else { g with inst := some { i with fin := some ⟨6, 0, i.done, 0⟩ } }
  | none => g

/-- A flit of a consist's transfers: of its tag, and no TICK or ORDER. -/
def flitOf (c : Nat) (f : Flit) : Bool := f.consist.toNat == c && decide (2 ≤ f.tc.toNat)

/-- Link transfers of the consist stop: its flits that no link has begun to send are not sent (R42). -/
def Dev.stopFlits (d : Dev) : Dev :=
  if !d.isBound then d
  else { d with links := d.links.mapVal (fun _ k => { k with outq := k.outq.filter (fun p => !flitOf d.consist p.2) }) }

/-- The links that are UP have had every flit of the consist acknowledged (R42). -/
def Dev.flitsSettled (d : Dev) : Bool :=
  !d.isBound || d.links.entries.all (fun p => !p.2.isUp || p.2.unacked.all (fun x => !flitOf d.consist x.flit))

/-- Step 1 and 2 of R42: threads, engines, streams and logs stop; channels get a halt; reductions end; the transfers of the
consist stop; no ledger switch begins from now on. -/
def Dev.stopWork (d : Dev) : Dev :=
  let d1 := d.stopStations
  let d2 := { d1 with jn := { d1.jn with groups := d1.jn.groups.mapVal (fun _ g => g.stopAt) } }
  ((d2.stopChans 6 (fun _ => true)).stopFlits).ldHalt

/-! ### The device monitor of a held device (R578) -/

/-- Thread 0 at the device monitor entry in ring 0; its other state is not defined. -/
def Thread.monitor (draw n : Nat) (pc : Word) (cycle : Nat) (t : Thread) : Thread :=
  let f (i : Nat) : Nat := Config.freeBits draw (n * 64 + i)
  let tab (i : Nat) : Tab Word := freeTab 64 draw (n * 64 + i) 0 4
  { t with pc := pc, enabled := true, wait := .ready, status := BitVec.ofNat 16 (f 0 / 4 * 4), nointFrom := cycle,
           sew := BitVec.ofNat 2 (f 1), vl := BitVec.ofNat 16 (f 2), frm := BitVec.ofNat 3 (f 3), vflags := BitVec.ofNat 6 (f 4),
           vfault := BitVec.ofNat 16 (f 5), vslfsr := BitVec.ofNat 32 (f 6), lflags := BitVec.ofNat 3 (f 7),
           qrm := BitVec.ofNat 2 (f 8), fxSat := (f 9).testBit 0, fxOv := (f 10).testBit 0, qlfsr := BitVec.ofNat 32 (f 11),
           ipend := BitVec.ofNat 4 (f 12), imask := BitVec.ofNat 4 (f 13), tcFault := word (f 14), instret := word (f 15),
           lhead := freeTab 64 draw (n * 64 + 16) 0 2, ltail := freeTab 64 draw (n * 64 + 18) 0 2, xpc := tab 20, xst := tab 24,
           xcause := tab 28, xaddr := tab 32, xsp := tab 36, gateSp := tab 40, mchk := none, parith := none, arith := none,
           mecmd := none }

/-- A station of a held device: thread 0 starts the device monitor with translation off; threads 1 to 3 are disabled. -/
def Station.monitor (draw n : Nat) (pc : Word) (s : Station) : Station :=
  if !s.live then s
  else
    let off (t : Thread) : Thread := { t with enabled := false, wait := .ready }
    let s1 := (((s.updThr 1 off).updThr 2 off).updThr 3 off).updThr 0 (Thread.monitor draw n pc s.cycle)
    { s1.flushTlb with mmEn := false, running := some 0 }

/-- The device monitor starts on every present station that is neither locked nor held in reset. -/
def Dev.startMonitor (d : Dev) : Dev :=
  match d.monitorPc with
  | some pc => { d with stns := d.stns.mapVal (fun n s => if d.present n then s.monitor d.free n pc else s), free := d.free + 1 }
  | none => d

end Sys2Proof.Machine
end

