-- ==== Sys2Proof/Machine/Timetable.lean ====
section
/-! DEFINITION. The timetable at work: boundaries, cycles and phases, their records and accounting, halts and resumes
(02_timetable.md; R547, R481). -/

namespace Sys2Proof.Machine

/-! ### The plan of a boundary (R33, R35, R36, R38) -/

/-- The running phase has ended at boundary n. -/
def Sched.close (s : Sched) (n : Nat) : Sched := { s with running := false, prevEnd := n, k := s.k + 1 }

/-- A cycle with its base at boundary n. -/
def Sched.cycle (s : Sched) (n : Nat) : Sched :=
  { s with active := true, first := false, base := n, cyc := (s.cyc + 1) % 2 ^ 64, k := 0, running := false, prevEnd := n }

/-- An IDLE phase k that starts at boundary n of a cycle with base b ends at its start (R35). -/
def Tt.idleOver (t : Tt) (b k n : Nat) : Bool := t.isIdle k && decide (b + t.deadlineOf k ≤ n)

/-- The running phase ends at boundary n: an IDLE phase at its deadline, another where it has ended before. -/
def Tt.phaseOver (t : Tt) (s : Sched) (n : Nat) (ended : Bool) : Bool :=
  s.running && (if t.isIdle s.k then decide (max (s.base + t.deadlineOf s.k) s.start ≤ n) else ended)

/-- The phases that start at boundary n: any IDLE phases that end at their start, and the one after them; at most fuel. The
last to start is given. -/
def Tt.startsAt (t : Tt) (n : Nat) : Nat → Sched → Sched × Option Nat
  | 0, s => (s, none)
  | fuel + 1, s =>
    if s.active && !s.first && !s.running && decide (s.k < t.nphase) && decide (max (s.base + t.startOf s.k) s.prevEnd ≤ n) then
      if t.idleOver s.base s.k n then
        (let (s1, p) := Tt.startsAt t n fuel (s.close n)
         (s1, p.or (some s.k)))
      else ({ s with running := true, start := n }, some s.k)
    else (s, none)

/-- The cycle is over at boundary n, or the first cycle may begin. -/
def Tt.cycleDue (t : Tt) (s : Sched) (n : Nat) (ready : Bool) : Bool :=
  s.active && !s.running
    && (if s.first then ready else decide (t.nphase ≤ s.k) && decide (max (s.base + t.len) s.prevEnd ≤ n))

/-- What a boundary carries (R428): the schedule after it, END, BASE, and START with its phase. -/
structure Plan where
  sched : Sched
  end_ : Bool
  base : Bool
  start : Option Nat
  deriving DecidableEq, Repr

/-- Boundary n of a schedule. With ENABLE = 0 no new cycle begins. -/
def Tt.advance (t : Tt) (s : Sched) (n : Nat) (ended ready : Bool) : Plan :=
  let e := t.phaseOver s n ended
  let (s1, p1) := t.startsAt n 64 (if e then s.close n else s)
  if t.cycleDue s1 n ready then
    if t.enable then
      (let (s2, p2) := t.startsAt n 64 (s1.cycle n)
       ⟨s2, e, true, p2⟩)
    else ⟨{ s1 with active := false }, e, false, p1⟩
  else ⟨s1, e, false, p1⟩

/-- The cycle that a resume begins at boundary n (R46). -/
def Tt.resumePlan (t : Tt) (n : Nat) : Plan :=
  let (s, p) := t.startsAt n 64 ({ Sched.idle with cyc := t.cycnum }.cycle n)
  ⟨s, false, true, p⟩

/-- A boundary with a plan. -/
def Plan.msg (p : Plan) (num at_ period : Nat) : TickMsg :=
  { num := num, at_ := at_, halt := false, base := p.base, start := p.start.isSome, end_ := p.end_, phase := p.start.getD 0,
    cyc := p.sched.cyc, period := period }

/-- A boundary that carries nothing. -/
def Tt.bare (t : Tt) (num at_ : Nat) : TickMsg :=
  { num := num, at_ := at_, halt := false, base := false, start := false, end_ := false, phase := 0, cyc := t.cycnum,
    period := t.period }

/-! ### Records and accounting (R47, R481) -/

/-- Bytes written to a record's place; none where the write faults. -/
def Dev.recStore (d : Dev) (pa : Nat) (bs : List Byte) : Option Dev :=
  match d.dmaPhys true .store (TlbE.phys pa) pa with
  | .fault _ => none
  | .ok _ e => match region pa with
    | .host off => some (d.hostStore off bs)
    | _ => let (d1, bad) := d.writeLoc e pa bs; if bad then none else some d1

/-- The record of a phase but for REC_SEQ, bytes 0 to 59 (R47). -/
def Dev.recBytes (d : Dev) (c elapsed delay late status : Nat) : List Byte :=
  let t := d.tt
  let fl := d.stns.entries.foldl (fun m p => m ||| p.2.phFlags.toNat) (b2n t.absent * 64)
  let nv := d.stns.entries.find? (fun p => p.2.phFlags.getLsbD 0)
  let retries := min 0xFFFF (d.stns.entries.foldl (fun m p => m + p.2.phRetries) 0)
  bytesLE 8 t.cycnum ++ bytesLE 8 t.sched.start ++ bytesLE 8 c ++ bytesLE 8 elapsed ++ bytesLE 4 delay ++ bytesLE 4 late
    ++ bytesLE 1 t.phase.toNat ++ bytesLE 1 status ++ bytesLE 1 fl ++ bytesLE 1 1
    ++ bytesLE 2 ((nv.map (·.1)).getD 0xFFFF) ++ bytesLE 2 retries ++ bytesLE 8 ((nv.map (fun p => p.2.eng.phSeq.toNat)).getD 0)
    ++ bytesLE 4 d.waybillsOk

/-- A record is written to the ring; a fault drops it and sets TT_ERR.REC_FAULT. A dropped record keeps its place and number,
so that a reader sees the gap. -/
def Dev.writeRecord (d : Dev) (bs : List Byte) : Dev :=
  let t := d.tt
  if !t.recEn || decide (t.log2n < 4) || decide (16 < t.log2n) then d
  else
    let pa := t.recBase + 64 * t.recPos
    let d1 := { d with tt := { t with recPos := (t.recPos + 1) % 2 ^ t.log2n, recSeq := nextSeq32 t.recSeq } }
    match (d1.recStore pa bs).bind (fun u => u.recStore (pa + 60) (bytesLE 4 t.recSeq)) with
    | some d2 => d2
    | none => { d1 with tt := d1.tt.setErr 2 }

/-- A phase that has ended joins the accounting of its index (R481, R482). -/
def Dev.account (d : Dev) (k tag kind ns late : Nat) : Dev :=
  if !d.bd.counting then d
  else
    let a : Acct := match d.bd.phases.get? k with
      | none => ⟨tag, kind, false, 1, ns⟩
      | some a => ⟨tag, kind, a.mixed || a.tag != tag || a.kind != kind, a.count + 1, a.ns + ns⟩
    { d with bd := { d.bd with phases := d.bd.phases.set k a, late := d.bd.late + late } }

/-- The running phase is closed with end boundary c, its end under R35 or the halt tick: it is recorded, and accounted if it
ended (R36, R42, R47). -/
def Dev.closePhase (d : Dev) (c : Nat) (halted : Bool) : Dev :=
  let t := d.tt
  let k := t.phase.toNat
  let dl := t.sched.base + t.deadlineOf k
  let late := if t.isIdle k && !halted then 0 else c - dl
  let status := if halted then 2 else if 0 < late then 1 else 0
  let elapsed := (((if halted then none else t.ended).getD d.now) - t.startAt) / nsU
  let d1 := d.writeRecord (d.recBytes c elapsed (t.sched.start - (t.sched.base + t.startOf k)) late status)
  let d2 := if halted then d1 else d1.account k (t.tagOf k) (t.kindOf k) elapsed late
  { d2 with tt := { d2.tt with state := 1, inPhase := false, done := false, ended := none, sched := t.sched.close c } }

/-! ### Boundaries -/

/-- A phase is due to enter LATE at the last boundary (R37). -/
def Tt.lateDue (t : Tt) : Bool :=
  t.inPhase && !t.isIdle t.phase.toNat && t.state == 2 && decide (t.sched.base + t.deadlineOf t.phase.toNat ≤ t.tick)

/-- A step of the last boundary is still to be done. -/
def Dev.stepDue (d : Dev) : Bool := !d.dfatal && (d.tt.startDue.isSome || d.tt.resumeDue || d.tt.lateDue)

/-- The cap rule of a regular boundary (R547): P in W, TJ in 1/16 °C, the energy of the tick in mJ. -/
def Dev.capEval (d : Dev) (p : BitVec 16) (tj : BitVec 16) (mj : Nat) : Dev :=
  let w := d.pw
  let hot := decide ((w.throttle : Int) * 16 ≤ tj.toInt)
  let capped := !hot && w.capEn && decide (w.cap < p.toNat)
  let rises := !hot && !capped && (!w.capEn || decide (p.toNat < w.cap - w.hyst))
  let l := if hot then max 1 (d.capL - 2) else if capped then max 1 (d.capL - 1)
    else if rises then min 8 (d.capL + 1) else d.capL
  { d with capL := l,
           pw := { w with pin := p.toNat, tj := tj.toNat, throt := hot, capped := capped,
                          floor := w.floor || (l == 1 && decide (w.cap < p.toNat)), energy := (w.energy + mj) % 2 ^ 64 } }

/-- The master evaluates the reports for the boundary before (R437). -/
def Dev.evaluate (d : Dev) : Dev :=
  if d.tt.role ≠ 1 then d
  else
    let n := d.tt.tick - 1
    let miss := d.tt.missCount n
    { d with tt := { d.tt with nMiss := miss, lowMiss := d.lowMissing n, allReady := d.subReady n,
                               incomplete := if 0 < miss then d.tt.incomplete + 1 else 0 } }

/-- A follower that has every child's report for the last boundary reports it (R432). -/
def Dev.reportBoundary (d : Dev) : Dev :=
  if d.tt.role = 2 ∧ d.tt.repSent ≠ d.tt.tick ∧ d.tt.missing d.tt.tick = [] then
    { d.sendReport none with tt := { d.tt with repSent := d.tt.tick } }
  else d

/-- A follower whose subtree has ended the running phase reports it once (R432). -/
def Dev.reportEnd (d : Dev) : Dev :=
  if d.tt.role = 2 ∧ !d.tt.endSent ∧ d.tt.subEnded then { d.sendReport none with tt := { d.tt with endSent := true } } else d

/-- What a boundary's BASE and START bring, as far as they are still to be done: a resume of a held device, a new cycle, the
next phase to start; or the end of the timetable where a cycle is over and none begins. -/
def Tt.proceed (t : Tt) (m : TickMsg) (stops : Bool) : Tt :=
  if t.state = 5 ∧ m.base then { t with resumeDue := true, cur := some m }
  else if t.state = 4 ∨ t.state = 5 ∨ !t.sched.active ∨ t.sched.running then { t with cur := none }
  else
    let whole := t.sched.first || decide (t.nphase ≤ t.sched.k)
    let t1 := if m.base && whole then
        { t with sched := { t.sched.cycle t.tick with cyc := m.cyc }, cycnum := m.cyc } else t
    let m1 := if whole then { m with base := false } else m
    if m1.base || (m1.start && !t1.sched.first && decide (t1.sched.k ≤ m1.phase)) then
      { t1 with startDue := some t1.sched.k, cur := some m1 }
    else if stops && !m.base && t1.cycleDue t1.sched t1.tick (!t1.enable) then
      { t1 with cur := none, state := 0, sched := { t1.sched with active := false } }
    else { t1 with cur := none }

/-- A boundary is taken: its number and instant, the end of the phase it ends, and what it begins. `stops` says whether a
cycle that ends without BASE ends the timetable. -/
def Dev.takeTick (d : Dev) (m : TickMsg) (stops : Bool) : Dev :=
  let d1 := { d.notBefore m.at_ with
    tt := { d.tt with tick := m.num, lastB := m.at_, curPeriod := m.period }, rc := { d.rc with seen := [] } }
  let d2 := if m.end_ && d1.tt.inPhase then d1.closePhase m.num false else d1
  let d3 := { d2 with tt := if d2.dfatal then { d2.tt with cur := none } else d2.tt.proceed m stops }
  (d3.evaluate).reportBoundary

/-- The next boundary of a device that makes its own: a standalone device's carries its timetable. -/
def Dev.ownTick (d : Dev) : TickMsg :=
  let t := d.tt
  let n := t.tick + 1
  let at_ := t.lastB + t.curPeriod * nsU
  if t.role ≠ 0 ∨ t.state = 4 then t.bare n at_
  else if t.state = 5 then (if t.resume = some n then (t.resumePlan n).msg n at_ t.period else t.bare n at_)
  else (t.advance t.sched n false true).msg n at_ t.period

/-- The device is a follower, or a master that sends TICKs: it takes boundaries that have been announced (R428, R429). -/
def Tt.announced (t : Tt) : Bool := t.role == 2 || (t.role == 1 && t.hold)

/-! ### Halts (R41 to R44) -/

/-- Step 1 to 3 of R42 at a boundary: the phase is closed, everything stops, the timetable is HALTING. -/
def Dev.beginHalt (d : Dev) (m : TickMsg) (why : Nat) : Dev :=
  let d1 := { d.notBefore m.at_ with
    tt := { d.tt with tick := m.num, lastB := m.at_, curPeriod := m.period }, rc := { d.rc with seen := [] } }
  let d2 := if d1.tt.inPhase then d1.closePhase m.num (!m.end_) else d1
  let d3 := d2.stopWork
  let b := d3.bd
  ({ d3 with
     tt := { d3.tt with state := 4, reason := 0, why := why, sched := .idle, plan := .idle, startDue := none, cur := none,
                        resumeDue := false, resume := none, halt := none, parting := false, inPhase := false, done := false,
                        ended := none, ann := d3.tt.ann.filter (fun x => decide (m.num < x.num)),
                        hold := d3.tt.hold && decide (why ≠ 5) },
     bd := match b.heldFrom with
       | some t0 => { b with held := b.held + (m.at_ - t0), heldFrom := none }
       | none => b }.evaluate).reportBoundary

/-- The halt tick that comes next, with its reason: a boundary announced with HALT, or the pending halt tick. -/
def Dev.nextHalt (d : Dev) : Option (TickMsg × Nat) :=
  let t := d.tt
  let own : Option (TickMsg × Nat) := t.halt.map (fun h => ({ t.bare h.1 h.2.1 with halt := true }, h.2.2))
  match t.ann.head? with
  | none => own
  | some m =>
    if m.halt then some (m, match t.halt with
      | some h => if t.role = 2 then 3 else h.2.2
      | none => 3)
    else match own with
      | some x => if x.1.at_ ≤ m.at_ then some x else none
      | none => none

/-- Everything the steps of R42 wait for is done: channels and reductions are idle, the ledger switches that began are
complete, and the flits sent have been acknowledged. -/
def Dev.haltSettled (d : Dev) : Bool :=
  d.sh.chans.entries.all (fun p => !p.2.busy) && d.jn.groups.entries.all (fun p => p.2.inst.isNone)
    && d.host.ld.flushes.all (fun f => f.what != .committed && f.what != .completed) && d.flitsSettled

/-- Step 4 of R42: HELD, recorded and accounted, and the device monitor starts (R436, R481, R482, R578). -/
def Dev.enterHeld (d : Dev) : Dev :=
  let why := d.tt.why
  let d1 := if why = 4 ∧ d.tt.role = 2 then d.event 4 2 0 d.tt.phase.toNat d.tt.lastRx false else d
  let d2 := d1.event 4 3 0 d.tt.phase.toNat why false
  { d2 with tt := { d2.tt with state := 5, reason := BitVec.ofNat 4 why },
            bd := if d2.bd.counting then { d2.bd with halts := d2.bd.halts + 1, heldFrom := some d2.now } else d2.bd }.startMonitor

/-! ### Phase starts and ends -/

/-- The phase-start interrupt and the cleared phase flag set of one station (R34). -/
def Dev.phaseStation (d : Dev) (n : Nat) : Dev :=
  if d.present n then
    ((if (d.stn n).live then d.setIpend n 0 0 else d).updStn n (fun s => { s with phFlags := 0, phRetries := 0 }))
  else d

/-- Phase k starts at the last boundary (R34). An IDLE phase that starts at or after its deadline ends there, and what else
the boundary brings follows (R35). -/
def Dev.phaseStart (d : Dev) (k : Nat) (hosts : List (List Byte)) : Dev :=
  let d1 := d.dispatch (d.tt.sqMask k) hosts
  let d2 := d1.stns.keys.foldl Dev.phaseStation d1
  let t := d2.tt
  let d3 := { d2 with tt := { t with
    startDue := none, state := 2, phase := BitVec.ofNat 6 k, inPhase := true, done := false, ended := none, endSent := false,
    startAt := t.lastB, sched := { t.sched with running := true, start := t.tick, k := k } } }
  if t.idleOver t.sched.base k t.tick then
    (let d4 := d3.closePhase t.tick false
     match t.cur with
     | some m => { d4 with tt := d4.tt.proceed { m with start := m.start && (m.base || decide (k < m.phase)) } true }
     | none => d4)
  else { d3 with tt := { d3.tt with cur := none } }

/-- The conditions of R35 but for the reproducible-mode logs. -/
def Dev.phaseQuiet (d : Dev) : Bool :=
  d.tt.done && d.waybillsDone && d.sh.chans.entries.all (fun p => !p.2.busy)
    && d.jn.groups.entries.all (fun p => p.2.inst.isNone)
    && d.stns.entries.all (fun p => !d.present p.1
        || (!(List.range 64).any (fun k => (p.2.stream k).active) && p.2.engIdle
            && (List.range 4).all (fun t => (p.2.thr t).acks == 0)))

/-- Every bank's log is empty, which reproducible mode asks for (R35, R302). -/
def Dev.logsDone (d : Dev) : Bool := !d.repro || d.stns.entries.all (fun p => p.2.logs.entries.all (fun q => q.2.isEmpty))

/-- The next boundary of this device, a halt tick included, has not come yet. -/
def Dev.beforeNext (d : Dev) : Bool :=
  decide (d.now < d.tt.lastB + d.tt.curPeriod * nsU) && (match d.tt.halt with
    | some h => decide (d.now < h.2.1)
    | none => true)

/-- The running phase can end: it is no IDLE phase and has not ended, and all of R35 holds. -/
def Dev.canEnd (d : Dev) : Bool :=
  d.tt.inPhase && !d.tt.isIdle d.tt.phase.toNat && d.tt.ended.isNone && (d.tt.state == 2 || d.tt.state == 3) && d.phaseQuiet

/-- The phase ends (R35): a standalone device closes it with the next boundary as C; in a group the end is reported, and the
phase is closed at the boundary that carries END (R433). -/
def Dev.phaseEnd (d : Dev) : Dev :=
  if d.canEnd && d.logsDone && d.beforeNext then
    (let d1 := { d with tt := { d.tt with ended := some d.now } }
     if d.tt.role = 0 then d1.closePhase (d.tt.tick + 1) false else d1.reportEnd)
  else d

/-! ### The commands -/

/-- TICK_BOUNDARY (R27): the next regular boundary, with what the cap rule measures. It does not come while a step of the last
one is due, or where a halt tick comes first. -/
def Dev.tickBoundary (d : Dev) (p tj : BitVec 16) (mj : Nat) : Dev :=
  if !(d.pw.state == .boot || d.pw.state == .running) || d.stepDue then d
  else if d.tt.announced then
    (match d.tt.ann with
     | [] => d
     | m :: r =>
       if m.halt then d
       else
         let d1 := ({ d with tt := { d.tt with ann := r } }).capEval p tj mj
         if d.tt.parting then d1.beginHalt m 4 else d1.takeTick m true)
  else if d.tt.halt.isSome then d
  else (d.capEval p tj mj).takeTick d.ownTick true

/-- TICK_BOUNDARY (R27) -/
def execTickBoundary (p tj : BitVec 16) (mj : Nat) (s : State) := onDev s (fun d => d.tickBoundary p tj mj)

/-- PHASE_START (R34): `hosts` holds, by index in the dispatch list, the command lists that lie in host windows. -/
def execPhaseStart (hosts : List (List Byte)) (s : State) :=
  onDev s (fun d => match d.tt.startDue with
    | some k => if d.dfatal then d else d.phaseStart k hosts
    | none => d)

/-- A phase enters LATE (R37). -/
def Dev.goLate (d : Dev) : Dev :=
  { d.event 4 1 0 d.tt.phase.toNat d.tt.cycnum false with tt := { d.tt.setErr 0 with state := 3 } }

/-- PHASE_DEADLINE (R37) -/
def execPhaseDeadline (s : State) := onDev s (fun d => if d.tt.lateDue then d.goLate else d)

/-- TT_DONE (R35) -/
def execTtDone (h : Hart) (v : Word) (s : State) := onDev s (fun d => d.unitWrite h .tt 0x030 v)

/-- PHASE_END (R35) -/
def execPhaseEnd (s : State) := onDev s Dev.phaseEnd

/-- The banks of station n apply their logs once the other end conditions hold (R35, R302). -/
def Dev.reproApply (d : Dev) (n : Nat) : Dev := if d.canEnd && d.repro then d.applyLogs n else d

/-- REPRO_LOG_APPLY (R302) -/
def execReproLogApply (n : Fin 128) (s : State) := onDev s (fun d => d.reproApply n)

/-- ENABLE (R32) -/
def execEnable (h : Hart) (v : Word) (s : State) := onDev s (fun d => d.unitWrite h .tt 0x000 v)

/-- TT_PERIOD_WRITE (R29) -/
def execTtPeriodWrite (h : Hart) (v : Word) (s : State) := onDev s (fun d => d.unitWrite h .tt 0x010 v)

/-- HALT (R40) -/
def execHalt (h : Hart) (v : Word) (s : State) := onDev s (fun d => d.unitWrite h .tt 0x000 (v ||| 0x40#64))

/-- HALT_N held low (R40): ignored while the device is not RUNNING (R560). -/
def Dev.haltPin (d : Dev) : Dev := if d.pw.state == .running && !d.dfatal then d.haltRequest 2 else d

/-- HALT_N (R40) -/
def execHaltN (s : State) := onDev s Dev.haltPin

/-- The halt tick comes (R42). -/
def Dev.haltTick (d : Dev) : Dev :=
  if d.dfatal || d.stepDue then d
  else match d.nextHalt with
    | some (m, why) => d.beginHalt m why
    | none => d

/-- HALT_TICK (R42) -/
def execHaltTick (s : State) := onDev s Dev.haltTick

/-- HALT_COMPLETE (R42) -/
def execHaltComplete (s : State) := onDev s (fun d => if d.tt.state == 4 && d.haltSettled then d.enterHeld else d)

/-- RESUME (R46) -/
def execResume (h : Hart) (v : Word) (s : State) := onDev s (fun d => d.unitWrite h .tt 0x000 (v ||| 0x80#64))

/-- The resume at the last boundary (R46, R465): held time ends, STARTED waybills return to ACCEPTED, and a new cycle begins
if the timetable is enabled and its table valid. -/
def Dev.resumeNow (d : Dev) (m : TickMsg) : Dev :=
  let d1 := d.ldResume
  let b := d1.bd
  let t := { d1.tt with resumeDue := false, resume := none, reason := 0, cur := none }
  let t1 := if t.enable && t.tableBad.isNone then
      { t with state := 1, cycnum := m.cyc, sched := { Sched.idle.cycle t.tick with cyc := m.cyc } }.proceed
        { m with base := false } true
    else
      let t2 := match t.tableBad with
        | some k => if t.enable then { t.setErr 5 with errIdx := k } else t
        | none => t
      { t2 with state := 0, sched := .idle, plan := .idle }
  { d1 with tt := t1, bd := match b.heldFrom with
      | some t0 => { b with held := b.held + (d1.tt.lastB - t0), heldFrom := none }
      | none => b }

/-- RESUME_BOUNDARY (R46) -/
def execResumeBoundary (s : State) :=
  onDev s (fun d => match d.tt.resumeDue, d.tt.cur with
    | true, some m => d.resumeNow m
    | _, _ => d)

end Sys2Proof.Machine
end

