-- ==== Sys2Proof/Machine/Coupling.lean ====
section
/-! DEFINITION. The coupling of a group and its staff (16_coupling_and_the_staff.md): TICKs, reports, partitions, the lease,
and the effects of the coupling orders. -/

namespace Sys2Proof.Machine

/-! ### Sending TICKs (R428, R433, R434, R439, R441) -/

/-- The last boundary this device has announced: number, instant, period after it. -/
def Tt.lastAnn (t : Tt) : Nat × Nat × Nat :=
  match t.ann.getLast? with
  | some m => (m.num, m.at_, m.period)
  | none => (t.tick, t.lastB, t.curPeriod)

/-- The number and instant of the boundary whose TICK comes next. -/
def Tt.nextAnn (t : Tt) : Nat × Nat :=
  let (n, at_, p) := t.lastAnn
  (n + 1, at_ + p * nsU)

/-- The master holds READY from every child, with NMISS = 0, and is ready itself (R434). -/
def Dev.groupReady (d : Dev) : Bool :=
  d.ownReady && d.tt.childLinks.all (fun l => match d.tt.rep l with
    | some r => r.ready && r.nmiss == 0
    | none => false)

/-- The phase that the plan has running is the one that runs, and the group has ended it (R433). -/
def Tt.planEnded (t : Tt) : Bool := t.plan.running && t.plan.k == t.phase.toNat && t.subEnded

/-- The next TICK of the master, and its schedule after it: a pending halt tick, a resume, or the plan of a regular boundary. -/
def Dev.nextTick (d : Dev) : TickMsg × Sched :=
  let t := d.tt
  let (n, at_) := t.nextAnn
  match t.halt with
  | some h => ({ t.bare h.1 h.2.1 with halt := true, end_ := t.planEnded }, t.plan)
  | none =>
    if t.state = 5 then
      (if t.resume = some n then ((t.resumePlan n).msg n at_ t.period, (t.resumePlan n).sched) else (t.bare n at_, t.plan))
    else if t.state = 4 then (t.bare n at_, t.plan)
    else
      let p := t.advance t.plan n t.planEnded d.groupReady
      (p.msg n at_ t.period, p.sched)

/-- The DATA of a BOUNDARY TICK sent now (R428). -/
def Dev.tickData (d : Dev) (m : TickMsg) (master : Nat) : List Byte :=
  let flags := b2n m.halt + b2n m.base * 2 + b2n m.start * 4 + b2n m.end_ * 8
  bytesLE 1 1 ++ bytesLE 1 flags ++ bytesLE 1 m.phase ++ bytesLE 1 0 ++ bytesLE 8 m.num ++ bytesLE 8 m.cyc
    ++ bytesLE 4 ((m.at_ - d.now) / nsU) ++ bytesLE 4 m.period ++ bytesLE 4 d.tt.epoch ++ bytesLE 2 master
    ++ List.replicate 206 0

/-- A TICK goes to every child. -/
def Dev.sendTicks (d : Dev) (m : TickMsg) (master : Nat) : Dev :=
  let f := d.mkFlit 2 0 0 false (d.tickData m master)
  d.tt.childLinks.foldl (fun u l => u.toTree l f) d

/-- The device may send BOUNDARY TICKs: it is the master, holds the staff, and has met no device-fatal error (R438, R490). -/
def Dev.mayTick (d : Dev) : Bool := d.tt.role == 1 && d.tt.hold && d.up

/-- TICK_SEND (R428): a TICK one TT_HALT_LEAD before its boundary, the halt tick's before any other; no regular boundary at or
after the lease's expiry is announced (R439). -/
def Dev.tickSend (d : Dev) : Dev :=
  if !d.mayTick || d.tt.ann.any (fun m => m.halt) || (d.tt.halt.isNone && decide (d.tt.expiry ≤ d.tt.nextAnn.1)) then d
  else
    let (m, s) := d.nextTick
    let d1 := (d.notBefore (m.at_ - d.tt.lead * usU)).sendTicks m d.jn.devid
    { d1 with tt := { d1.tt with ann := d1.tt.ann ++ [m], plan := s } }

/-- TICK_SEND (R428) -/
def execTickSend (s : State) := onDev s Dev.tickSend

/-! ### Taking flits from the inbox -/

/-- The first delivered flit that meets a condition, with its link and instant, and the device without it. -/
def Dev.takeInbox (d : Dev) (p : Flit → Bool) : Option (Nat × Nat × Flit) × Dev :=
  match d.jn.inbox.find? (fun x => p x.2.2) with
  | none => (none, d)
  | some x => (some x, { d with jn := { d.jn with inbox := dropFirst (fun y => p y.2.2) d.jn.inbox } })

/-- A TICK flit that is a REPORT. -/
def isReport (f : Flit) : Bool := f.kind == 2 && flitU f 12 1 == 2

/-- A TICK flit that is not. -/
def isTick (f : Flit) : Bool := f.kind == 2 && flitU f 12 1 != 2

/-! ### Receiving TICKs (R429, R435, R438) -/

/-- The boundary a TICK announces: received at `rx` on a link of a latency in ns. -/
def tickMsg (f : Flit) (rx lat : Nat) : TickMsg :=
  let fl := flitU f 13 1
  { num := flitU f 16 8, at_ := rx + flitU f 32 4 * nsU - lat * nsU, halt := bitOf fl 0, base := bitOf fl 1, start := bitOf fl 2,
    end_ := bitOf fl 3, phase := flitU f 14 1, cyc := flitU f 24 8, period := flitU f 36 4 }

/-- A bit of TT_CERR set. -/
def Tt.setCerr (t : Tt) (i : Nat) (b : Bool) : Tt :=
  if b then { t with cerr := BitVec.ofNat 5 (setBit t.cerr.toNat i true) } else t

/-- A master gives up the staff to a higher EPOCH (R438): it becomes a follower and halts; R438 names no reason, so that
TT_STATE.REASON is free (log entry 5). -/
def Dev.yieldStaff (d : Dev) : Dev :=
  let d1 : Dev := { d with tt := { d.tt with role := 2, hold := false }, free := d.free + 1 }
  d1.placeHalt (Config.freeValue d.free % 16) (d.tt.ann.getLast?.map (fun m => (m.num, m.at_)))

/-- A follower receives a TICK at an instant on link l (R429): each check that fails sets its bit; a TICK that passes them is
taken and sent on to the children with its lead recomputed. -/
def Dev.followTick (d : Dev) (l rx : Nat) (f : Flit) : Dev :=
  let t := d.tt
  let m := tickMsg f rx (d.link l).lat
  let ep := flitU f 40 4
  let notParent := l != t.cplParent
  let stale := decide (ep < t.epoch)
  let late := decide (m.num ≤ t.tick) || decide (m.at_ ≤ rx)
  if notParent || stale || late then
    { d with tt := ((t.setCerr 0 stale).setCerr 1 notParent).setCerr 2 late }
  else
    let master := if t.epoch < ep then flitU f 44 2 else t.cplMaster
    let t1 := { t with epoch := max t.epoch ep, cplMaster := master, misses := 0, lastRx := m.num,
                       ann := t.ann.filter (fun x => decide (x.num < m.num)) ++ [m] }
    let d1 : Dev := { d with tt := t1 }
    d1.sendTicks m (flitU f 44 2)

/-- TICK_RECEIVE (R429): the first BOUNDARY TICK delivered. A device that holds no staff takes it as a follower; a master
compares epochs (R438). -/
def Dev.tickReceive (d : Dev) : Dev :=
  match d.takeInbox isTick with
  | (none, _) => d
  | (some (l, rx, f), d1) =>
    if flitU f 12 1 ≠ 1 || !d.up then d1
    else if d.tt.role = 1 then
      (let ep := flitU f 40 4
       if d.tt.epoch < ep then d1.yieldStaff
       else if ep = d.tt.epoch then
         (let d2 : Dev := { d1 with tt := d1.tt.setCerr 4 true }
          d2.placeHalt 4 (d2.tt.ann.getLast?.map (fun m => (m.num, m.at_))))
       else { d1 with tt := d1.tt.setCerr 0 true })
    else d1.followTick l rx f

/-- TICK_RECEIVE (R429) -/
def execTickReceive (s : State) := onDev s Dev.tickReceive

/-- A follower's own plan for a boundary it has not been told of: IDLE phases end and phases start by its table (R435). -/
def Dev.freeTick (d : Dev) : TickMsg :=
  let t := d.tt
  let n := t.tick + 1
  let at_ := t.lastB + t.curPeriod * nsU
  let m := if t.state = 4 ∨ t.state = 5 then t.bare n at_ else (t.advance t.sched n false false).msg n at_ t.period
  { m with period := t.curPeriod }

/-- MISSED_TICK (R435, R436): the expected boundary comes untold. The third in a row starts nothing, and the one after it
begins the steps of R42. -/
def Dev.missedTick (d : Dev) (p tj : BitVec 16) (mj : Nat) : Dev :=
  if d.tt.role ≠ 2 || !d.up || d.stepDue || !d.tt.ann.isEmpty then d
  else
    let d1 := { d with tt := { d.tt.setErr 1 with misses := min 15 (d.tt.misses + 1) } }
    let d2 := d1.capEval p tj mj
    if d.tt.parting then d2.beginHalt { d.freeTick with end_ := false } 4
    else if d1.tt.misses = 3 then
      ({ d2 with tt := { d2.tt with parting := true } }).takeTick { d.freeTick with base := false, start := false } false
    else d2.takeTick d.freeTick false

/-- MISSED_TICK (R435) -/
def execMissedTick (p tj : BitVec 16) (mj : Nat) (s : State) := onDev s (fun d => d.missedTick p tj mj)

/-! ### Reports (R431, R432, R438) -/

/-- A REPORT of a child, as this device keeps it; a DIGEST that differs from its own clears READY (R432). -/
def Dev.repOf (d : Dev) (l : Nat) (f : Flit) : Rep :=
  let fl := flitU f 13 1
  { link := l, tick := flitU f 16 8, ready := bitOf fl 1 && flitU f 36 4 == crc32c d.tt.digestBytes, ended := bitOf fl 2,
    phase := flitU f 14 1, cyc := flitU f 24 8, nmiss := flitU f 32 2, lowmiss := flitU f 34 2 }

/-- A halt request that a child reports is forwarded, or accepted by the master (R40, R432). -/
def Dev.reportedHalt (d : Dev) (f : Flit) : Dev :=
  if !bitOf (flitU f 13 1) 0 then d else d.haltRequest (flitU f 15 1)

/-- REPORT_RECEIVE (R431): the first REPORT delivered. -/
def Dev.reportReceive (d : Dev) : Dev :=
  match d.takeInbox isReport with
  | (none, _) => d
  | (some (l, _, f), d1) =>
    if !d.tt.childLinks.contains l || !d.up then d1
    else if d.tt.role = 1 ∧ d.tt.epoch < flitU f 40 4 then d1.yieldStaff
    else
      let r := d1.repOf l f
      let t := d1.tt.setCerr 3 (flitU f 36 4 != crc32c d1.tt.digestBytes)
      let rs : List Rep := t.reports.filter (fun x => x.link != l) ++ [r]
      let d2 : Dev := { d1 with tt := { t with reports := rs } }
      ((d2.reportedHalt f).reportBoundary).reportEnd

/-- REPORT_RECEIVE (R431) -/
def execReportReceive (s : State) := onDev s Dev.reportReceive

/-- REPORT_TIMEOUT (R432): (16 − d)/16 of a period after the boundary the report goes out with the missing children counted. -/
def Dev.reportTimeout (d : Dev) : Dev :=
  if d.tt.role ≠ 2 ∨ d.tt.repSent = d.tt.tick then d
  else
    let d1 := d.notBefore (d.tt.lastB + d.tt.curPeriod * nsU * (16 - d.tt.cplDepth) / 16)
    { d1.sendReport none with tt := { d1.tt with repSent := d1.tt.tick } }

/-- REPORT_TIMEOUT (R432) -/
def execReportTimeout (s : State) := onDev s Dev.reportTimeout

/-- The first boundary whose TICK has not been sent becomes the halt tick; a pending halt tick is used (R41, R437, R439). -/
def Dev.haltNext (d : Dev) (reason : Nat) : Dev :=
  match d.tt.halt with
  | some _ => d
  | none => { d with tt := { d.tt with halt := some (d.tt.nextAnn.1, d.tt.nextAnn.2, reason) } }

/-- PARTITION_DETECT (R437): three incomplete evaluations in a row, on a master that is not held already. -/
def Dev.partitionDetect (d : Dev) : Dev :=
  if d.mayTick && decide (3 ≤ d.tt.incomplete) && d.tt.state != 4 && d.tt.state != 5 then
    (let d1 : Dev := { d with tt := { d.tt with incomplete := 0 } }
     d1.haltNext 4)
  else d

/-- PARTITION_DETECT (R437) -/
def execPartitionDetect (s : State) := onDev s Dev.partitionDetect

/-- LEASE_EXPIRY (R439): the TICK about to be sent is for a boundary at or after EXPIRY. A held master loses the staff at once;
otherwise the boundary becomes the halt tick, with reason LEASE_LOST, its TICK is sent, and the staff is lost there. -/
def Dev.leaseExpiry (d : Dev) : Dev :=
  if !d.mayTick || decide (d.tt.nextAnn.1 < d.tt.expiry) then d
  else if d.tt.state = 5 then { d with tt := { d.tt with hold := false, reason := 5 } }
  else
    let d1 := d.haltNext 5
    let d2 : Dev := { d1 with tt := { d1.tt with halt := d1.tt.halt.map (fun h => (h.1, h.2.1, 5)) } }
    d2.tickSend

/-- LEASE_EXPIRY (R439) -/
def execLeaseExpiry (s : State) := onDev s Dev.leaseExpiry

/-! ### The effects of the coupling orders (R442) -/

/-- RESUME: none where its conditions fail. A standalone device has READY while RC_ESTAT.CFATAL is clear (R489). -/
def Dev.orderResume (d : Dev) (r : Nat) : Option Dev :=
  let t := d.tt
  let (n, at_, p) := t.lastAnn
  let ready := if t.role = 0 then !d.cfatal else t.nMiss == 0 && t.allReady
  if t.state = 5 ∧ t.hold ∧ d.bd.state = 2 ∧ n < r ∧ d.now + t.lead * usU ≤ at_ + (r - n) * p * nsU ∧ r < t.expiry ∧ ready then
    some { d with tt := { t with resume := some r } }
  else none

/-- LEASE: rejected once the TICK for the old EXPIRY has been sent (R443). -/
def Dev.orderLease (d : Dev) (epoch expiry : Nat) : Option Dev :=
  if epoch = d.tt.epoch ∧ d.tt.hold ∧ d.tt.tick < expiry ∧ d.tt.lastAnn.1 < d.tt.expiry then some { d with tt := { d.tt with expiry := expiry } } else none

/-- STAFF. -/
def Dev.orderStaff (d : Dev) (epoch expiry : Nat) : Option Dev :=
  if d.tt.state = 5 ∧ d.tt.epoch < epoch ∧ d.tt.tick < expiry then
    some { d with tt := { d.tt with role := 1, hold := true, epoch := epoch, expiry := expiry, cplParent := 0x1F,
                                    cplMaster := d.jn.devid } }
  else none

end Sys2Proof.Machine
end

