-- ==== Sys2Proof/Machine/Links.lean ====
section
/-! DEFINITION. The links at work: training, replay, recovery, credits and retirement (15_links_and_junction.md). -/

namespace Sys2Proof.Machine

/-- VIN_12V is on: links and junction work (R490, R542). -/
def Dev.powered (d : Dev) : Bool := d.pw.state == .boot || d.pw.state == .running

/-! ### Training (R401, R402) -/

/-- A mask with bit i set. -/
def mask8 (m : BitVec 8) (i : Nat) : BitVec 8 := BitVec.ofNat 8 (setBit m.toNat i true)

/-- The lanes of a mask. -/
def laneCount (m : BitVec 8) : Nat := ((List.range 8).filter (fun i => m.getLsbD i)).length

/-- EQUALISE goes on to ALIGN when every lane has been equalised or given up. -/
def Link.equalised (now : Nat) (k : Link) : Link :=
  if k.state == 1 && (k.trained ||| k.unusable) == 0xFF#8 then { k with state := 2, since := now } else k

/-- The time a lane has to train (R401). -/
def trainTime : Nat := 50000 * usU

/-- Lane failed to train in time (R401). -/
def Dev.laneTimeout (d : Dev) (l lane : Nat) : Dev :=
  let k := d.link l
  if !d.powered || k.state != 1 || k.trained.getLsbD lane then d
  else
    let d1 := d.notBefore (k.since + trainTime)
    d1.updLink l (fun k => { k with unusable := mask8 k.unusable lane }.equalised d1.now)

/-- A lane has been equalised (R401). -/
def Dev.laneTrained (d : Dev) (l lane : Nat) : Dev :=
  let k := d.link l
  if !d.powered || k.state != 1 || k.unusable.getLsbD lane then d
  else d.updLink l (fun k => { k with trained := mask8 k.trained lane }.equalised d.now)

/-- CAPS of this end: VMASK 0x0002, VHI 1, VMIN 0, its device ID, the link and its usable lanes (R396, R402). -/
def Dev.capsBytes (d : Dev) (l : Nat) : List Byte :=
  bytesLE 1 1 ++ bytesLE 2 2 ++ bytesLE 1 1 ++ bytesLE 1 0 ++ bytesLE 2 d.jn.devid ++ bytesLE 1 l ++ bytesLE 1 (d.link l).trained.toNat

/-- The partner's CAPS arrives in NEGOTIATE (R402): the link is UP with the common version and lanes, or FAILED. -/
def Link.caps (k : Link) (vmask : BitVec 16) (vhi vmin devid : Nat) (lanes : BitVec 8) : Link :=
  let maj := min 1 vhi
  let common := k.trained &&& lanes
  if k.state != 3 then k
  else if maj = 1 ∧ vmask.getLsbD 1 ∧ 4 ≤ laneCount common then
    { k with state := 4, peer := devid, lanes := common, vmaj := maj, vmin := min 0 vmin }
  else { k with state := 5, peer := devid }

/-! ### Acknowledgement and replay (R398 to R400) -/

/-- A LACK acknowledges the oldest flits of the replay buffer up to it. -/
def Link.ack (now lack : Nat) (k : Link) : Link :=
  match k.unacked with
  | [] => k
  | x :: _ =>
    let n := (lack + 1 + 65536 - x.lseq) % 65536
    if n = 0 ∨ k.unacked.length < n then k else { k with unacked := k.unacked.drop n, ackAt := now }

/-- A received LACK: what it covers leaves the replay buffer, and waiting flits follow. -/
def Dev.acked (d : Dev) (l lack : Nat) : Dev := (d.updLink l (Link.ack d.now lack)).sendAll l

/-- Unacknowledged flits are sent again, in order: each is a replay of that flit (R399, R486, R487). -/
def Dev.resend (d : Dev) (l lane : Nat) : List TxFlit → Dev
  | [] => d
  | x :: r => Dev.resend ((d.event 8 5 2 l (lane + x.lseq * 65536) false).emit (.flit l x.lseq (d.link l).lack x.flit)) l lane r

/-- Every unacknowledged flit is replayed; the oldest failed on a lane (R399). -/
def Dev.replayAll (d : Dev) (l lane : Nat) : Dev :=
  let k := d.link l
  let xs := match k.unacked.map (fun x => { x with replays := x.replays + 1 }) with
    | [] => []
    | x :: r => { x with lanes := x.lanes ++ [lane] } :: r
  (d.updLink l (fun k => { k with unacked := xs, replay := (k.replay + xs.length) % 2 ^ 32, ackAt := d.now })).resend l lane xs

/-- The lane that carried most of the failed attempts, the lowest-numbered on a tie (R400). -/
def worstLane (ls : List Nat) : Nat :=
  (List.range 8).foldl (fun m i => if (ls.filter (· == m)).length < (ls.filter (· == i)).length then i else m) 0

/-- One second, in units of time. -/
def secU : Nat := 1000000 * usU

/-- Failures of the last second. -/
def recent (now : Nat) (xs : List (Nat × Nat)) : List (Nat × Nat) := xs.filter (fun x => decide (now < x.2 + secU))

/-- Recovery begins at this end (R400): RECOVER is sent, and sequenced traffic stops until the lanes are realigned. -/
def Dev.recoverLink (d : Dev) (l : Nat) : Dev :=
  ((d.updLink l (fun k => { k with recovering := true, recov := true })).event 8 1 2 l 0 false).emit
    (.lctl l (bytesLE 1 6 ++ bytesLE 2 (d.link l).lack))

/-- The oldest flit is exhausted: it failed again after 8 replays, which is charged to a lane (R400). -/
def Dev.exhausted (d : Dev) (l : Nat) (lanes : List Nat) : Dev :=
  (d.updLink l (fun k => { k with exhaust := min 0xFFFF (k.exhaust + 1),
                                  exhT := recent d.now k.exhT ++ [(worstLane lanes, d.now)] })).recoverLink l

/-- Replays of a flit before it is exhausted (R400). -/
def maxReplays : Nat := 8

/-- The oldest unacknowledged flit failed on a lane: everything is replayed, or the flit is exhausted. -/
def Dev.retry (d : Dev) (l lane : Nat) : Dev :=
  let k := d.link l
  if !k.isUp || k.recovering then d
  else match k.unacked with
    | [] => d
    | x :: _ => if maxReplays ≤ x.replays then d.exhausted l (x.lanes ++ [lane]) else d.replayAll l lane

/-- A NAK with a LACK (R399). -/
def Dev.nakTaken (d : Dev) (l lane lack : Nat) : Dev := (d.acked l lack).retry l lane

/-- The time without an advance of LACK that makes a transmitter resend (R399). -/
def ackTime : Nat := 4 * usU

/-- LACK has not advanced (R399). -/
def Dev.ackTimeout (d : Dev) (l lane : Nat) : Dev :=
  if (d.link l).unacked.isEmpty || !d.powered then d else (d.notBefore ((d.link l).ackAt + ackTime)).retry l lane

/-- The lanes are aligned: ALIGN goes on to NEGOTIATE, and a recovery ends with every unacknowledged flit sent again, its replay
count reset (R400, R401). -/
def Dev.aligned (d : Dev) (l : Nat) : Dev :=
  let k := d.link l
  if !d.powered then d
  else if k.state == 2 then d.updLink l (fun k => { k with state := 3, since := d.now })
  else if k.isUp && k.recovering then
    (let xs := k.unacked.map (fun x => { x with replays := 0, lanes := [] })
     let d1 := d.updLink l (fun k => { k with recovering := false, unacked := xs, ackAt := d.now })
     (xs.foldl (fun u x => u.emit (.flit l x.lseq k.lack x.flit)) d1).sendAll l)
  else d

/-! ### Retirement (R405 to R408) -/

/-- A lane stops being used, and what it carried and is not accepted is replayed; below 4 lanes the link is retired, its
replay buffer discarded (R407, R408). -/
def Dev.retireLane (d : Dev) (l lane from_ : Nat) : Dev :=
  let k := d.link l
  if !k.isUp || !k.lanes.getLsbD lane then d
  else
    let lanes := k.lanes &&& ~~~(mask8 0 lane)
    let d1 := (d.event 8 2 3 l (lane + from_ * 65536) false).updLink l
      (fun k => { k with lanes := lanes, retired := mask8 k.retired lane })
    if laneCount lanes < 4 then
      ((d1.event 8 3 3 l 0 false).updLink l (fun k => { k with state := 6, unacked := [], recovering := false })).linkLost l
    else if k.recovering then d1 else d1.replayAll l lane

/-- Flit failures a lane may have within a second (R405). -/
def failLimit : Nat := 44

/-- A lane exceeds its threshold (R405). -/
def Link.over44 (k : Link) (now lane : Nat) : Bool :=
  decide (failLimit < ((recent now k.failT).filter (fun x => x.1 == lane)).length)
    || decide (3 ≤ ((recent now k.exhT).filter (fun x => x.1 == lane)).length)

/-- A lane over its threshold is retired, or with ARM = 0 reported (R406, R407). -/
def Dev.laneOver (d : Dev) (l lane : Nat) : Dev :=
  let k := d.link l
  if !k.isUp || !k.lanes.getLsbD lane || !k.over44 d.now lane then d
  else if k.arm then
    (d.emit (.lctl l (bytesLE 1 5 ++ bytesLE 1 lane ++ bytesLE 2 k.txSeq))).retireLane l lane k.txSeq
  else (d.updLink l (fun k => { k with overflow := true })).event 8 4 3 l lane false

/-! ### Receiving (R398, R399) -/

/-- A flit that fails its codewords or its CRC: counted against its lane, and a NAK is sent. -/
def Dev.flitFailed (d : Dev) (l lane : Nat) : Dev :=
  (d.updLink l (fun k => { k with fail := bump16 k.fail, failT := recent d.now k.failT ++ [(lane, d.now)], naking := true })).emit
    (.nak l (d.link l).lack)

/-- The flit with the LSEQ expected is accepted and passed to the junction. -/
def Dev.flitTaken (d : Dev) (l : Nat) (f : Flit) : Dev :=
  let d1 := d.updLink l (fun k => { k with rxNext := (k.rxNext + 1) % 65536, naking := false })
  { d1 with jn := { d1.jn with inq := d1.jn.inq ++ [(l, d.now, f)] } }

/-- A flit arrives on a lane of a link that is UP. -/
def Dev.flitReceive (d : Dev) (l lane : Nat) (ok : Bool) (lseq lack : Nat) (nak : Bool) (f : Flit) : Dev :=
  let k := d.link l
  if !d.powered || !k.isUp then d
  else if !ok then d.flitFailed l lane
  else
    let d1 := if nak then d.nakTaken l lane lack else d.acked l lack
    if k.recovering || lseq != k.rxNext then d1 else d1.flitTaken l f

/-! ### The junction's input and the endpoints (R396, R397, R409 to R416) -/

/-- The buffer of a flit that leaves the receiver's buffers returns its credit (R414). -/
def creditBytes (tc : Nat) : List Byte :=
  bytesLE 1 4 ++ (List.range 6).map (fun i => if i = tc then (1 : Byte) else 0)

/-- The junction takes the next flit that link l passed to it. -/
def Dev.routeNext (d : Dev) (l : Nat) : Dev :=
  match d.jn.inq.find? (fun x => x.1 == l) with
  | none => d
  | some (_, _, f) =>
    let d1 := { d with jn := { d.jn with inq := dropFirst (fun x => x.1 == l) d.jn.inq } }
    let d2 := if (d.link l).isUp && decide (f.tc.toNat < 6) then d1.emit (.lctl l (creditBytes f.tc.toNat)) else d1
    d2.junction l f

/-- Credits return from a partner: six counts, for TC 0 to TC 5 (R414). -/
def Dev.creditTaken (d : Dev) (l : Nat) (ret : List (BitVec 8)) : Dev :=
  if !(d.link l).isUp then d
  else (d.updLink l (fun k => (List.range 6).foldl (fun k tc =>
    { k with credits := k.credits.set tc (min creditMax (k.credit tc + (ret.getD tc 0).toNat)) }) k)).sendAll l

/-- A RECOVER from the partner (R400): what its LACK covers is acknowledged, and this end recovers too. -/
def Dev.recoverTaken (d : Dev) (l lack : Nat) : Dev :=
  if !(d.link l).isUp then d
  else
    let d1 := d.updLink l (Link.ack d.now lack)
    if (d.link l).recovering then d1 else d1.recoverLink l

/-- The latency of a link: half of the last round trip less HOLD, in ns (R403). -/
def Dev.echoed (d : Dev) (l t hold : Nat) : Dev :=
  if !(d.link l).isUp then d else d.updLink l (fun k => { k with lat := ((d.now / nsU - t - hold) / 2) % 65536 })

/-- An ECHO of this end, or the ECHOR that answers a partner's ECHO after some ns (R403). -/
def Dev.echo (d : Dev) (l : Nat) (answer : Option (Nat × Nat)) : Dev :=
  if !(d.link l).isUp || !d.powered then d
  else match answer with
    | none => d.emit (.lctl l (bytesLE 1 2 ++ bytesLE 8 (d.now / nsU)))
    | some (t, hold) => d.emit (.lctl l (bytesLE 1 3 ++ bytesLE 8 t ++ bytesLE 4 hold))

/-! ### The commands -/

/-- LINK_ENABLE (R401) -/
def execLinkEnable (h : Hart) (l : Fin 24) (v : Word) (s : State) := onDev s (fun d => d.unitWrite h (.lk l) 0 (v ||| 1#64))

/-- LINK_RESET (R558) -/
def execLinkReset (h : Hart) (l : Fin 24) (v : Word) (s : State) := onDev s (fun d => d.unitWrite h (.lk l) 0 (v ||| 4#64))

/-- Signal from the partner appears (R401). -/
def Dev.signalUp (d : Dev) (l : Nat) : Dev :=
  if d.powered then d.updLink l (fun k => { k with signal := true }.tryTrain d.now) else d

/-- LINK_SIGNAL_DETECT (R401) -/
def execLinkSignalDetect (l : Fin 24) (s : State) := onDev s (fun d => d.signalUp l)

/-- Signal from the partner is lost: a link reset of this end, which stays DOWN until signal returns (R554, R558). -/
def Dev.signalDown (d : Dev) (l : Nat) : Dev :=
  let d1 := d.updLink l (fun k => { k.resetLink with signal := false })
  if (d.link l).isUp then d1.linkLost l else d1

/-- LINK_SIGNAL_LOSS (R558) -/
def execLinkSignalLoss (l : Fin 24) (s : State) := onDev s (fun d => if d.powered then d.signalDown l else d)

/-- LANE_EQUALISED (R401) -/
def execLaneEqualised (l : Fin 24) (lane : Fin 8) (s : State) := onDev s (fun d => d.laneTrained l lane)

/-- LANE_TRAIN_TIMEOUT (R401) -/
def execLaneTrainTimeout (l : Fin 24) (lane : Fin 8) (s : State) := onDev s (fun d => d.laneTimeout l lane)

/-- ALIGNMENT_LOCK (R401, R400) -/
def execAlignmentLock (l : Fin 24) (s : State) := onDev s (fun d => d.aligned l)

/-- CAPS_SEND (R401): in NEGOTIATE. -/
def execCapsSend (l : Fin 24) (s : State) :=
  onDev s (fun d => if d.powered && (d.link l).state == 3 then d.emit (.lctl l (d.capsBytes l)) else d)

/-- CAPS (R402) -/
def execCaps (l : Fin 24) (vmask : BitVec 16) (vhi vmin : BitVec 8) (devid : BitVec 16) (lanes : BitVec 8) (s : State) :=
  onDev s (fun d => if d.powered then d.updLink l (fun k => k.caps vmask vhi.toNat vmin.toNat devid.toNat lanes) else d)

/-- ECHO (R403) -/
def execEcho (l : Fin 24) (answer : Option (Nat × Nat)) (s : State) := onDev s (fun d => d.echo l answer)

/-- ECHOR (R403) -/
def execEchor (l : Fin 24) (t hold : Nat) (s : State) := onDev s (fun d => if d.powered then d.echoed l t hold else d)

/-- FLIT_RECEIVE (R398) -/
def execFlitReceive (l : Fin 24) (lane : Fin 8) (ok : Bool) (lseq lack : BitVec 16) (nak : Bool) (f : Flit) (s : State) :=
  onDev s (fun d => d.flitReceive l lane ok lseq.toNat lack.toNat nak f)

/-- NAK_REPLAY (R399) -/
def execNakReplay (l : Fin 24) (lane : Fin 8) (lack : BitVec 16) (s : State) :=
  onDev s (fun d => if d.powered then d.nakTaken l lane lack.toNat else d)

/-- REPLAY_TIMEOUT (R399) -/
def execReplayTimeout (l : Fin 24) (lane : Fin 8) (s : State) := onDev s (fun d => d.ackTimeout l lane)

/-- RECOVER (R400) -/
def execRecover (l : Fin 24) (lack : BitVec 16) (s : State) :=
  onDev s (fun d => if d.powered then d.recoverTaken l lack.toNat else d)

/-- LANE_THRESHOLD (R406) -/
def execLaneThreshold (l : Fin 24) (lane : Fin 8) (s : State) := onDev s (fun d => if d.powered then d.laneOver l lane else d)

/-- RETIRE (R407) -/
def execRetire (l : Fin 24) (lane : Fin 8) (from_ : BitVec 16) (s : State) :=
  onDev s (fun d => if d.powered then d.retireLane l lane from_.toNat else d)

/-- CREDIT (R414) -/
def execCredit (l : Fin 24) (ret : List (BitVec 8)) (s : State) :=
  onDev s (fun d => if d.powered then d.creditTaken l ret else d)

/-- ROUTED_FLIT (R409) -/
def execRoutedFlit (l : Fin 24) (s : State) := onDev s (fun d => if d.powered then d.routeNext l else d)

end Sys2Proof.Machine
end

