-- ==== Sys2Proof/Machine/Fabric.lean ====
section
/-! DEFINITION. The shunters' commands, remote accesses over links, and the reductions' commands (R371 to R390, R396, R410,
R419 to R424). A transfer, a remote access or a reduction that reaches a scratchpad which is not ON starts its wake and
waits (R317). -/

namespace Sys2Proof.Machine

/-! ### Scratchpads that are not ON -/

/-- The stations whose scratchpads, at these physical addresses, do not serve accesses. -/
def Dev.asleep (d : Dev) (pas : List Nat) : List Nat := d.sleeping (pas.map (fun a => (a, TlbE.phys a)))

/-- The device goes on, or where scratchpads it needs are not ON, their wakes start. -/
def Dev.whenAwake (d : Dev) (pas : List Nat) (f : Dev → Dev) : Dev :=
  match d.asleep pas with
  | [] => f d
  | ks => d.wakeAll ks

/-- The physical addresses of n bytes from an address of a context, as far as they translate. -/
def Dev.ctxPas (d : Dev) (ctx : BitVec 17) (va : Word) (n : Nat) : List Nat :=
  (List.range n).filterMap (fun i => match d.dmaPlace ctx .load (va + word i).toNat with
    | .ok pa _ => some pa
    | .fault _ => none)

/-- The physical addresses of the local sides of a transfer. -/
def Dev.descPas (d : Dev) (ctx : BitVec 17) (x : Desc) : List Nat :=
  (List.range x.count).flatMap (fun b =>
    (if x.remote = 1 then [] else d.ctxPas ctx (x.srcAt b) 1) ++ (if x.remote = 2 then [] else d.ctxPas ctx (x.dstAt b) 1))

/-! ### Shunters -/

/-- The offset of SH_CTRL of channel c. -/
def ctrlOff (c : Nat) : Nat := 0x120 + 0x40 * c

/-- SH_GO (R378) -/
def execShGo (h : Hart) (e : Fin 16) (c : Fin 16) (v : Word) (s : State) :=
  onDev s (fun d => d.unitWrite h (.sh e) (ctrlOff c) ((v ||| 1#64) &&& ~~~2#64))

/-- SH_GO_CHAIN (R379) -/
def execShGoChain (h : Hart) (e : Fin 16) (c : Fin 16) (v : Word) (s : State) :=
  onDev s (fun d => d.unitWrite h (.sh e) (ctrlOff c) (v ||| 3#64))

/-- SH_STOP (R388) -/
def execShStop (h : Hart) (e : Fin 16) (c : Fin 16) (v : Word) (s : State) :=
  onDev s (fun d => d.unitWrite h (.sh e) (ctrlOff c) (v ||| 4#64))

/-- The channel reads its next descriptor. -/
def Dev.descriptorStart (d : Dev) (e c : Nat) : Dev :=
  d.whenAwake (d.ctxPas (d.chan e c).ctx (d.chan e c).chain 64) (fun d => d.descStart e c)

/-- DESCRIPTOR_START (R379) -/
def execDescriptorStart (e : Fin 16) (c : Fin 16) (s : State) := onDev s (fun d => d.descriptorStart e c)

/-- The transfer of a channel ends. -/
def Dev.transferDone (d : Dev) (e c : Nat) (data : List Byte) (reached : Nat) : Dev :=
  let y := d.chan e c
  let pas := if y.fin.isSome then [] else d.descPas y.ctx y.cur
  d.whenAwake (pas ++ (if y.isChain then d.ctxPas y.ctx y.chain 64 else [])) (fun d => d.transferEnd e c data reached)

/-- TRANSFER_END (R387): `data` holds, by stream number, the bytes that a host window delivered; `reached` is how far the
stream had come when a stop took effect. -/
def execTransferEnd (e : Fin 16) (c : Fin 16) (data : List (BitVec 8)) (reached : Nat) (s : State) :=
  onDev s (fun d => d.transferDone e c data reached)

/-! ### Remote accesses (R390, R396) -/

/-- The n physical addresses from an address. -/
def pasFrom (a n : Nat) : List Nat := upFrom a n

/-- The code with which an access to n bytes from an address is refused, if any: an address this device does not give, or
uncorrectable data (0x12). -/
def Dev.remoteBad (d : Dev) (ak : AK) (a n : Nat) : Option Nat :=
  (pasFrom a n).findSome? (fun pa => match d.remotePlace ak pa with
    | .fault c => some c
    | .ok p e => if ak == .load && (d.readLoc e p 1).2 then some 0x12 else none)

/-- The bytes of a remote read that is not refused. -/
def Dev.remoteBytes (d : Dev) (a n : Nat) : List Byte :=
  (pasFrom a n).map (fun pa => match d.remotePlace .load pa with
    | .ok p e => (d.readLoc e p 1).1.getD 0 0
    | .fault _ => 0)

/-- The bytes of a remote write that is not refused. -/
def Dev.remoteStore (d : Dev) (a : Nat) : List Byte → Dev
  | [] => d
  | b :: r => match d.remotePlace .store a with
    | .ok p e => Dev.remoteStore (d.writeLoc e p [b]).1 (a + 1) r
    | .fault _ => Dev.remoteStore d (a + 1) r

/-- A RESP to a request (R396). -/
def Dev.respond (d : Dev) (f : Flit) (status : Nat) (bs : List Byte) : Dev :=
  d.sendFlit (d.mkFlit 6 4 f.src.toNat false (respData (flitU f 12 8) (flitU f 20 2) (flitU f 22 1 + 1) status bs))

/-- A read request is served or refused. -/
def Dev.serveRead (d : Dev) (f : Flit) : Dev :=
  let a := flitU f 12 8
  let n := flitU f 22 1 + 1
  match d.remoteBad .load a n with
  | some c => (if c = 0x12 then d.poisonEvent a else d).respond f c []
  | none => d.respond f 0 (d.remoteBytes a n)

/-- A write request is served or refused; a posted one has no answer. -/
def Dev.serveWrite (d : Dev) (f : Flit) : Dev :=
  let a := flitU f 12 8
  let n := flitU f 22 1 + 1
  match d.remoteBad .store a n with
  | some c => if wantsResp f then d.respond f c [] else d
  | none =>
    let d1 := d.remoteStore a (flitBytes f 28 n)
    if wantsResp f then d1.respond f 0 [] else d1

/-- The first request of a kind that was delivered is served; its endpoints are those of a device that is not dead (R490). -/
def Dev.serveRequest (d : Dev) (kind : BitVec 4) (g : Dev → Flit → Dev) : Dev :=
  match d.takeInbox (fun f => f.kind == kind) with
  | (none, _) => d
  | (some (_, _, f), d1) =>
    match d.asleep (pasFrom (flitU f 12 8) (flitU f 22 1 + 1)) with
    | [] => if d.up then g d1 f else d1
    | ks => d.wakeAll ks

/-- RDREQ (R396) -/
def execRdreq (s : State) := onDev s (fun d => d.serveRequest 4 Dev.serveRead)

/-- WRREQ (R396) -/
def execWrreq (s : State) := onDev s (fun d => d.serveRequest 5 Dev.serveWrite)

/-- The channel whose request a RESP answers, by its tag. -/
def Dev.chanOf (d : Dev) (txn : Nat) : Option (Nat × Chan) :=
  d.sh.chans.entries.find? (fun p => match p.2.req with
    | some r => r.1 == txn
    | none => false)

/-- A response reaches the channel that asked; one that no channel waits for is dropped (R396). -/
def Dev.respTaken (d : Dev) : Dev :=
  match d.takeInbox (fun f => f.kind == 6) with
  | (none, _) => d
  | (some (_, _, f), d1) =>
    match d.chanOf (flitU f 20 2) with
    | some (k, y) => match y.req with
      | some (_, n, _) => d1.shResp (k / 16) (k % 16) n (flitU f 23 1) (flitBytes f 28 n)
      | none => d1
    | none => d1

/-- RESP (R396) -/
def execResp (s : State) := onDev s Dev.respTaken

/-- The time a remote request may take (R396). -/
def remoteTime : Nat := 10000 * usU

/-- A request has not been answered in time: the transfer ends with REMOTE, FCODE 0 (R396). -/
def Dev.remoteLate (d : Dev) (e c : Nat) : Dev :=
  match (d.chan e c).req with
  | some (_, n, t) => (d.notBefore (t + remoteTime)).shResp e c n 0x80 []
  | none => d

/-- REMOTE_TIMEOUT (R396) -/
def execRemoteTimeout (e : Fin 16) (c : Fin 16) (s : State) := onDev s (fun d => d.remoteLate e c)

/-- A load (no value) or a store of JN_RTDATA by a thread (R343, R410). -/
def Dev.routeData (d : Dev) (h : Hart) (v : Option Word) : Dev :=
  match v with
  | some w => d.unitWrite h .jn 0x10 w
  | none => if d.usable h.stn && (d.stn h.stn).live && ringMayReg (d.thr h).ring false .jn 0x10 then (d.regRead h .jn 0x10).1 else d

/-- ROUTE_DATA_ACCESS (R410) -/
def execRouteDataAccess (h : Hart) (v : Option Word) (s : State) := onDev s (fun d => d.routeData h v)

/-! ### Reductions (R419 to R424) -/

/-- GO of a group by a thread, once the descriptor's scratchpad is ON. -/
def Dev.reductionGo (d : Dev) (h : Hart) (g : Nat) (v : Word) : Dev :=
  d.whenAwake (d.ctxPas (d.jn.grp g).ctx (word (wfld v 47 6 * 64)) 64)
    (fun d => d.unitWrite h .jn (0x200 + 8 * g) (v ||| 1#64))

/-- REDUCTION_GO (R419) -/
def execReductionGo (h : Hart) (g : Fin 16) (v : Word) (s : State) := onDev s (fun d => d.reductionGo h g v)

/-- The physical addresses of n elements of a chunk, from SRC or DST. -/
def Dev.redPas (d : Dev) (g base first n : Nat) : List Nat :=
  match (d.jn.grp g).inst with
  | some i => d.ctxPas (d.jn.grp g).ctx (addr48 base + word (first * fmtBytes i.fmt)) (n * fmtBytes i.fmt)
  | none => []

/-- The places chunk c of a group's result is written to. -/
def Dev.redDst (d : Dev) (g c : Nat) : List Nat :=
  match (d.jn.grp g).inst with
  | some i => d.redPas g i.dst (c * i.per) (i.inChunk c)
  | none => []

/-- The next chunk of a group's local operand is read. -/
def Dev.localArrives (d : Dev) (g : Nat) : Dev :=
  match (d.jn.grp g).inst with
  | some i => d.whenAwake (d.redPas g i.src (i.nextLocal * i.per) (i.inChunk i.nextLocal) ++ d.redDst g i.nextLocal)
      (fun d => d.localOperand g)
  | none => d

/-- LOCAL_OPERAND_ARRIVAL (R421) -/
def execLocalOperandArrival (g : Fin 16) (s : State) := onDev s (fun d => d.localArrives g)

/-- The first RED flit delivered is taken. -/
def Dev.redArrives (d : Dev) : Dev :=
  match d.takeInbox (fun f => f.kind == 7) with
  | (none, _) => d
  | (some (l, _, f), d1) =>
    if !d.up then d1
    else match d.asleep (d.redDst (flitU f 12 1 % 16) (flitU f 20 4)) with
      | [] => d1.redTake l f
      | ks => d.wakeAll ks

/-- RED (R421) -/
def execRed (s : State) := onDev s Dev.redArrives

/-- The end of a group's instance, once the descriptor's scratchpad is ON. -/
def Dev.reductionDone (d : Dev) (g : Nat) : Dev :=
  d.whenAwake (d.ctxPas (d.jn.grp g).ctx (word (d.jn.grp g).addr) 64) (fun d => d.reductionEnd g)

/-- REDUCTION_END (R419) -/
def execReductionEnd (g : Fin 16) (s : State) := onDev s (fun d => d.reductionDone g)

end Sys2Proof.Machine
end

