-- ==== Sys2Proof/Machine/Memory.lean ====
section
/-! DEFINITION. Core loads and stores, the scratchpad atomics, fences, calls with a register mask, and the events that serve
waiting accesses (R52 to R54, R65 to R70). `hit` says whether a cacheable access finds its line in the L1 (log entry 9). -/

namespace Sys2Proof.Machine

/-- A core load or store, whose encoding leaves no field unused (R65). -/
def Dev.ldst (d : Dev) (h : Hart) (op : MemOp) (hit : Bool) : Dev := d.issue h 4 (fun d1 => d1.memRun h op false hit)

def execLb (h : Hart) (rd rs1 : Fin 32) (imm : BitVec 15) (hit : Bool) (s : State) := onDev s (fun d => d.ldst h (.ld .b rd rs1 imm) hit)
def execLbu (h : Hart) (rd rs1 : Fin 32) (imm : BitVec 15) (hit : Bool) (s : State) := onDev s (fun d => d.ldst h (.ld .bu rd rs1 imm) hit)
def execLh (h : Hart) (rd rs1 : Fin 32) (imm : BitVec 15) (hit : Bool) (s : State) := onDev s (fun d => d.ldst h (.ld .h rd rs1 imm) hit)
def execLhu (h : Hart) (rd rs1 : Fin 32) (imm : BitVec 15) (hit : Bool) (s : State) := onDev s (fun d => d.ldst h (.ld .hu rd rs1 imm) hit)
def execLw (h : Hart) (rd rs1 : Fin 32) (imm : BitVec 15) (hit : Bool) (s : State) := onDev s (fun d => d.ldst h (.ld .w rd rs1 imm) hit)
def execLwu (h : Hart) (rd rs1 : Fin 32) (imm : BitVec 15) (hit : Bool) (s : State) := onDev s (fun d => d.ldst h (.ld .wu rd rs1 imm) hit)
def execLd (h : Hart) (rd rs1 : Fin 32) (imm : BitVec 15) (hit : Bool) (s : State) := onDev s (fun d => d.ldst h (.ld .d rd rs1 imm) hit)
def execSb (h : Hart) (rd rs1 : Fin 32) (imm : BitVec 15) (hit : Bool) (s : State) := onDev s (fun d => d.ldst h (.st .b rd rs1 imm) hit)
def execSh (h : Hart) (rd rs1 : Fin 32) (imm : BitVec 15) (hit : Bool) (s : State) := onDev s (fun d => d.ldst h (.st .h rd rs1 imm) hit)
def execSw (h : Hart) (rd rs1 : Fin 32) (imm : BitVec 15) (hit : Bool) (s : State) := onDev s (fun d => d.ldst h (.st .w rd rs1 imm) hit)
def execSd (h : Hart) (rd rs1 : Fin 32) (imm : BitVec 15) (hit : Bool) (s : State) := onDev s (fun d => d.ldst h (.st .d rd rs1 imm) hit)

/-- A scratchpad atomic (R67). -/
def execAaddW (h : Hart) (rd rs1 rs2 : Fin 32) (s : State) := onDev s (fun d => d.ldst h (.amo .addW rd rs1 rs2) true)
def execAaddD (h : Hart) (rd rs1 rs2 : Fin 32) (s : State) := onDev s (fun d => d.ldst h (.amo .addD rd rs1 rs2) true)
def execAaddF (h : Hart) (rd rs1 rs2 : Fin 32) (s : State) := onDev s (fun d => d.ldst h (.amo .addF rd rs1 rs2) true)
def execAswapW (h : Hart) (rd rs1 rs2 : Fin 32) (s : State) := onDev s (fun d => d.ldst h (.amo .swapW rd rs1 rs2) true)
def execAswapD (h : Hart) (rd rs1 rs2 : Fin 32) (s : State) := onDev s (fun d => d.ldst h (.amo .swapD rd rs1 rs2) true)

/-- PREF is a hint that never faults and never changes a result; its rd field is g0 (R67). -/
def execPref (h : Hart) (rd rs1 : Fin 32) (imm : BitVec 15) (s : State) :=
  onDev s (fun d => d.issue h 4 (fun d1 =>
    if rd ≠ 0 then d1.illegal h (encI 0x25 rd rs1 imm) else d1.finish h 4 1 id))

/-- FENCE completes when every earlier store of the thread has been acknowledged; until then the thread waits (R66, R321). -/
def execFence (h : Hart) (rd rs1 rs2 : Fin 32) (s : State) :=
  onDev s (fun d => d.issue h 4 (fun d1 =>
    if rd ≠ 0 ∨ rs1 ≠ 0 ∨ rs2 ≠ 0 then d1.illegal h (encA 0x26 0x000 rd rs1 rs2)
    else if (d1.thr h).acks ≠ 0 then d1.block h .fence
    else d1.finish h 4 1 id))

/-- FENCE.I: later fetches see every earlier store. The model holds no fetched instruction back, so it completes (R66). -/
def execFenceI (h : Hart) (rd rs1 rs2 : Fin 32) (s : State) :=
  onDev s (fun d => d.issue h 4 (fun d1 =>
    if rd ≠ 0 ∨ rs1 ≠ 0 ∨ rs2 ≠ 0 then d1.illegal h (encA 0x26 0x001 rd rs1 rs2)
    else d1.finish h 4 1 id))

/-- MASK32 bits 0 and 31 must be zero (R70). -/
def maskBad (mask : BitVec 32) : Bool := mask.getLsbD 0 || mask.getLsbD 31

def execCallm (h : Hart) (off : BitVec 25) (mask : BitVec 32) (hit : Bool) (s : State) :=
  onDev s (fun d => d.issue h 8 (fun d1 =>
    if maskBad mask then d1.illegal h (encEJ 0x15 off mask) else d1.memRun h (.callm off mask) false hit))

/-- CALLMR uses rs1 and the mask; its other fields are zero (R58, R68). -/
def execCallmr (h : Hart) (rd rs1 rs2 : Fin 32) (fn : BitVec 10) (mask : BitVec 32) (hit : Bool) (s : State) :=
  onDev s (fun d => d.issue h 8 (fun d1 =>
    if maskBad mask ∨ rd ≠ 0 ∨ rs2 ≠ 0 ∨ fn ≠ 0 then d1.illegal h (encE 0x16 rd rs1 rs2 fn mask)
    else d1.memRun h (.callmr rs1 mask) false hit))

/-- RETM uses the mask alone (R58, R69). -/
def execRetm (h : Hart) (rd rs1 rs2 : Fin 32) (fn : BitVec 10) (mask : BitVec 32) (hit : Bool) (s : State) :=
  onDev s (fun d => d.issue h 8 (fun d1 =>
    if maskBad mask ∨ rd ≠ 0 ∨ rs1 ≠ 0 ∨ rs2 ≠ 0 ∨ fn ≠ 0 then d1.illegal h (encE 0x17 rd rs1 rs2 fn mask)
    else d1.memRun h (.retm mask) false hit))

/-! ### Events -/

/-- A station gives back a request slot; a thread that waits for one becomes ready (R54). -/
def Station.freeSlot (s : Station) : Station :=
  let s1 := { s with slots := s.slots - 1 }
  match ([0, 1, 2, 3] : List (Fin 4)).find? (fun t => (s1.thr t).wait == .slot) with
  | some t => s1.wakeUp t
  | none => s1

/-- A reply failed: a host window or a location without its own mark delivers MCHK with a free value (R448). -/
def Dev.serveFailed (d : Dev) (h : Hart) (op : MemOp) (locs : List (Nat × TlbE)) : Dev :=
  match locs with
  | (pa, _) :: _ =>
    (match region pa with
     | .host _ => let (d1, v) := d.poisoned h pa; d1.serve h op locs v
     | _ => (d.poisonAt pa).serve h op locs 0)
  | [] => d.serve h op locs 0

/-- The reply to the access a thread waits for arrives: the access completes and the thread becomes ready (R54). `data` is
what a host delivered, `err` an uncorrectable error, `crc` the failed CRC attempts of a GDDR7 access (R357). -/
def Dev.missReply (d : Dev) (h : Hart) (data : Word) (err : Bool) (crc : Fin 6) : Dev :=
  if !(d.stn h.stn).live then d
  else match (d.thr h).wait with
    | .reply op locs =>
      let d1 := (d.updStn h.stn Station.freeSlot).crcOutcome ((locs.map (·.1)).headD 0) crc
      if err then d1.serveFailed h op locs else d1.serve h op locs data
    | _ => d

def execMissReply (h : Hart) (data : Word) (err : Bool) (crc : Fin 6) (s : State) := onDev s (fun d => d.missReply h data err crc)

/-- A walk a thread waits for ends: its access is checked and served, or it faults (R52, R353). -/
def execTranslationWalkEnd (h : Hart) (s : State) :=
  onDev s (fun d =>
    if !(d.stn h.stn).live then d
    else match (d.thr h).wait with
      | .walk op =>
        let d1 := (d.updThr h (fun t => { t with wait := .ready })).memRun h op true true
        d1.updStn h.stn (fun s => if (s.thr h.thr).wait = .ready then s.wakeUp h.thr else s)
      | _ => d)

/-- A store of a thread is acknowledged: its request slot is free, and a FENCE that waits for it may issue (R66, R321). -/
def execStoreAcknowledge (h : Hart) (s : State) :=
  onDev s (fun d =>
    if (d.thr h).acks = 0 then d
    else (d.updThr h (fun t => { t with acks := t.acks - 1 })).updStn h.stn (fun s =>
      let s1 := s.freeSlot
      if (s1.thr h.thr).acks = 0 ∧ (s1.thr h.thr).wait = .fence then s1.wakeUp h.thr else s1))

end Sys2Proof.Machine
end

