-- ==== Sys2Proof/Machine/HostRows.lean ====
section
/-! DEFINITION. The commands of the host ports and of the waybill ledger (17_host_waybills_ledger.md; R487, R503, R559). -/

namespace Sys2Proof.Machine

/-! ### Doorbells, acceptance, flushes (R449 to R455) -/

/-- What the ledger logic does happens only while the device is powered and has met no device-fatal error (R490). -/
def Dev.whenUp (d : Dev) (f : Dev → Dev) : Dev := if d.up then f d else d

/-- PROD (R449): a doorbell write that has reached the LD_ page with the rights of R450. -/
def execProd (q : Fin 16) (v : BitVec 32) (s : State) := onDev s (fun d => d.whenUp (fun d => d.doorbell q v.toNat))

/-- RETIRE_DOORBELL (R450) -/
def execRetireDoorbell (q : Fin 16) (v : Word) (s : State) := onDev s (fun d => d.whenUp (fun d => d.retireBell q v))

/-- WAYBILL_CHECK (R453 to R456) -/
def execWaybillCheck (q : Fin 16) (s : State) := onDev s (fun d => d.whenUp (fun d => d.waybillCheck q))

/-- FLUSH_COMPLETE (R454, R456, R463) -/
def execFlushComplete (q : Fin 16) (s : State) := onDev s (fun d => d.whenUp (fun d => d.flushComplete q))

/-- GPFTO (R454) -/
def execGpfto (q : Fin 16) (s : State) := onDev s (fun d => d.whenUp (fun d => d.flushLate q))

/-! ### Operations on waybills (R459 to R464) -/

/-- A write of LD_OP with an operation code. -/
def Dev.ldOpWrite (d : Dev) (h : Hart) (v : Word) (op : Nat) : Dev := d.unitWrite h .ld 8 ((v &&& ~~~7#64) ||| word op)

/-- START (R459) -/
def execStart (h : Hart) (v : Word) (s : State) := onDev s (fun d => d.ldOpWrite h v 1)

/-- COMMIT (R460, R462) -/
def execCommit (h : Hart) (v : Word) (s : State) := onDev s (fun d => d.ldOpWrite h v 2)

/-- FAIL (R459) -/
def execFail (h : Hart) (v : Word) (s : State) := onDev s (fun d => d.ldOpWrite h v 3)

/-- LEDGER_SWITCH (R463) -/
def execLedgerSwitch (q : Fin 16) (s : State) := onDev s (fun d => d.whenUp (fun d => d.ledgerSwitch q))

/-- RECOVER_LEDGER (R466): a write of LD_CTRL with RECOVER set. -/
def execRecoverLedger (h : Hart) (v : Word) (s : State) := onDev s (fun d => d.unitWrite h .ld 0 (v ||| 1#64))

/-- LEDGER_RECOVERY_END (R466) -/
def execLedgerRecoveryEnd (q : Fin 16) (s : State) := onDev s (fun d => d.whenUp (fun d => d.recoveryEnd q))

/-! ### RDMA (R445 to R448) -/

/-- A request on a host port whose link is up; a mark of congestion is answered with a congestion notification (R445). -/
def Dev.hostRequest (d : Dev) (p qpn : Nat) (ecn : Bool) (f : Dev → Dev) : Dev :=
  if d.up && (d.host.port p).up then (let d1 := f d; if ecn then d1.emit (.cnp p qpn) else d1) else d

/-- RDMA_WRITE (R446, R447) -/
def execRdmaWrite (p : Fin 4) (qpn : Fin 1024) (pa : BitVec 48) (rkey : BitVec 32) (bytes : List (BitVec 8)) (ecn : Bool)
    (s : State) :=
  onDev s (fun d => d.hostRequest p qpn ecn (fun d => d.rdmaWrite p qpn pa.toNat rkey.toNat bytes))

/-- RDMA_READ (R446, R447) -/
def execRdmaRead (p : Fin 4) (qpn : Fin 1024) (pa : BitVec 48) (rkey n : BitVec 32) (ecn : Bool) (s : State) :=
  onDev s (fun d => d.hostRequest p qpn ecn (fun d => d.rdmaRead p qpn pa.toNat rkey.toNat n.toNat))

/-- RDMA_ATOMIC: NAK invalid request, and no effect (R446). On an unbound queue pair the answer is R447's. -/
def execRdmaAtomic (p : Fin 4) (qpn : Fin 1024) (ecn : Bool) (s : State) :=
  onDev s (fun d => d.hostRequest p qpn ecn (fun d => d.emit (.rdmaNak p qpn (d.qp p qpn).isSome)))

/-- The sending rate of a queue pair is lowered once more (R445). -/
def Dev.slow (d : Dev) (p qpn : Nat) : Dev :=
  { d with host := { d.host with qps := d.host.qps.map (fun x =>
    if x.port = p ∧ x.qpn = qpn then { x with slowed := x.slowed + 1 } else x) } }

/-- CONGESTION_NOTIFICATION (R445) -/
def execCongestionNotification (p : Fin 4) (qpn : Fin 1024) (s : State) :=
  onDev s (fun d => d.hostRequest p qpn false (fun d => d.slow p qpn))

/-- A channel's operation on a host window fails at a stream byte: the bytes before it, in whole swap units, have moved, and
the transfer ends with DATA (R387, R448). -/
def Dev.chanRdmaFails (d : Dev) (e c : Nat) (data : List Byte) (done : Nat) : Dev :=
  let y := d.chan e c
  let x := y.cur
  if y.mode ≠ 2 ∨ y.fin.isSome ∨ x.remote ≠ 0 ∨ x.count ≤ done then d
  else
    let u := (swapUnit x.swap).getD 1
    let n := done / u * u
    let host (r : Xlat) : Bool := match r with
      | .ok pa _ => (match region pa with
        | .host _ => true
        | _ => false)
      | .fault _ => false
    let s := x.srcAt n
    let t := x.dstAt n
    let f : Fin_ := match d.firstFault y.ctx x 0 n with
      | some f => { f with done := f.done / u * u }
      | none => ⟨0x10, 0x12, n, if host (d.dmaPlace y.ctx .load s.toNat) then s else t⟩
    if f.status = 0x10 ∧ f.done = n ∧ !host (d.dmaPlace y.ctx .load s.toNat) ∧ !host (d.dmaPlace y.ctx .store t.toNat) then d
    else (d.moveBytes y.ctx x data 0 f.done).updChan e c (fun z => { z with fin := some f, done := f.done })

/-- What an operation of this device on a host window failed for. -/
def Dev.rdmaFails (d : Dev) (w : RdmaFor) : Dev :=
  match w with
  | .thread h =>
    (match (d.thr h).wait with
     | .reply _ ((pa, _) :: _) => (match region pa with
       | .host _ => d.missReply h 0 true 0
       | _ => d)
     | _ => d)
  | .store h off =>
    if (d.stn h.stn).live && decide ((d.thr h).acks ≠ 0) then
      d.raiseMchk h.stn h.thr (word (0x40000000000 + off.toNat))
    else d
  | .chan e c data done => d.chanRdmaFails e c data done

/-- RDMA_RETRY_EXHAUSTED: an operation ended with a NAK, exhausted its retries, or found its port down (R448). -/
def execRdmaRetryExhausted (w : RdmaFor) (s : State) := onDev s (fun d => d.whenUp (fun d => d.rdmaFails w))

/-! ### Host ports (R444, R487, R503, R559) -/

/-- HPRST: a write of CK_RST whose only nonzero field is HPRST (R559). -/
def execHprst (h : Hart) (v : Word) (s : State) := onDev s (fun d => d.unitWrite h .ck 0 (v &&& 0xF00#64))

/-- The host port of the boot source, if the source is one (R501). -/
def Sec.bootPort (s : Sec) : Option Nat := if s.strap.toNat % 4 = 1 then some (s.strap.toNat / 4) else none

/-- The boot ROM waits for an image, or verifies one (R502). -/
def Dev.booting (d : Dev) : Bool := d.pw.state == .boot && !d.dfatal

/-- The link of a host port goes down: an EVENT entry; the boot's connection over it breaks (R487, R503). -/
def Dev.hostDown (d : Dev) (p : Nat) : Dev :=
  if !(d.host.port p).up then d
  else
    let d1 := (d.updPort p (fun x => { x with up := false })).event 0x0B 1 0 p 0 false
    if d1.sec.bootPort = some p ∧ d1.booting then { d1 with sec := { d1.sec with cm := none, tryAt := d1.now } } else d1

/-- HOST_LINK_DOWN (R487) -/
def execHostLinkDown (p : Fin 4) (s : State) := onDev s (fun d => d.hostDown p)

/-- HOST_LINK_UP: the link of an enabled port has trained (R444, R503). -/
def execHostLinkUp (p : Fin 4) (s : State) :=
  onDev s (fun d => d.whenUp (fun d => if (d.host.port p).en then d.updPort p (fun x => { x with up := true }) else d))

/-- A boot link that is not up after 500 ms is tried in the other LMODE (R503). -/
def Dev.bootLinkLate (d : Dev) : Dev :=
  match d.sec.bootPort with
  | some p =>
    if d.booting && (d.host.port p).en && !(d.host.port p).up then
      (let d1 := (d.notBefore (d.sec.tryAt + 500000 * usU)).updPort p (fun x => { x with lmode := 1 - x.lmode })
       { d1 with sec := { d1.sec with tryAt := d1.now } })
    else d
  | none => d

/-- BOOT_LINK_TIMEOUT (R503) -/
def execBootLinkTimeout (s : State) := onDev s Dev.bootLinkLate

/-- The code of a path MTU the device supports (R445, R474). -/
def mtuCode (mtu : Nat) : Option Nat :=
  if mtu = 1024 then some 0 else if mtu = 2048 then some 1 else if mtu = 4096 then some 2 else none

/-- A connection request reaches the boot's host port: the first for a reliable connection to queue pair 0 with a supported
path MTU is accepted; while it stands, others are rejected (R503). -/
def Dev.cmRequest (d : Dev) (p rqpn : Nat) (rc qp0 : Bool) (mtu : Nat) : Dev :=
  if !d.booting || d.sec.bootPort != some p || !(d.host.port p).up then d
  else match mtuCode mtu with
    | some m =>
      if rc && qp0 && d.sec.cm.isNone then
        { d with sec := { d.sec with cm := some (p, rqpn, m) } }.emit (.cm p rqpn true)
      else d.emit (.cm p rqpn false)
    | none => d.emit (.cm p rqpn false)

/-- CM_CONNECT (R503) -/
def execCmConnect (p : Fin 4) (rqpn : BitVec 24) (rc qp0 : Bool) (mtu : BitVec 16) (s : State) :=
  onDev s (fun d => d.cmRequest p rqpn.toNat rc qp0 mtu.toNat)

end Sys2Proof.Machine
end

