-- ==== Sys2Proof/Machine/Power.lean ====
section
/-! DEFINITION. The commands of the recorder, of faults, of power and reset, register writes, and the pins that follow the
state (R10, R487, R490, R496 to R500, R542 to R560, R566, R571). -/

namespace Sys2Proof.Machine

/-! ### The recorder (R498 to R500) -/

/-- RC_FREEZE (R499): a write of RC_CTRL with FREEZE set. -/
def execRcFreeze (h : Hart) (v : Word) (s : State) := onDev s (fun d => d.unitWrite h .rc 0 (v ||| 1#64))

/-- UNFREEZE (R499) -/
def execUnfreeze (h : Hart) (v : Word) (s : State) := onDev s (fun d => d.unitWrite h .rc 0 (v ||| 2#64))

/-- CLEAR (R500) -/
def execClear (h : Hart) (v : Word) (s : State) := onDev s (fun d => d.unitWrite h .rc 0 (v ||| 4#64))

/-- RC_RIDX_WRITE (R500) -/
def execRcRidxWrite (h : Hart) (v : Word) (s : State) := onDev s (fun d => d.unitWrite h .rc 0x18 v)

/-- RECORDER_QUEUE_DRAIN (R498): the recorder is on standby power and serves in every state but OFF (R496, R542). -/
def execRecorderQueueDrain (s : State) :=
  onDev s (fun d => if d.pw.state = .off then d else { d with rc := d.rc.drain d.now })

/-! ### Faults (R487, R489, R490) -/

/-- ARCHITECTURAL_STATE_ERROR (R487): registers (0), tile registers (1) or accumulator sets (2) of a station. -/
def execArchitecturalStateError (n : Fin 128) (kind : Fin 3) (s : State) :=
  onDev s (fun d => d.whenUp (fun d => if d.present n then d.containedHalt 1 3 n kind else d))

/-- The recorder's code of a device-fatal error, and whether it is in the junction (R487, R497). -/
def fatalCode : FatalSrc → Nat × Nat × Bool
  | .timetable => (0x0D, 1, false)
  | .routeTable => (0x0D, 2, true)
  | .junction => (0x0D, 3, true)
  | .ledger => (0x0D, 4, false)
  | .keySlot => (0x0D, 5, false)
  | .regulator => (0x0C, 1, false)

/-- The device has power from VIN_12V. -/
def Dev.railsOn (d : Dev) : Bool := d.pw.state == .boot || d.pw.state == .running

/-- DEVICE_FATAL (R490): `iod` names the I/O die of a device-logic error. -/
def execDeviceFatal (x : FatalSrc) (iod : Fin 4) (data : Word) (s : State) :=
  onDev s (fun d =>
    if !d.railsOn then d
    else
      let (src, code, jn) := fatalCode x
      d.fatal src code (if src = 0x0D then iod.val else 0) data.toNat jn)

/-! ### Power (R542, R549, R550, R555, R566) -/

/-- THERMAL_TRIP (R549): the device-fatal actions, then every rail of VIN_12V is off. -/
def execThermalTrip (s : State) :=
  onDev s (fun d => if d.railsOn then (d.fatal 0x0C 3 0 0 false).railsOff .tripped else d)

/-- REFERENCE_LOSS (R550): the bits of CK_STAT.LOCK that are lost, of the reference and the four PLLs. -/
def execReferenceLoss (lost : BitVec 8) (s : State) :=
  onDev s (fun d =>
    let m := d.pw.lock &&& lost &&& 0x8F#8
    if !d.railsOn || m == 0 then d
    else { d with pw := { d.pw with lock := d.pw.lock &&& ~~~m } }.fatal 0x0C 2 0 0 false)

/-- VIN_LOSS (R566 step 3) -/
def execVinLoss (s : State) :=
  onDev s (fun d => if d.railsOn then (d.fatal 0x0C 1 0 0 false).railsOff .standby else d)

/-- VDD_STBY_LOSS (R566 step 4) -/
def execVddStbyLoss (s : State) :=
  onDev s (fun d =>
    if d.pw.state = .off then d else (if d.railsOn then d.fatal 0x0C 1 0 0 false else d).standbyLost)

/-- STANDBY_POWER_APPLIED (R555): the recorder and the accounting start, and the recorder records it. -/
def execStandbyPowerApplied (s : State) :=
  onDev s (fun d =>
    if d.pw.state = .off then
      { d with pw := { d.pw with state := .standby }, rc := Rec.reset, bd := Binding.reset }.event 0x0E 2 0 0 0 false
    else d)

/-- RAILS_UP (R555, R566): the cold reset with which the rails come up from STANDBY, with the straps and the GDDR7 channels that
fail their test. -/
def execRailsUp (strap : BitVec 4) (bad : List (Fin 96)) (s : State) :=
  onDev s (fun d => if d.pw.state = .standby then d.coldReset 1 strap (bad.map Fin.val) true else d)

/-! ### Resets (R554 to R557, R560) -/

/-- COLD_RST_N (R555): from TRIPPED it is accepted only when every sensor has cooled, and the rails come up with it (R549). -/
def execColdRstN (strap : BitVec 4) (bad : List (Fin 96)) (cool : Bool) (s : State) :=
  onDev s (fun d =>
    if d.railsOn then d.coldReset 2 strap (bad.map Fin.val) false
    else if d.pw.state = .tripped && cool then d.coldReset 2 strap (bad.map Fin.val) true
    else d)

/-- WARM_RST_N (R556) -/
def execWarmRstN (strap : BitVec 4) (s : State) := onDev s (fun d => d.warmReset 3 strap)

/-- WARM: a write of CK_RST with WARM set (R554, R556). -/
def execWarm (h : Hart) (v : Word) (s : State) := onDev s (fun d => d.unitWrite h .ck 0 (v ||| 1#64))

/-- STATION_RESET: a write of CK_SRSTj (R557). -/
def execStationReset (h : Hart) (j : Fin 2) (v : Word) (s : State) := onDev s (fun d => d.unitWrite h .ck (8 + 8 * j) v)

/-! ### Register writes (R10) -/

/-- REGISTER_WRITE: a 64-bit write by a hart at the physical address of a register (R332, R342, R343). -/
def execRegisterWrite (h : Hart) (pa : BitVec 48) (v : Word) (s : State) :=
  onDev s (fun d =>
    match region pa.toNat with
    | .reg u off => if off % 8 = 0 then d.unitWrite h u off v else d
    | _ => d)

/-! ### Pins (R571) -/

/-- An open-drain output of the device. -/
inductive Pin where
  | lockupN
  | alertN
  | thermtripN
  deriving DecidableEq, Repr

/-- A source of ALERT_N is present: a late phase with TT_CTRL.LATE_ALERT (R37), a partition (R436), or RC_ESTAT. -/
def Dev.alerting (d : Dev) : Bool :=
  (d.tt.lateAlert && d.tt.err.getLsbD 0) || (d.tt.role == 2 && d.tt.state == 5 && d.tt.reason == 4)
    || d.cfatal || d.dfatal || d.retireEv

/-- Whether an output is low: released while its supply is off, and while the test access port drives or releases it, none or
released (R571, R575). -/
def Dev.pinLow (d : Dev) (p : Pin) : Option Bool :=
  if d.railsOn && (d.tap.ir == 0 || d.tap.ir == 4) then none
  else if d.railsOn && d.tap.ir == 3 then some false
  else match p with
    | .lockupN => some (d.railsOn && d.stns.entries.any (fun x => x.2.locked))
    | .alertN => some (d.railsOn && d.alerting)
    | .thermtripN => some (d.pw.state == .tripped)

end Sys2Proof.Machine
end

