-- ==== Sys2Proof/Machine/Jtag.lean ====
section
/-! DEFINITION. The test access port and its private station read-out (R516, R575 to R577). -/

namespace Sys2Proof.Machine

/-- IDCODE by stepping (R576). -/
def idcode (step : BitVec 8) : Nat := if step = 0xA0 then 0x0E18056B else if step = 0xA1 then 0x1E18056B else 0x2E18056B

/-- The value a space and index of STNADDR name in a station, if any: a control number, a general register, or a 64-bit word of
a vector register, 256 to a register (R575). -/
def Dev.stnValue (d : Dev) (h : Hart) (space idx : Nat) : Option Word :=
  if space = 0 then d.cr h idx
  else if space = 1 then (if idx < 32 then some ((d.thr h).gr idx) else none)
  else if space = 2 then
    (if idx < 8192 then some (word (((d.thr h).v.getD (idx / 256) 0).toNat >>> (64 * (idx % 256)))) else none)
  else none

/-- What STNDATA captures: the addressed value of a present station that is locked or held in station reset; otherwise all ones
(R577). -/
def Dev.stnData (d : Dev) : Word :=
  let n := d.tap.stnsel.toNat % 512
  let a := d.tap.stnaddr.toNat
  if h : n < 128 then
    (if d.present n && ((d.stn n).locked || (d.stn n).held) then
      (d.stnValue ⟨⟨n, h⟩, ⟨fld a 29 28 % 4, Nat.mod_lt _ (by decide)⟩⟩ (fld a 31 30) (fld a 27 0)).getD (BitVec.allOnes 64)
     else BitVec.allOnes 64)
  else BitVec.allOnes 64

/-- The instruction in force: a private one selects the bypass register until a DEBUG order has been accepted (R577). -/
def Dev.tapIr (d : Dev) : Nat :=
  let i := d.tap.ir.toNat
  if 0x20 ≤ i ∧ i ≤ 0x22 ∧ !d.sec.dbg then 0xFF else i

/-- A number's n low bits, the least significant first. -/
def scanBits (n v : Nat) : List (Option Bool) := (List.range n).map (fun i => some (v.testBit i))

/-- The contents a data scan captures, the bit shifted out first at the front; none where the spec fixes no value. -/
def Dev.tapCapture (d : Dev) : List (Option Bool) :=
  let i := d.tapIr
  if i = 0 ∨ i = 1 then List.replicate Config.boundaryLen none
  else if i = 2 then scanBits 32 (idcode Config.stepping)
  else if i = 0x20 then scanBits 16 d.tap.stnsel.toNat
  else if i = 0x21 then scanBits 32 d.tap.stnaddr.toNat
  else if i = 0x22 then scanBits 64 d.stnData.toNat
  else [some false]

/-- The number that scanned bits spell. -/
def scanNat : List (Option Bool) → Nat
  | [] => 0
  | b :: r => b2n (b == some true) + 2 * scanNat r

/-- The register a data scan updates with what it holds at its end. -/
def Tap.update (t : Tap) (i : Nat) (r : List (Option Bool)) : Tap :=
  if i = 0 ∨ i = 1 then { t with boundary := r }
  else if i = 0x20 then { t with stnsel := BitVec.ofNat 16 (scanNat r) }
  else if i = 0x21 then { t with stnaddr := BitVec.ofNat 32 (scanNat r) }
  else t

/-- One operation on the port (R575). A data scan shifts the captured contents out and the given bits in. -/
def Dev.tapOp (d : Dev) (o : TapOp) : Dev :=
  match o with
  | .reset => { d with tap := { d.tap with ir := 2 } }
  | .ir v => { d with tap := { d.tap with ir := v } }
  | .dr bits =>
    let all := d.tapCapture ++ bits.map some
    let d1 : Dev := { d with tap := d.tap.update d.tapIr (all.drop bits.length) }
    d1.emit (.tdo (all.take bits.length))

/-- JTAG_TAP_OPERATION (R575 to R577): the port is powered by VIN_12V. -/
def execJtagTapOperation (o : TapOp) (s : State) := onDev s (fun d => if d.railsOn then d.tapOp o else d)

end Sys2Proof.Machine
end

