-- ==== Sys2Proof/Machine/Binding.lean ====
section
/-! DEFINITION. Consist records, the checks of BIND, the steps of a bind, rebind and unbind, retirement by order, and seals
(R471 to R483, R492, R509, R514, R515). -/

namespace Sys2Proof.Machine

/-! ### Fields of a byte list -/

/-- The n bytes at an offset of a byte list, as a number. -/
def bytesAt (bs : List Byte) (off n : Nat) : Nat := natLE ((bs.drop off).take n)

/-- The n bytes at an offset of a byte list are zero. -/
def zeroAt (bs : List Byte) (off n : Nat) : Bool := bytesAt bs off n == 0

/-! ### The consist record (R473, R474) -/

/-- The device ID a record names. -/
def recDevid (r : List Byte) : Nat := bytesAt r 4 2

/-- NENT. -/
def recNent (r : List Byte) : Nat := bytesAt r 8 2

/-- The stations a record lists. -/
def recStns (r : List Byte) : BitVec 128 := BitVec.ofNat 128 (bytesAt r 32 16)

/-- The entries of a record, 32 bytes each. -/
def recEntries (r : List Byte) : List (List Byte) := (List.range (recNent r)).map (fun i => (r.drop (64 + 32 * i)).take 32)

/-- The entries of one type. -/
def recOf (r : List Byte) (t : Nat) : List (List Byte) := (recEntries r).filter (fun e => bytesAt e 0 1 == t)

/-- The key section of a record (R514). -/
def recKeys (r : List Byte) : List Byte := r.drop (64 + 32 * recNent r)

/-- The reserved fields of an entry are zero, and its numbers name something the device has (R474, R519). -/
def entryOk (e : List Byte) : Bool :=
  let t := bytesAt e 0 1
  if t = 1 then decide (bytesAt e 1 1 < 24) && zeroAt e 4 28
  else if t = 2 then
    zeroAt e 1 3 && decide (bytesAt e 4 4 + bytesAt e 8 4 ≤ 2 ^ 24) && decide (bytesAt e 12 5 < 2 ^ 33) && zeroAt e 18 14
  else if t = 3 then
    decide (bytesAt e 1 1 < 4) && decide (0 < bytesAt e 2 2) && decide (bytesAt e 2 2 < 1024) && decide (bytesAt e 23 1 ≤ 2)
      && zeroAt e 26 6
  else if t = 4 then
    decide (bytesAt e 1 1 < 4) && decide (0 < bytesAt e 2 2) && decide (bytesAt e 2 2 < 1024) && decide (bytesAt e 18 1 < 4)
      && zeroAt e 19 13
  else if t = 5 then
    decide (bytesAt e 1 1 < 16) && decide (bytesAt e 2 1 < 4) && decide (0 < bytesAt e 3 2) && decide (bytesAt e 3 2 < 1024)
      && zeroAt e 26 6
  else if t = 6 then decide (0 < bytesAt e 2 2) && decide (bytesAt e 2 2 < 1024) && zeroAt e 20 12
  else false

/-- Two entries name the same queue, window or queue pair, or overlap in siding entries (R476). -/
def entriesClash (a b : List Byte) : Bool :=
  let t := bytesAt a 0 1
  t == bytesAt b 0 1 &&
    (if t = 2 then decide (bytesAt a 4 4 < bytesAt b 4 4 + bytesAt b 8 4) && decide (bytesAt b 4 4 < bytesAt a 4 4 + bytesAt a 8 4)
     else if t = 3 then bytesAt a 1 3 == bytesAt b 1 3
     else if t = 5 ∨ t = 6 then bytesAt a 1 1 == bytesAt b 1 1
     else false)

/-- Some pair of a list meets a relation. -/
def anyPair (p : List Byte → List Byte → Bool) : List (List Byte) → Bool
  | [] => false
  | a :: r => r.any (p a) || anyPair p r

/-- SMBASE is zero, or a base FT_SMBASE accepts (R363). -/
def smBaseOk (b : Nat) : Bool := b == 0 || (b % 0x8000000 == 0 && decide (b ≤ 0x2FF8000000))

/-- Check 0x01 of R476 passes. -/
def recFormatOk (r : List Byte) : Bool :=
  decide (64 ≤ r.length) && decide (r.length ≤ 40 * 1024) && bytesAt r 0 1 == 1 && decide (bytesAt r 1 1 ≤ 2)
    && decide (bytesAt r 2 2 < 4096) && (bytesAt r 1 1 == 2 || bytesAt r 6 2 == recDevid r) && decide (recNent r ≤ 1024)
    && r.length == 64 + 32 * recNent r + bytesAt r 10 2 && decide (bytesAt r 14 1 < 16) && decide (bytesAt r 15 1 < 32)
    && zeroAt r 19 1 && zeroAt r 28 4 && zeroAt r 56 8 && smBaseOk (bytesAt r 48 8)
    && (recEntries r).all entryOk && !anyPair entriesClash (recEntries r)

/-! ### Keys (R514, R515) -/

/-- The wrapping key of a record. -/
def wrapKey (r : List Byte) : List Byte :=
  (Config.sha3 (Config.decapsulate (((recKeys r).drop 4).take 1568) ++ r.take 64)).take 32

/-- A delivered XTS key of 64 bytes as a key number, which no key drawn in hardware shares. -/
def keyOf (k : List Byte) : Nat := 2 * natLE k + 1

/-- A slot's key: absent, or unwrapped; none where the unwrap fails or the halves are equal. -/
def unwrapSlot (r : List Byte) (present : Bool) (off : Nat) : Option (Option Nat) :=
  if !present then some none
  else match Config.keyUnwrap (wrapKey r) (((recKeys r).drop off).take 72) with
    | none => none
    | some k => if k.take 32 = (k.drop 32).take 32 then none else some (some (keyOf k))

/-- The keys of slots 1 and 2 that a record delivers; none where check 0x07 fails. -/
def recUnwrap (r : List Byte) : Option (Option Nat × Option Nat) :=
  let k := recKeys r
  let slots := bytesAt k 1 1
  if bytesAt r 10 2 ≠ 1716 ∨ bytesAt k 0 1 ≠ 1 ∨ slots &&& 0xF9 ≠ 0 ∨ !zeroAt k 2 2
      ∨ (!(recOf r 5).isEmpty ∧ !bitOf slots 1)
      ∨ ((recOf r 2).any (fun e => fld (bytesAt e 17 1) 7 6 == 2) ∧ !bitOf slots 2) then none
  else match unwrapSlot r (bitOf slots 1) 1572, unwrapSlot r (bitOf slots 2) 1644 with
    | some a, some b => some (a, b)
    | _, _ => none

/-! ### BIND (R475, R476) -/

/-- A listed link is UP and its partner is not the listed one. -/
def Dev.linkClash (d : Dev) (r : List Byte) : Bool :=
  (recOf r 1).any (fun e => (d.link (bytesAt e 1 1)).isUp && (d.link (bytesAt e 1 1)).peer != bytesAt e 2 2)

/-- The checks of R476 on the staged record: the reason of the first that fails, or the keys unwrapped. The device identity and
encapsulation keys are not used after a device-fatal error (R517). -/
def Dev.bindCheck (d : Dev) (digest : List Byte) : Except Nat (Option Nat × Option Nat) :=
  let r := d.dict.staged
  if !recFormatOk r then .error 1
  else if Config.sha3 r ≠ digest then .error 2
  else if (List.range 128).any (fun n => (recStns r).getLsbD n && !d.present n) then .error 3
  else if !d.mem.retired.isEmpty then .error 4
  else if bytesAt r 12 1 = 0 then .error 5
  else if d.linkClash r then .error 6
  else if d.dfatal then .error 7
  else match recUnwrap r with
    | none => .error 7
    | some k => if d.bd.state = 1 ∨ d.bd.state = 3 ∨ d.bd.owed then .error 8 else .ok k

/-- A halt of the device, as step 1 of R477 asks for unless it is HELD. -/
def Dev.stepHalt (d : Dev) : Dev := if d.tt.state = 5 then d else d.haltRequest 1

/-- A BIND order: step 0, then the sequence begins (R475 to R477, R479). The result is 0 or the reason. -/
def Dev.orderBind (d : Dev) (digest : List Byte) : Dev × Nat :=
  match d.bindCheck digest with
  | .error c => ({ d with bd := { d.bd with reason := c } }, c)
  | .ok (k1, k2) =>
    let fresh := d.bd.state == 0
    let new : NewBind := { rec_ := d.dict.staged, digest := digest, pend0 := 2 * d.mem.nextKey, pend1 := k1, pend2 := k2 }
    let d1 : Dev := { d with
      mem := { d.mem with nextKey := d.mem.nextKey + 1 },
      bd := { d.bd with state := 1, step := if fresh then 7 else 1, fresh := fresh, new := some new } }
    (if fresh then d1 else d1.stepHalt, 0)

/-- An UNBIND order; none where its condition fails. -/
def Dev.orderUnbind (d : Dev) : Option Dev :=
  if d.bd.state = 2 then some ({ d with bd := { d.bd with state := 3, step := 1 } }).stepHalt else none

/-- A SEAL order; none where its condition fails. -/
def Dev.orderSeal (d : Dev) : Option Dev := if d.bd.state = 2 then some (d.snapshot 3 false) else none

/-! ### Retirement (R492) -/

/-- A station is retired: station reset with its scratchpad OFF, and absent from then on. `when_` is the byte its event
records. -/
def Dev.retireNow (d : Dev) (n when_ : Nat) : Dev :=
  let d1 := (d.stopChans 5 (fun y => ctxStn y.ctx == n)).updStn n (fun s => s.afterReset none true)
  let d2 : Dev := { d1 with retStn := d1.retStn ||| (1#128 <<< n), retPend := d1.retPend &&& ~~~(1#128 <<< n) }
  d2.event 1 6 3 n when_ false

/-- A RETIRE_STN order; none where its condition fails. -/
def Dev.orderRetire (d : Dev) (n : Nat) : Option Dev :=
  if 128 ≤ n ∨ !d.present n ∨ d.retPend.getLsbD n then none
  else if d.bd.state = 0 then some (d.retireNow n 0)
  else some { d with retPend := d.retPend ||| (1#128 <<< n) }

/-- A DEBUG order: the private read-out is enabled and the debug history extended (R507, R516). -/
def Dev.orderDebug (d : Dev) (env : List Byte) : Dev :=
  { d with sec := { d.sec with dbg := true, m5 := Config.sha3 (d.sec.m5 ++ env) } }

/-! ### The steps (R477 to R479, R509) -/

/-- Step 2: the accounting is snapshot, acceptance stops, queue pairs and windows close, and the device is unbound. -/
def Dev.stepClose (d : Dev) : Dev :=
  let d1 := if d.bd.counting then d.snapshot (if d.bd.state = 3 then 2 else 1) true else d
  { d1 with
    listed := none, consist := 0,
    host := { d1.host with
      qps := [], regions := [],
      ports := d1.host.ports.mapVal (fun _ p => { p with winb := p.winb.mapVal (fun _ w => w &&& ~~~(1#64 <<< 63)) }),
      ld := { d1.host.ld with sqs := d1.host.ld.sqs.mapVal (fun _ q => { q with en := false }) } } }

/-- Step 3: requests and responses of the old consist inside the device end; SYS flits stay. -/
def Dev.stepDrain (d : Dev) : Dev :=
  { d with jn := { d.jn with inbox := d.jn.inbox.filter (fun x => x.2.2.sys) },
           host := { d.host with ld := { d.host.ld with flushes := [], commits := [] } } }

/-- Step 4: caches and TLBs are invalidated without write-back. -/
def Dev.stepInvalidate (d : Dev) : Dev :=
  let m := d.mem.dirty.foldl (fun m l => m.discard d.sidingAt d.free l) { d.mem with dirty := [] }
  { d with mem := m, free := d.free + 1, stns := d.stns.mapVal (fun _ s => s.flushTlb) }

/-- Step 5: the key slots are destroyed. -/
def Dev.stepDestroy (d : Dev) : Dev :=
  { d with mem := { d.mem with key0 := none, key1 := none, key2 := none } }

/-- Every present station is reset; those of a mask will start, the others stay held with their scratchpads OFF (R471, R478). -/
def Dev.clearStations (d : Dev) (on : Nat → Bool) : Dev :=
  (List.range 128).foldl (fun u n => if u.present n then u.updStn n (fun s => s.afterReset none (!on n)) else u) d

/-- Step 6: pending retirements take effect, and the state of R478 is cleared. -/
def Dev.stepClear (d : Dev) : Dev :=
  let d1 := (List.range 128).foldl (fun u n => if u.retPend.getLsbD n then u.retireNow n 1 else u) d
  let mask : Nat → Bool := match d1.bd.new with
    | some x => fun n => (recStns x.rec_).getLsbD n
    | none => fun _ => true
  let d2 := d1.clearStations mask
  { d2 with
    sh := Shunters.reset, jn := { d2.jn with groups := .empty }, tt := d2.tt.restart, host := HostIf.reset, cfatal := false,
    mem := { d2.mem with smBase := 0, smEn := false } }

/-- Thread 0 of the stations of a mask starts in ring 0 at the device monitor entry (R508). -/
def Dev.startStations (d : Dev) (on : Nat → Bool) : Dev :=
  (List.range 128).foldl (fun u n => if u.present n && on n then u.updStn n (fun s => s.afterReset u.monitorPc false) else u) d

/-- The body is copied from the boot window to LOAD in GDDR7 (R508, R509). -/
def Dev.copyBody (d : Dev) : Dev :=
  match d.sec.image with
  | some i => { d with mem := { d.mem with gddr := d.mem.gddr.writeBytes i.load (d.mem.bootWin.readBytes 8192 i.body) } }
  | none => d

/-- New keys in the slots: what GDDR7 held before is unreadable (R370, R478). -/
def MemSys.loadKeys (m : MemSys) (k0 : Nat) (k1 k2 : Option Nat) : MemSys :=
  { m with key0 := some k0, key1 := k1, key2 := k2, gddr := .empty, poison := [] }

/-- The siding entries of an EXTENT entry written into the map at a base. -/
def putExtent (base : Nat) (m : Mem) (e : List Byte) : Mem :=
  (List.range (bytesAt e 8 4)).foldl (fun m j =>
    m.writeN (base + 8 * (bytesAt e 4 4 + j)) 8
      (1 + bytesAt e 17 1 / 2 * 2 % 256 + (bytesAt e 12 5 + j) % 2 ^ 33 * 2 ^ 16)) m

/-- The siding map is zeroed and the listed extents written; FT_SMBASE is set (R363, R477). -/
def MemSys.loadSiding (m : MemSys) (r : List Byte) : MemSys :=
  let b := bytesAt r 48 8
  if b = 0 then { m with smBase := 0, smEn := false }
  else { m with smBase := b, smEn := true, gddr := (recOf r 2).foldl (putExtent b) (m.gddr.clearRange b 0x8000000) }

/-- The timetable's fields of a record (R425, R438, R473): a value out of a register's range leaves it. -/
def Tt.load (t : Tt) (r : List Byte) : Tt :=
  { t with
    role := BitVec.ofNat 2 (bytesAt r 1 1), cplMaster := bytesAt r 6 2, cplDepth := bytesAt r 14 1,
    cplParent := bytesAt r 15 1, cplChild := BitVec.ofNat 24 (bytesAt r 16 3), lead := keepRange 1 500 (bytesAt r 20 2) t.lead,
    leaseLen := keepRange 1 65535 (bytesAt r 22 2) t.leaseLen,
    period := keepRange 100000 1000000000 (bytesAt r 24 4) t.period, epoch := 1, hold := decide (bytesAt r 1 1 ≠ 2),
    expiry := 0xFFFFFFFFFFFFFFFF }

/-- An SQ entry written to the queue's registers (R474). -/
def loadSq (s : Sq) (e : List Byte) : Sq :=
  { s with
    base := bytesAt e 8 6 / 4096 * 4096, port := bytesAt e 2 1, en := true, log2s := keepRange 4 12 (bytesAt e 5 1) s.log2s,
    winBase := bytesAt e 14 6 / 4096 * 4096, winEn := true, log2n := keepRange 4 16 (bytesAt e 6 1) s.log2n,
    rplBase := bytesAt e 20 6 / 32 * 32, log2r := keepRange 4 16 (bytesAt e 7 1) s.log2r }

/-- Step 7: the pending keys, the registers of the record, the siding map, the measurement and the device monitor; the listed
stations start (R477, R478, R507, R509). -/
def Dev.stepLoad (d : Dev) (x : NewBind) : Dev :=
  let r := x.rec_
  let on : Nat → Bool := fun n => (recStns r).getLsbD n
  let d1 : Dev := { d with
    mem := (d.mem.loadKeys x.pend0 x.pend1 x.pend2).loadSiding r, jn := { d.jn with devid := recDevid r }, tt := d.tt.load r,
    sec := { d.sec with m4 := x.digest } }
  let d2 := (recOf r 5).foldl (fun u e => u.updSq (bytesAt e 1 1) (fun s => loadSq s e)) d1
  let d3 := if d2.bd.fresh then d2.clearStations on else d2
  d3.copyBody.startStations on

/-- A queue pair of the record (R474). -/
def loadQp (e : List Byte) : Qp :=
  { port := bytesAt e 1 1, qpn := bytesAt e 2 2, sqmask := bytesAt e 24 2, rqpn := bytesAt e 4 3, gid := bytesAt e 7 16,
    pmtu := bytesAt e 23 1, slowed := 0 }

/-- A region of the record. -/
def loadRegion (e : List Byte) : Region_ :=
  { port := bytesAt e 1 1, qpn := bytesAt e 2 2, base := bytesAt e 4 6, len := bytesAt e 10 4, rkey := bytesAt e 14 4,
    rights := bytesAt e 18 1 }

/-- A window of the record opened: HI_WINA and HI_WINB with EN = 1. -/
def Dev.loadWindow (d : Dev) (e : List Byte) : Dev :=
  let w := bytesAt e 1 1
  d.updPort (w / 64) (fun p =>
    { p with wina := p.wina.set (w % 64) (word (bytesAt e 4 8)),
             winb := p.winb.set (w % 64)
               (word (bytesAt e 16 4 + bytesAt e 2 2 % 1024 * 2 ^ 32 + bytesAt e 12 4 % 2 ^ 21 * 2 ^ 42 + 2 ^ 63)) })

/-- Step 8: the device is BOUND; queue pairs and windows open, recovery of the listed queues starts, and the accounting starts
from zero; a master's lease begins (R438, R466, R477, R481). -/
def Dev.stepOpen (d : Dev) (x : NewBind) : Dev :=
  let r := x.rec_
  let d1 : Dev := { d with
    consist := bytesAt r 2 2, listed := some (recStns r),
    host := { d.host with qps := (recOf r 3).map loadQp, regions := (recOf r 4).map loadRegion },
    tt := if d.tt.role = 1 then { d.tt with expiry := d.tt.tick + d.tt.leaseLen } else d.tt,
    bd := { d.bd with
      state := 2, step := 0, fresh := false, new := none, rec_ := r, digest := x.digest, counting := true, boundFrom := d.now,
      held := 0, heldFrom := if d.tt.state = 5 then some d.now else none, lastNs := 0, lastHeld := 0, bindTick := d.tt.tick,
      halts := 0, late := 0, phases := .empty } }
  let d2 := (recOf r 6).foldl Dev.loadWindow d1
  (recOf r 5).foldl (fun u e => u.updSq (bytesAt e 1 1) (fun s => { s with recovering := true })) d2

/-- The end of an unbind: slot 0 holds a fresh key, the device monitor is copied, every present station starts, and the device is
UNBOUND (R479, R507, R509). -/
def Dev.unbound (d : Dev) : Dev :=
  let d1 : Dev := { d with
    mem := { d.mem.loadKeys (2 * d.mem.nextKey) none none with nextKey := d.mem.nextKey + 1 },
    sec := { d.sec with m4 := zero64 },
    bd := { d.bd with state := 0, step := 0, new := none, rec_ := [], digest := [] } }
  d1.copyBody.startStations (fun _ => true)

/-- The next step begins. -/
def Dev.toStep (d : Dev) (n : Nat) : Dev := { d with bd := { d.bd with step := n } }

/-- The step in progress completes, and the next begins (R477, R479). -/
def Dev.stepEnd (d : Dev) : Dev :=
  if d.bd.step = 1 then (if d.tt.state = 5 then d.toStep 2 else d)
  else if d.bd.step = 2 then d.stepClose.toStep 3
  else if d.bd.step = 3 then d.stepDrain.toStep 4
  else if d.bd.step = 4 then d.stepInvalidate.toStep 5
  else if d.bd.step = 5 then d.stepDestroy.toStep 6
  else if d.bd.step = 6 then (if d.bd.state = 3 then d.stepClear.unbound else d.stepClear.toStep 7)
  else if d.bd.step = 7 then (match d.bd.new with
    | some x => (d.stepLoad x).toStep 8
    | none => d)
  else if d.bd.step = 8 then (match d.bd.new with
    | some x => d.stepOpen x
    | none => d)
  else d

/-- REBIND_STEP_END (R477) -/
def execRebindStepEnd (s : State) :=
  onDev s (fun d => if d.pw.state == .running && !d.dfatal then d.stepEnd else d)

/-! ### Seals (R482, R483) -/

/-- The 16 bytes of one phase index. -/
def Acct.bytes (a : Acct) : List Byte := bytesLE 2 a.tag ++ bytesLE 1 a.kind ++ bytesLE 1 (b2n a.mixed) ++ bytesLE 4 a.count ++ bytesLE 8 a.ns

/-- A phase index that no phase of the binding had. -/
def Acct.none_ : Acct := ⟨0, 0, false, 0, 0⟩

/-- Bytes 0 to 1,151 of a seal. -/
def Seal.body (s : Seal) : List Byte :=
  bytesLE 1 1 ++ bytesLE 1 s.cause ++ bytesLE 2 s.consist ++ bytesLE 2 s.devid ++ bytesLE 2 s.nstn ++ bytesLE 4 s.sseq
    ++ bytesLE 4 s.halts ++ bytesLE 8 s.bindTick ++ bytesLE 8 s.endTick ++ bytesLE 8 s.boundNs ++ bytesLE 8 s.heldNs
    ++ bytesLE 8 s.late ++ bytesLE 8 0 ++ (s.digest ++ zero64).take 64
    ++ (List.range 64).flatMap (fun k => (s.phases.getD k Acct.none_).bytes)

/-- The oldest snapshot is signed and becomes the newest of the last four seals. -/
def Dev.sealSign (d : Dev) : Dev :=
  match d.bd.unsigned with
  | [] => d
  | x :: rest =>
    let b := x.body
    { d with bd := { d.bd with unsigned := rest, owed := d.bd.owed && !rest.isEmpty,
                               seals := ((b ++ Config.dsaSign [] b) :: d.bd.seals).take 4 } }

/-- SEAL_SIGN (R483): the security engine signs while it has power and no device-fatal error has stopped the use of the device
identity key (R517). -/
def execSealSign (s : State) := onDev s (fun d => d.whenUp Dev.sealSign)

end Sys2Proof.Machine
end

