-- ==== Sys2Proof/Machine/Orders.lean ====
section
/-! DEFINITION. The order path: envelopes, their checks, orders in ORDER flits and forwarding (R441, R442, R475, R492, R516,
R535 to R538). -/

namespace Sys2Proof.Machine

/-! ### Envelopes (R535, R536) -/

/-- PLEN of a listed order code. -/
def orderPlen (code : Nat) : Option Nat :=
  if code = 0x01 ∨ code = 0x11 ∨ code = 0x12 ∨ code = 0x30 then some 0
  else if code = 0x02 then some 8
  else if code = 0x03 ∨ code = 0x04 then some 12
  else if code = 0x10 then some 64
  else if code = 0x20 then some 2 else none

/-- The length of an ML-DSA-87 signature. -/
def sigLen : Nat := 4627

/-- Check 1 of R537. -/
def envFormatOk (e : List Byte) : Bool :=
  let plen := bytesAt e 2 2
  decide (64 + sigLen ≤ e.length) && decide (e.length ≤ 7168) && e.length == 64 + plen + sigLen && bytesAt e 0 1 == 1
    && zeroAt e 6 2 && zeroAt e 32 32
    && (match orderPlen (bytesAt e 1 1) with
        | some n => plen == n
        | none => true)

/-- The context string of an order's signature: "KO-EL-ORD". -/
def ordContext : List Byte := [0x4B, 0x4F, 0x2D, 0x45, 0x4C, 0x2D, 0x4F, 0x52, 0x44]

/-- The signature of an envelope verifies under a key. -/
def envSigned (key e : List Byte) : Bool :=
  let n := 64 + bytesAt e 2 2
  Config.dsaVerify key ordContext (e.take n) (e.drop n)

/-! ### Orders at their own conditions (check 8) -/

/-- The result of an order that has a condition of its own: 0x47 where it fails. -/
def Dev.orElse (d : Dev) (r : Option Dev) : Dev × Nat :=
  match r with
  | some d1 => (d1, 0)
  | none => (d, 0x47)

/-- Check 8 and the effect of an order: the device and the result (R442, R475, R476, R492, R516). -/
def Dev.orderEffect (d : Dev) (e : List Byte) : Dev × Nat :=
  let code := bytesAt e 1 1
  if code = 0x01 then (d.haltRequest 1, 0)
  else if code = 0x02 then d.orElse (d.orderResume (bytesAt e 64 8))
  else if code = 0x03 then d.orElse (d.orderLease (bytesAt e 64 4) (bytesAt e 68 8))
  else if code = 0x04 then d.orElse (d.orderStaff (bytesAt e 64 4) (bytesAt e 68 8))
  else if code = 0x10 then d.orderBind ((e.drop 64).take 64)
  else if code = 0x11 then d.orElse d.orderUnbind
  else if code = 0x12 then d.orElse d.orderSeal
  else if code = 0x20 then d.orElse (d.orderRetire (bytesAt e 64 2))
  else (d.orderDebug e, 0)

/-- The order path decides (R537): the result, or none where the order is for another device and is forwarded. -/
def Dev.orderPath (d : Dev) (e : List Byte) : Dev × Option Nat :=
  if !envFormatOk e then (d, some 0x40)
  else if bytesAt e 8 8 ≠ Config.serial then
    (if bytesAt e 4 2 ≠ 0xFFFF ∧ bytesAt e 4 2 ≠ d.jn.devid then (d, none) else (d, some 0x43))
  else match d.dict.orderKey with
    | none => (d, some 0x41)
    | some key =>
      if !envSigned key e then (d, some 0x42)
      else if bytesAt e 16 8 ≠ d.dict.bootId then (d, some 0x44)
      else if bytesAt e 24 8 ≤ d.dict.ordseq then (d, some 0x45)
      else
        let d1 : Dev := { d with dict := { d.dict with ordseq := bytesAt e 24 8 } }
        if (orderPlen (bytesAt e 1 1)).isNone then (d1, some 0x46)
        else
          let (d2, r) := d1.orderEffect e
          (d2, some r)

/-! ### Forwarding (R441) -/

/-- The segments of a message: their flits go toward the target, TC 0 for the coupling orders and TC 1 for the others. -/
def Dev.sendOrder (d : Dev) (e : List Byte) : Dev :=
  let nseg := (e.length + 223) / 224
  let tc := if 1 ≤ bytesAt e 1 1 ∧ bytesAt e 1 1 ≤ 4 then 0 else 1
  (List.range nseg).foldl (fun u i =>
    u.sendFlit (u.mkFlit 3 tc (bytesAt e 4 2) true
      (bytesLE 4 d.jn.oid ++ bytesLE 2 i ++ bytesLE 2 nseg ++ bytesLE 2 e.length ++ bytesLE 6 0
        ++ (e.drop (224 * i)).take 224))) d

/-- An order is forwarded, and its sender waits for the result. After a device-fatal error no ORDER flit is sent (R490). -/
def Dev.forwardOrder (d : Dev) (e : List Byte) (o : OrdFrom) : Dev :=
  let d1 := if d.dfatal then d else d.sendOrder e
  { d1 with
    jn := { d1.jn with oid := (d1.jn.oid + 1) % 2 ^ 32 },
    dict := { d1.dict with forwards := d1.dict.forwards ++ [⟨d.jn.oid, o, bytesAt e 1 1, bytesAt e 24 8, d.now⟩] } }

/-- The 8 bytes of data that carry a result (R538). -/
def resultBytes (result code seq : Nat) : List Byte := bytesLE 1 result ++ bytesLE 1 code ++ bytesLE 6 seq

/-- A result goes to whoever sent the order: in the response to the last segment, or back over the links (R441, R538). -/
def Dev.orderAnswer (d : Dev) (o : OrdFrom) (result code seq : Nat) : Dev :=
  match o with
  | .dict p m => d.emit (.dict p 0x85 m.tid.toNat m.index.toNat m.sub.toNat 0 m.arg.toNat (resultBytes result code seq))
  | .flit src oid => d.emit (.orderResult src oid result code seq)

/-- An envelope enters the order path. -/
def Dev.order (d : Dev) (e : List Byte) (o : OrdFrom) : Dev :=
  match d.orderPath e with
  | (d1, some r) => d1.orderAnswer o r (bytesAt e 1 1) (bytesAt e 24 8)
  | (d1, none) => d1.forwardOrder e o

/-! ### ORDER flits (R441) -/

/-- A segment joins its message; the whole message, once every segment has arrived. -/
def Dict.orderSeg (x : Dict) (src : Nat) (f : Flit) : Dict × Option (List Byte) :=
  let oid := flitU f 12 4
  let seg := flitU f 16 2
  let nseg := flitU f 18 2
  let len := flitU f 20 2
  if nseg = 0 ∨ 32 < nseg ∨ nseg ≤ seg ∨ 7168 < len ∨ nseg ≠ (len + 223) / 224 then (x, none)
  else
    let others := x.orders.filter (fun m => !(m.src == src && m.oid == oid))
    let old : OrdMsg := match x.orders.find? (fun m => m.src == src && m.oid == oid && m.nseg == nseg && m.len == len) with
      | some m => m
      | none => ⟨src, oid, nseg, len, .empty⟩
    let m := { old with segs := old.segs.set seg (flitBytes f 28 224) }
    if m.segs.entries.length = nseg then
      ({ x with orders := others }, some (((List.range nseg).flatMap (fun i => m.segs.getD i [])).take len))
    else ({ x with orders := others ++ [m] }, none)

/-- The next ORDER flit delivered to this device is taken. -/
def Dev.orderFlit (d : Dev) : Dev :=
  match d.takeInbox (fun f => f.kind == 3) with
  | (none, d1) => d1
  | (some (_, _, f), d1) =>
    let (x, msg) := d1.dict.orderSeg f.src.toNat f
    let d2 : Dev := { d1 with dict := x }
    match msg with
    | some e => d2.order e (.flit f.src.toNat (flitU f 12 4))
    | none => d2

/-- The result of a forwarded order has come back: it goes on to the order's sender. -/
def Dev.orderReturn (d : Dev) (oid result : Nat) : Dev :=
  match d.dict.forwards.find? (fun w => w.oid == oid) with
  | none => d
  | some w =>
    ({ d with dict := { d.dict with forwards := dropFirst (fun w => w.oid == oid) d.dict.forwards } }).orderAnswer
      w.origin result w.code w.seq

/-- ORDER_FLIT (R441): the next ORDER flit, or the result of an order this device forwarded, by its identifier. -/
def execOrderFlit (ret : Option (BitVec 32 × BitVec 8)) (s : State) :=
  onDev s (fun d => d.whenUp (fun d => match ret with
    | some (oid, r) => d.orderReturn oid.toNat r.toNat
    | none => d.orderFlit))

/-- The oldest forwarded order has waited 40 ms: its sender gets 0x48 FORWARDED (R538). -/
def Dev.forwardLate (d : Dev) : Dev :=
  match d.dict.forwards with
  | [] => d
  | w :: r => (({ d with dict := { d.dict with forwards := r } }).notBefore (w.at_ + 40000 * usU)).orderAnswer
      w.origin 0x48 w.code w.seq

/-- ORDER_FORWARD_TIMEOUT (R538) -/
def execOrderForwardTimeout (s : State) := onDev s (fun d => d.whenUp Dev.forwardLate)

/-! ### The orders, once checks 1 to 7 have passed -/

/-- An order at check 8, with its result. -/
def Dev.orderDone (d : Dev) (code : Nat) (r : Dev × Nat) : Dev := if d.pw.state = .running then r.1.emit (.orderDone code r.2) else d

/-- ORDER_HALT (R442) -/
def execOrderHalt (s : State) := onDev s (fun d => d.orderDone 0x01 (d.haltRequest 1, 0))

/-- ORDER_RESUME (R442) -/
def execOrderResume (tick : Word) (s : State) := onDev s (fun d => d.orderDone 0x02 (d.orElse (d.orderResume tick.toNat)))

/-- ORDER_LEASE (R442) -/
def execOrderLease (epoch : BitVec 32) (expiry : Word) (s : State) :=
  onDev s (fun d => d.orderDone 0x03 (d.orElse (d.orderLease epoch.toNat expiry.toNat)))

/-- ORDER_STAFF (R442) -/
def execOrderStaff (epoch : BitVec 32) (expiry : Word) (s : State) :=
  onDev s (fun d => d.orderDone 0x04 (d.orElse (d.orderStaff epoch.toNat expiry.toNat)))

/-- ORDER_BIND (R475) -/
def execOrderBind (digest : List (BitVec 8)) (s : State) := onDev s (fun d => d.orderDone 0x10 (d.orderBind digest))

/-- ORDER_UNBIND (R475) -/
def execOrderUnbind (s : State) := onDev s (fun d => d.orderDone 0x11 (d.orElse d.orderUnbind))

/-- ORDER_SEAL (R475) -/
def execOrderSeal (s : State) := onDev s (fun d => d.orderDone 0x12 (d.orElse d.orderSeal))

/-- ORDER_RETIRE_STN (R492) -/
def execOrderRetireStn (n : BitVec 16) (s : State) := onDev s (fun d => d.orderDone 0x20 (d.orElse (d.orderRetire n.toNat)))

/-- ORDER_DEBUG (R516): `env` is the order's bytes (R507). -/
def execOrderDebug (env : List (BitVec 8)) (s : State) := onDev s (fun d => d.orderDone 0x30 (d.orderDebug env, 0))

end Sys2Proof.Machine
end

