-- ==== Sys2Proof/Machine/Boot.lean ====
section
/-! DEFINITION. The image checks, the fuses, measurements and start of the boot, and attestation (R501 to R513). -/

namespace Sys2Proof.Machine

/-! ### The image (R504 to R508) -/

/-- The header's length. -/
def headLen : Nat := 8192

/-- The context string of an image's signature: "KO-EL-IMG". -/
def imgContext : List Byte := [0x4B, 0x4F, 0x2D, 0x45, 0x4C, 0x2D, 0x49, 0x4D, 0x47]

/-- Check 1 of R505, on the header. -/
def imgFormatOk (h : List Byte) : Bool :=
  let n := bytesAt h 8 4
  bytesAt h 0 4 == 0x4C454F4B && bytesAt h 4 1 == 1 && decide (bytesAt h 5 1 ≤ 128) && decide (bytesAt h 7 1 < 4)
    && zeroAt h 7315 877 && decide (1 ≤ n) && decide (n ≤ 0x800000) && decide (bytesAt h 12 4 < n)
    && decide (bytesAt h 24 8 < n) && bytesAt h 12 4 % 4 == 0 && bytesAt h 24 8 % 4 == 0 && bytesAt h 16 8 % 4096 == 0
    && decide (bytesAt h 16 8 + n ≤ gddrSize)

/-- The code of the first check of R505 that an image fails. -/
def Sec.imgCheck (s : Sec) (h body : List Byte) : Option Nat :=
  let key := (h.drop 96).take 2592
  let k := bytesAt h 6 1
  if !imgFormatOk h then some 2
  else if 4 ≤ k ∨ s.revoked.getLsbD k ∨ Config.sha3 key ≠ Config.keyHash k then some 3
  else if !Config.dsaVerify key imgContext (h.take 2688) ((h.drop 2688).take sigLen) then some 4
  else if Config.sha3 body ≠ (h.drop 32).take 64 then some 5
  else if bytesAt h 5 1 < s.counter then some 6 else none

/-- The fuse bits an image blows, in order: counter bits 0 to 127, then revoke bits as 128 to 131 (R506). -/
def Sec.toBlow (s : Sec) (h : List Byte) : List Nat :=
  let svn := bytesAt h 5 1
  (if bitOf (bytesAt h 7 1) 0 then upFrom s.counter (svn - s.counter) else [])
    ++ (if bitOf (bytesAt h 7 1) 1 then ((List.range (bytesAt h 6 1)).filter (fun k => !s.revoked.getLsbD k)).map (128 + ·)
        else [])

/-- One fuse bit blown. -/
def Sec.blow1 (s : Sec) (i : Nat) : Sec :=
  if i < 128 then { s with counter := s.counter + 1 } else { s with revoked := s.revoked ||| (1#4 <<< (i - 128)) }

/-- The fuses blown in order, up to one whose readback fails; whether all succeeded (R506). -/
def Sec.blow (s : Sec) (bad : Option Nat) : List Nat → Sec × Bool
  | [] => (s, true)
  | i :: r => if bad = some i then (s, false) else Sec.blow (s.blow1 i) bad r

/-- SEC_FUSE. -/
def Sec.fuse (s : Sec) : Nat := s.counter + s.revoked.toNat * 2 ^ 8

/-- The measurements of a boot, and the DKK certificate issued over them (R507, R511). -/
def Sec.measure (s : Sec) (h body : List Byte) : Sec :=
  let m0 := Config.sha3 ((List.range 65536).map Config.bootRom)
  let m1 := Config.sha3 h
  let m2 := Config.sha3 body
  let m3 := Config.sha3 (bytesLE 8 s.fuse ++ bytesLE 1 s.strap.toNat)
  { s with m0 := m0, m1 := m1, m2 := m2, m3 := m3, m4 := zero64, m5 := zero64, dkkCert := Config.dkkCert (m0 ++ m1 ++ m2 ++ m3) }

/-- An image is rejected: the window is zeroed, and the boot ROM waits for another (R505). -/
def Dev.imgReject (d : Dev) (code : Nat) : Dev :=
  { d with mem := { d.mem with bootWin := .empty },
           sec := { d.sec with code := code, rejects := min 255 (d.sec.rejects + 1), verifying := none } }

/-- The device monitor and the signal box start: the window is locked, the body copied, the stations released (R508). -/
def Dev.imgStart (d : Dev) (h : List Byte) : Dev :=
  let i : Image := { load := bytesAt h 16 8, entry := bytesAt h 24 8, sbentry := bytesAt h 12 4, body := bytesAt h 8 4 }
  let d1 : Dev := { d with
    mem := { d.mem with bootLock := true }, pw := { d.pw with state := .running },
    sec := { d.sec with code := 1, svn := bytesAt h 5 1, keyidx := bytesAt h 6 1, image := some i, verifying := none } }
  d1.copyBody.startStations (fun _ => true)

/-- Verification of the delivered image ends (R505 to R508). `bad` names a fuse bit whose readback fails. -/
def Dev.imgVerify (d : Dev) (bad : Option Nat) : Dev :=
  if !d.booting || d.sec.verifying.isNone then d
  else
    let h := d.mem.bootWin.readBytes 0 headLen
    let body := d.mem.bootWin.readBytes headLen (bytesAt h 8 4)
    match d.sec.imgCheck h body with
    | some code => d.imgReject code
    | none =>
      match d.sec.blow bad (d.sec.toBlow h) with
      | (s, false) => { d with sec := { s with code := 7, verifying := none } }
      | (s, true) => { d with sec := s.measure h body }.imgStart h

/-- BOOT_IMAGE_VERIFY (R505) -/
def execBootImageVerify (bad : Option (Fin 132)) (s : State) := onDev s (fun d => d.imgVerify (bad.map Fin.val))

/-! ### Attestation (R512, R513) -/

/-- The bytes of a response. -/
def Spdm.bytes : Spdm → List Byte
  | .version => Config.spdmBytes 0 []
  | .capabilities => Config.spdmBytes 1 []
  | .algorithms a => Config.spdmBytes 2 [a.registry, a.rsv, a.alg.truncate 8, (a.alg >>> 8).truncate 8]
  | .digests x => Config.spdmBytes 3 x
  | .certificate x => Config.spdmBytes 4 x
  | .challengeAuth n s => Config.spdmBytes 5 (n ++ s)
  | .measurements n b s => Config.spdmBytes 6 (n ++ b.flatten ++ s)
  | .negotiationFail => Config.spdmBytes 7 []
  | .unsupported c => Config.spdmBytes 8 (bytesLE 1 c)

/-- ML-DSA-87 as an extended asymmetric algorithm. -/
def mlDsaExt : ExtAlg := ⟨0x04, 0x00, 0x0087⟩

/-- The signature of a signed response over the messages so far (R513). -/
def Sec.spdmSig (s : Sec) (kind : Nat) (msgs : List Byte) : List Byte :=
  let _ := s
  Config.dsaSign [] (Config.spdmPrefix kind ++ Config.sha3 (Config.spdmTranscript kind msgs))

/-- M1 to M6 of the measurement blocks hold M0 to M5. -/
def Sec.blocks (s : Sec) : List (List Byte) := [s.m0, s.m1, s.m2, s.m3, s.m4, s.m5]

/-- The response to a request, with the messages so far, this request among them. -/
def Sec.spdmAnswer (s : Sec) (msgs : List Byte) : SpdmReq → Spdm
  | .version => .version
  | .capabilities => .capabilities
  | .negotiate ext sha3 => if ext.contains mlDsaExt && sha3 then .algorithms mlDsaExt else .negotiationFail
  | .digests => .digests (Config.sha3 Config.certChain)
  | .certificate slot off len =>
    if slot = 0 then .certificate ((Config.certChain.drop off.toNat).take len.toNat) else .unsupported 0x82
  | .challenge slot nonce => if slot = 0 then .challengeAuth nonce (s.spdmSig 0 msgs) else .unsupported 0x83
  | .measurements op sign nonce =>
    let b := if op = 0xFF then some s.blocks else if op = 0 then some [] else (s.blocks[op.toNat - 1]?).map (fun m => [m])
    (match b with
     | some x => .measurements nonce x (if sign then s.spdmSig 1 msgs else [])
     | none => .unsupported 0xE0)
  | .other c => .unsupported c.toNat

/-- A request is answered, until a device-fatal error (R512). GET_VERSION begins a new transcript. -/
def Dev.spdmServe (d : Dev) (r : SpdmReq) : Dev :=
  let old := if r = .version then [] else d.sec.transcript
  let msgs := old ++ Config.spdmReqBytes r
  let a := d.sec.spdmAnswer msgs r
  ({ d with sec := { d.sec with spdm := some a, transcript := msgs ++ a.bytes } }).emit (.spdm a)

/-- GET_VERSION (R512) -/
def execGetVersion (s : State) := onDev s (fun d => d.whenUp (fun d => d.spdmServe .version))

/-- GET_CAPABILITIES (R512) -/
def execGetCapabilities (s : State) := onDev s (fun d => d.whenUp (fun d => d.spdmServe .capabilities))

/-- NEGOTIATE_ALGORITHMS (R513): the extended structures offered, and whether SHA3-512 is. -/
def execNegotiateAlgorithms (ext : List ExtAlg) (sha3 : Bool) (s : State) :=
  onDev s (fun d => d.whenUp (fun d => d.spdmServe (.negotiate ext sha3)))

/-- GET_DIGESTS (R512) -/
def execGetDigests (s : State) := onDev s (fun d => d.whenUp (fun d => d.spdmServe .digests))

/-- GET_CERTIFICATE (R512) -/
def execGetCertificate (slot : BitVec 8) (off len : BitVec 16) (s : State) :=
  onDev s (fun d => d.whenUp (fun d => d.spdmServe (.certificate slot off len)))

/-- CHALLENGE (R512) -/
def execChallenge (slot : BitVec 8) (nonce : List (BitVec 8)) (s : State) :=
  onDev s (fun d => d.whenUp (fun d => d.spdmServe (.challenge slot nonce)))

/-- GET_MEASUREMENTS (R512): a block, 0xFF for all, 0 for their number; with a signature or without. -/
def execGetMeasurements (op : BitVec 8) (sign : Bool) (nonce : List (BitVec 8)) (s : State) :=
  onDev s (fun d => d.whenUp (fun d => d.spdmServe (.measurements op sign nonce)))

/-- The request codes of SPDM 1.3 that R512 lists. -/
def spdmCodes : List (BitVec 8) := [0x84, 0xE1, 0xE3, 0x81, 0x82, 0x83, 0xE0]

/-- UNSUPPORTED_REQUEST (R512): any request of another code. -/
def execUnsupportedRequest (code : BitVec 8) (s : State) :=
  onDev s (fun d => d.whenUp (fun d => if spdmCodes.contains code then d else d.spdmServe (.other code)))

end Sys2Proof.Machine
end

