-- ==== Sys2Proof/Machine/Control.lean ====
section
/-! DEFINITION. Branches, jumps and hardware loops (R62 to R64, R79 to R83). -/

namespace Sys2Proof.Machine

def execBeq (h : Hart) (rs1 rs2 : Fin 32) (off : BitVec 12) (s : State) :=
  onDev s (fun d => d.branch h off (fun t => t.gr rs1 == t.gr rs2))
def execBne (h : Hart) (rs1 rs2 : Fin 32) (off : BitVec 12) (s : State) :=
  onDev s (fun d => d.branch h off (fun t => t.gr rs1 != t.gr rs2))
def execBlt (h : Hart) (rs1 rs2 : Fin 32) (off : BitVec 12) (s : State) :=
  onDev s (fun d => d.branch h off (fun t => sltB (t.gr rs1) (t.gr rs2)))
def execBge (h : Hart) (rs1 rs2 : Fin 32) (off : BitVec 12) (s : State) :=
  onDev s (fun d => d.branch h off (fun t => !sltB (t.gr rs1) (t.gr rs2)))
def execBltu (h : Hart) (rs1 rs2 : Fin 32) (off : BitVec 12) (s : State) :=
  onDev s (fun d => d.branch h off (fun t => ultB (t.gr rs1) (t.gr rs2)))
def execBgeu (h : Hart) (rs1 rs2 : Fin 32) (off : BitVec 12) (s : State) :=
  onDev s (fun d => d.branch h off (fun t => !ultB (t.gr rs1) (t.gr rs2)))

/-- The CBI forms compare rs1 with the sign-extended IMM5 (R62). -/
def execBeqi (h : Hart) (rs1 : Fin 32) (imm : BitVec 5) (off : BitVec 12) (s : State) :=
  onDev s (fun d => d.branch h off (fun t => t.gr rs1 == imm5 imm))
def execBnei (h : Hart) (rs1 : Fin 32) (imm : BitVec 5) (off : BitVec 12) (s : State) :=
  onDev s (fun d => d.branch h off (fun t => t.gr rs1 != imm5 imm))
def execBlti (h : Hart) (rs1 : Fin 32) (imm : BitVec 5) (off : BitVec 12) (s : State) :=
  onDev s (fun d => d.branch h off (fun t => sltB (t.gr rs1) (imm5 imm)))
def execBgei (h : Hart) (rs1 : Fin 32) (imm : BitVec 5) (off : BitVec 12) (s : State) :=
  onDev s (fun d => d.branch h off (fun t => !sltB (t.gr rs1) (imm5 imm)))
def execBltui (h : Hart) (rs1 : Fin 32) (imm : BitVec 5) (off : BitVec 12) (s : State) :=
  onDev s (fun d => d.branch h off (fun t => ultB (t.gr rs1) (imm5 imm)))
def execBgeui (h : Hart) (rs1 : Fin 32) (imm : BitVec 5) (off : BitVec 12) (s : State) :=
  onDev s (fun d => d.branch h off (fun t => !ultB (t.gr rs1) (imm5 imm)))

/-- J jumps to PC + 4 × OFF (R63). -/
def execJ (h : Hart) (off : BitVec 25) (s : State) :=
  onDev s (fun d => d.issue h 4 (fun d1 => d1.transfer h ((d1.thr h).pc + off25 off) true id))

/-- CALL writes PC + 4 to lr (g30), then jumps; a call abandons no loop (R63, R82). -/
def execCall (h : Hart) (off : BitVec 25) (s : State) :=
  onDev s (fun d => d.issue h 4 (fun d1 =>
    let pc := (d1.thr h).pc
    d1.transfer h (pc + off25 off) false (fun t => t.setG 30 (pc + 4))))

/-- JR is a plain jump, which may abandon a loop, unless it links (a call) or is RET (R63, R82). -/
def jrAbandons (rd rs1 : Fin 32) (imm : BitVec 15) : Bool := decide (rd = 0) && !(decide (rs1 = 30) && decide (imm = 0))

/-- JR jumps to rs1 + IMM and, if rd is not g0, writes PC + 4 to rd; a misaligned target takes ALIGN with the target as
XADDR and changes no register (R63, R93). -/
def execJr (h : Hart) (rd rs1 : Fin 32) (imm : BitVec 15) (s : State) :=
  onDev s (fun d => d.issue h 4 (fun d1 =>
    let t := d1.thr h
    let target := t.gr rs1 + imm15 imm
    if target.toNat % 4 ≠ 0 then d1.exc h 3 target
    else d1.transfer h target (jrAbandons rd rs1 imm) (fun u => u.setG rd (t.pc + 4))))

/-- The registers of a thread that enters loop n with its count, head and tail (R80): where the other loop is active,
ORDER makes loop n the inner one. -/
def Thread.enterLoop (n : Nat) (head tail : Word) (t : Thread) : Thread :=
  let f := setBit t.lflags.toNat n true
  let f1 := if t.act (1 - n) then setBit f 2 (decide (n = 1)) else f
  { t with lrem := t.lrem.set n (t.lc.getD n 0), lhead := t.lhead.set n head, ltail := t.ltail.set n tail,
           lflags := BitVec.ofNat 3 f1 }

/-- Entry to loop n from LOOP or LOOPI, len bytes long (R80). The word at LTAIL is read to learn its length: a fetch fault
on it is taken on the LOOP with LTAIL as the fault address. A count of 0 skips the body as a taken branch does (R64). -/
def Dev.enterLoop (d : Dev) (h : Hart) (n len : Nat) (tail : Word) : Dev :=
  let t := d.thr h
  match d.translate h.stn t.ring .fetch (.core 4) tail.toNat with
  | .fault c => d.exc h c tail
  | .ok pa e =>
    let d1 := d.install h.stn (.ok pa e)
    if t.lc.getD n 0 = 0 then
      let w := (d1.readLoc e pa 1).1
      let l : Word := if (natLE w) % 2 = 1 then 8 else 4
      d1.transfer h (tail + l) true id
    else d1.finish h len 1 (fun u => u.enterLoop n (u.pc + word len) tail)

/-- LOOP: N = rd[21], rd[25:22] and rs1 zero, IMM at least 1 (R79). -/
def execLoop (h : Hart) (rd rs1 : Fin 32) (imm : BitVec 15) (s : State) :=
  onDev s (fun d => d.issue h 4 (fun d1 =>
    if rd.val > 1 ∨ rs1 ≠ 0 ∨ imm.toInt < 1 then d1.illegal h (encI 0x0B rd rs1 imm)
    else d1.enterLoop h rd 4 ((d1.thr h).pc + imm15 imm <<< 2)))

/-- LOOPI writes IMM32[23:0] to lcN and enters; FN, unsigned and at least 2, gives LTAIL (R79). A fault on the read of
LTAIL leaves lcN as it was (R106). -/
def execLoopi (h : Hart) (rd rs1 rs2 : Fin 32) (fn : BitVec 10) (imm : BitVec 32) (s : State) :=
  onDev s (fun d => d.issue h 8 (fun d1 =>
    if rd.val > 1 ∨ rs1 ≠ 0 ∨ rs2 ≠ 0 ∨ imm.toNat / 2 ^ 24 ≠ 0 ∨ fn.toNat < 2 then d1.illegal h (encE 0x0C rd rs1 rs2 fn imm)
    else
      let t := d1.thr h
      let tail := t.pc + word (4 * fn.toNat)
      match d1.translate h.stn t.ring .fetch (.core 4) tail.toNat with
      | .fault c => d1.exc h c tail
      | .ok _ _ => (d1.updThr h (fun u => { u with lc := u.lc.set rd (BitVec.ofNat 24 imm.toNat) })).enterLoop h rd 8 tail))

end Sys2Proof.Machine
end

