-- ==== Sys2Proof/Machine/Dictionary.lean ====
section
/-! DEFINITION. The entries of the object dictionary: which exist, their types, values, rights and the effect of a write (R518 to
R533). -/

namespace Sys2Proof.Machine

/-! ### Agents (R518, R519, R527) -/

/-- The agent that makes a request. -/
inductive Agent where
  | bc
  | ha
  | hj
  | sb
  deriving DecidableEq, Repr

/-- What becomes of a message by the way it arrives. -/
inductive Reception where
  /-- it is not served -/
  | drop
  /-- its queue pair is not open: NAK remote access error (R447) -/
  | nak (port qpn : Nat)
  /-- it is served for an agent -/
  | from_ (a : Agent)
  deriving DecidableEq, Repr

/-- Administrator queue pair h. -/
def Dict.admin (x : Dict) (h : Nat) : AdmQp := x.adm.getD h ⟨0, 0, 2, false⟩

/-- What becomes of a message from a peer: while the boot ROM serves, only the selected source (R502); nothing while the signal
box restarts (R541). -/
def Dev.reception (d : Dev) (p : Peer) : Reception :=
  if !d.railsOn || d.dict.restarting then .drop
  else if d.pw.state = .boot then
    (match p with
     | .t1s _ _ => if d.sec.strap.toNat % 4 = 0 then .from_ .bc else .drop
     | .qp port n =>
       if d.sec.bootPort = some port.val ∧ n = 0 ∧ d.sec.cm.isSome ∧ (d.host.port port).up then .from_ .ha else .drop
     | .box => .drop)
  else match p with
    | .t1s _ _ => .from_ .bc
    | .box => .from_ .sb
    | .qp port n =>
      if !(d.host.port port).up then .drop
      else if n = 0 then (if (d.dict.admin port).en then .from_ .ha else .nak port 0)
      else if (d.qp port n).isSome then .from_ .hj else .nak port n

/-- The ring from which an agent accesses mirrored registers (R527). -/
def Agent.ring : Agent → Nat
  | .bc => 0
  | .ha => 1
  | .hj => 3
  | .sb => 0

/-! ### Mirrored registers (R531) -/

/-- What a mirrored entry stands for: a register, or a feature register of the stations by control number. -/
inductive Mirror where
  | reg (u : Unit_) (off : Nat)
  | feat (n : Nat)
  deriving DecidableEq, Repr

/-- Offsets of the TT_ page below 0xB8 that hold a register, as indices. -/
def ttIndex (k : Nat) : Bool := decide (k ≤ 0x0A) || (decide (0x10 ≤ k) && decide (k ≤ 0x16) && k != 0x13)

/-- Offsets of the RC_ page that hold a register, as indices. -/
def rcIndex (k : Nat) : Bool := decide (k ≤ 0x0D) || (decide (0x11 ≤ k) && decide (k ≤ 0x15))

/-- The register an entry mirrors. -/
def mirrorOf (idx sub : Nat) : Option Mirror :=
  if idx = 0x1010 then
    (if 1 ≤ sub ∧ sub ≤ 13 then some (.feat (0x34F + sub)) else none)
  else if idx = 0x1011 then (if 1 ≤ sub ∧ sub ≤ 3 then some (.reg .feat (8 * (sub - 1))) else none)
  else if 0x2000 ≤ idx ∧ idx < 0x2100 then (if ttIndex (idx - 0x2000) ∧ sub = 0 then some (.reg .tt (8 * (idx - 0x2000))) else none)
  else if 0x2100 ≤ idx ∧ idx < 0x2140 then
    (if 1 ≤ sub ∧ sub ≤ 2 then some (.reg .tt (0x400 + 16 * (idx - 0x2100) + 8 * (sub - 1))) else none)
  else if 0x3003 ≤ idx ∧ idx ≤ 0x3005 then (if sub = 0 then some (.reg .bd (8 * (idx - 0x3003))) else none)
  else if 0x4000 ≤ idx ∧ idx < 0x4100 then (if rcIndex (idx - 0x4000) ∧ sub = 0 then some (.reg .rc (8 * (idx - 0x4000))) else none)
  else if 0x5000 ≤ idx ∧ idx < 0x5004 then (if sub = 0 then some (.reg .pm (8 * (idx - 0x5000))) else none)
  else if 0x6000 ≤ idx ∧ idx < 0x6018 then (if 1 ≤ sub ∧ sub ≤ 4 then some (.reg (.lk (idx - 0x6000)) (8 * (sub - 1))) else none)
  else if 0x6100 ≤ idx ∧ idx < 0x6104 then (if sub = 0 then some (.reg .jn (8 * (idx - 0x6100))) else none)
  else if idx = 0x7101 ∨ idx = 0x7102 then (if sub = 0 then some (.reg .sec (8 * (idx - 0x7101))) else none)
  else none

/-! ### Entries and types (R530, R532) -/

/-- The highest subindex of an entry; none where no entry has the index. -/
def dictHigh (idx : Nat) : Option Nat :=
  if idx ≤ 0x1005 ∧ 0x1000 ≤ idx then some 0
  else if idx = 0x1006 then some 4
  else if idx = 0x1010 then some 13
  else if idx = 0x1011 then some 3
  else if idx = 0x1020 then some 2
  else if 0x1030 ≤ idx ∧ idx < 0x1034 then some 4
  else if idx = 0x1F00 ∨ idx = 0x1F01 then some 0
  else if 0x2000 ≤ idx ∧ idx < 0x2100 then (if ttIndex (idx - 0x2000) then some 0 else none)
  else if 0x2100 ≤ idx ∧ idx < 0x2140 then some 2
  else if 0x3001 ≤ idx ∧ idx ≤ 0x3005 then some 0
  else if 0x3010 ≤ idx ∧ idx < 0x3014 then some 0
  else if idx = 0x4100 then some 0
  else if 0x4000 ≤ idx ∧ idx < 0x4100 then (if rcIndex (idx - 0x4000) then some 0 else none)
  else if 0x5000 ≤ idx ∧ idx < 0x5004 then some 0
  else if idx = 0x5010 ∨ idx = 0x5020 then some 0
  else if 0x6000 ≤ idx ∧ idx < 0x6018 then some 4
  else if (0x6100 ≤ idx ∧ idx < 0x6104) ∨ idx = 0x6200 then some 0
  else if idx = 0x7001 ∨ idx = 0x7020 ∨ idx = 0x7021 ∨ idx = 0x7100 ∨ idx = 0x7101 ∨ idx = 0x7102 then some 0
  else if idx = 0x7010 then some 2
  else none

/-- A subindex of an entry exists: 0 where the highest is 0, else 1 to the highest. -/
def subExists (hi sub : Nat) : Bool := if hi = 0 then sub == 0 else decide (1 ≤ sub) && decide (sub ≤ hi)

/-- Type code and size of an entry that is no mirror; size 0 is a DOMAIN (R530, R532). -/
def dictType (idx sub : Nat) : Nat × Nat :=
  if idx = 0x1000 then (4, 4) else if idx = 0x1001 then (9, 16) else if idx = 0x1002 ∨ idx = 0x1005 ∨ idx = 0x1F01 then (5, 8)
  else if idx = 0x1003 then (8, 6) else if idx = 0x1004 ∨ idx = 0x1020 then (2, 1) else if idx = 0x1006 then (3, 2)
  else if 0x1030 ≤ idx ∧ idx < 0x1034 then (if sub = 1 then (8, 16) else if sub = 2 then (4, 4) else if sub = 3 then (2, 1) else (1, 1))
  else if idx = 0x3002 then (8, 64) else if idx = 0x5010 then (4, 4)
  else if idx = 0x7010 then (if sub = 1 then (8, 2592) else (8, 64))
  else (0xB, 0)

/-- The descriptor of sub 0xFF (R530). -/
def dictDesc (idx hi : Nat) : Nat :=
  if (mirrorOf idx (min hi 1)).isSome then 0x0A + hi * 2 ^ 8 + 8 * 2 ^ 16
  else if (0x1030 ≤ idx ∧ idx < 0x1034) ∨ idx = 0x7010 then
    Config.mixedDesc idx % 256 + hi * 2 ^ 8 + Config.mixedDesc idx / 256 % 65536 * 2 ^ 16
  else let (t, n) := dictType idx (min hi 1); t + hi * 2 ^ 8 + n * 2 ^ 16

/-- The part number by the stations the part is made with (R1, R532). -/
def partNumber (made : BitVec 128) : List Byte :=
  let tail : List Byte := if ones made = 128 then [0x32, 0x38] else if ones made = 120 then [0x32, 0x30] else [0x31, 0x32]
  [0x4B, 0x4F, 0x2D, 0x45, 0x4C, 0x38, 0x31] ++ tail

/-- 0x4100: the entries of the ring, oldest first (R500, R533). -/
def Rec.dump (r : Rec) : List Byte :=
  let n := if r.full then ringSize else r.head
  let first := if r.full then r.head else 0
  (List.range n).flatMap (fun j => bytesLE 32 (r.entry ((first + j) % ringSize)).toNat)

/-- The value of an entry that is no mirror. -/
def Dev.dictValue (d : Dev) (idx sub : Nat) : List Byte :=
  let x := d.dict
  if idx = 0x1000 then bytesLE 4 1
  else if idx = 0x1001 then partNumber d.made
  else if idx = 0x1002 then bytesLE 8 Config.serial
  else if idx = 0x1003 then bytesLE 6 Config.mac
  else if idx = 0x1004 then [Config.stepping]
  else if idx = 0x1005 then bytesLE 8 x.bootId
  else if idx = 0x1006 then bytesLE 2 0x0100
  else if idx = 0x1020 then (if sub = 1 then bytesLE 1 x.plcaId else bytesLE 1 x.plcaCount)
  else if 0x1030 ≤ idx ∧ idx < 0x1034 then
    (let a := x.admin (idx - 0x1030)
     if sub = 1 then bytesLE 16 a.gid else if sub = 2 then bytesLE 4 a.rqpn else if sub = 3 then bytesLE 1 a.pmtu
     else bytesLE 1 (b2n a.en))
  else if idx = 0x1F01 then bytesLE 8 x.ordseq
  else if idx = 0x3001 then x.staged
  else if idx = 0x3002 then x.digest
  else if 0x3010 ≤ idx ∧ idx < 0x3014 then d.bd.seals.getD (idx - 0x3010) []
  else if idx = 0x4100 then d.rc.dump
  else if idx = 0x5010 then bytesLE 4 x.period
  else if idx = 0x5020 then x.telem.flatMap (fun r => bytesLE 32 r.toNat)
  else if idx = 0x6200 then (List.range 65536).flatMap (fun i => bytesLE 1 (d.jn.routes.getD i 0x1F))
  else if idx = 0x7001 then (match d.sec.spdm with
    | some r => r.bytes
    | none => [])
  else if idx = 0x7010 then (if sub = 1 then x.orderKey.getD [] else match x.orderKey with
    | some k => Config.sha3 k
    | none => zero64)
  else if idx = 0x7020 then d.sec.dkkCert
  else if idx = 0x7021 then Config.certChain
  else []

/-! ### Rights (R528, R532) -/

/-- The rights of BC, HA and HJ to an entry that is no mirror: bit 0 read, bit 1 write. -/
def dictRights (idx sub : Nat) : Nat × Nat × Nat :=
  if idx = 0x1000 ∨ idx = 0x1001 ∨ idx = 0x1002 ∨ idx = 0x1004 ∨ idx = 0x1006 then (1, 1, 1)
  else if idx = 0x1020 ∨ (0x1030 ≤ idx ∧ idx < 0x1034) ∨ idx = 0x5010 then (3, 1, 0)
  else if idx = 0x1F00 ∨ idx = 0x7100 then (2, 2, 0)
  else if idx = 0x3001 ∨ idx = 0x6200 ∨ idx = 0x7001 then (3, 3, 0)
  else if idx = 0x7010 ∧ sub = 1 then (2, 0, 0)
  else (1, 1, 0)

/-- An agent's rights to an entry that is no mirror. -/
def Agent.rights (a : Agent) (idx sub : Nat) : Nat :=
  let r := dictRights idx sub
  match a with
  | .bc => r.1
  | .ha => r.2.1
  | .hj => r.2.2
  | .sb => if idx = 0x1F00 ∨ idx = 0x7010 ∨ idx = 0x7100 then r.1 % 2 else r.1

/-- The abort code with which an agent's read or write of an entry that is no mirror is refused, if it is. -/
def Agent.refused (a : Agent) (idx sub : Nat) (write : Bool) : Option Nat :=
  let m := a.rights idx sub
  let r := dictRights idx sub
  if bitOf m (if write then 1 else 0) then none
  else if write && m != 0 && !bitOf (r.1 ||| r.2.1 ||| r.2.2) 1 then some 0x06010002
  else some 0x06010001

/-- The boot profile (R502). -/
def inBootProfile (idx : Nat) : Bool :=
  (decide (0x1000 ≤ idx) && decide (idx < 0x1100)) || (decide (0x7000 ≤ idx) && decide (idx < 0x7100)) || idx == 0x7100
    || idx == 0x7101

/-- What an index and subindex name. -/
inductive Ent where
  /-- a mirrored register -/
  | mirror (m : Mirror)
  /-- the descriptor of sub 0xFF -/
  | desc (v : Nat)
  /-- an entry with a size, or a DOMAIN of size 0 -/
  | plain (size : Nat)
  deriving DecidableEq, Repr

/-- The entry an agent names, or the abort code (R502, R528 to R532). -/
def Dev.dictEnt (d : Dev) (a : Agent) (idx sub : Nat) : Except Nat Ent :=
  if a = .hj ∧ d.bd.state ≠ 2 then .error 0x08010002
  else if d.pw.state = .boot ∧ !inBootProfile idx then .error 0x06020000
  else if 0xF000 ≤ idx then .error (if d.sec.dbg ∧ a = .bc then 0x06020000 else 0x06010001)
  else match dictHigh idx with
    | none => .error 0x06020000
    | some hi =>
      if sub = 0xFF then .ok (.desc (dictDesc idx hi))
      else if !subExists hi sub then .error 0x06090011
      else match mirrorOf idx sub with
        | some m => .ok (.mirror m)
        | none => .ok (.plain (dictType idx sub).2)

/-! ### Reads -/

/-- A mirrored register read from a ring. -/
def Dev.mirrorRead (d : Dev) (ring : Nat) (m : Mirror) : Except Nat (Dev × Word) :=
  match m with
  | .feat n => .ok (d, (d.cr ⟨0, 0⟩ n).getD 0)
  | .reg u off => if ringMayReg ring false u off then .ok (d.unitRead u off) else .error 0x06010001

/-- The value of an entry for an agent; the flag says that it may be read in one message (R526, R530). -/
def Dev.dictRead (d : Dev) (a : Agent) (idx sub : Nat) : Except Nat (Dev × List Byte × Bool) :=
  match d.dictEnt a idx sub with
  | .error c => .error c
  | .ok (.desc v) => .ok (d, bytesLE 4 v, true)
  | .ok (.mirror m) => (match d.mirrorRead a.ring m with
    | .error c => .error c
    | .ok (d1, v) => .ok (d1, bytesLE 8 v.toNat, true))
  | .ok (.plain size) => (match a.refused idx sub false with
    | some c => .error c
    | none => .ok (d, d.dictValue idx sub, decide (0 < size) && decide (size ≤ 8)))

/-! ### Writes -/

/-- The route table written whole, in ascending device ID, each byte as JN_RTDATA stores it (R411, R533). -/
def Junction.putRoutes (j : Junction) (bs : List Byte) : Junction :=
  (List.range bs.length).foldl (fun j i =>
    let v := (bs.getD i 0).toNat
    if v < 24 then { j with routes := j.routes.set i v } else { j with routes := j.routes.drop i }) j

/-- The state lets an entry be written: 0, or the abort code (R502, R533). -/
def Dev.dictStateOk (d : Dev) (idx sub : Nat) : Nat :=
  if idx = 0x3001 ∧ (d.bd.state = 1 ∨ d.bd.state = 3) then 0x08010002
  else if idx = 0x7010 ∧ sub = 1 ∧ d.dict.orderKey.isSome then 0x08010002
  else if idx = 0x7001 ∧ d.dfatal then 0x08010002
  else if idx = 0x7100 then
    (if d.pw.state ≠ .boot ∨ d.sec.code = 7 then 0x08010002 else if d.sec.verifying.isSome then 0x08010001 else 0)
  else 0

/-- The value lies in the entry's range: 0, or the abort code. -/
def dictRangeOk (idx sub v : Nat) : Nat :=
  let bad :=
    if idx = 0x1020 ∧ sub = 1 then !(decide (1 ≤ v) && decide (v ≤ 16))
    else if 0x1030 ≤ idx ∧ idx < 0x1034 then (sub == 3 && decide (2 < v)) || (sub == 4 && decide (1 < v))
    else if idx = 0x5010 then !(decide (1000 ≤ v) && decide (v ≤ 1000000))
    else false
  if bad then 0x06090030 else 0

/-- The effect of a whole write to an entry that is no mirror (R502, R512, R532, R533). An order goes its own way. -/
def Dev.dictStore (d : Dev) (idx sub : Nat) (bs : List Byte) : Dev :=
  let x := d.dict
  let v := natLE bs
  if idx = 0x1020 then { d with dict := if sub = 1 then { x with plcaId := v } else { x with plcaCount := v } }
  else if 0x1030 ≤ idx ∧ idx < 0x1034 then
    (let h := idx - 0x1030
     let a := x.admin h
     let b : AdmQp := if sub = 1 then { a with gid := v } else if sub = 2 then { a with rqpn := v }
       else if sub = 3 then { a with pmtu := v } else { a with en := decide (v = 1) }
     { d with dict := { x with adm := x.adm.set h b } })
  else if idx = 0x3001 then { d with dict := { x with staged := bs, digest := Config.sha3 bs } }
  else if idx = 0x5010 then { d with dict := { x with period := v } }
  else if idx = 0x6200 then { d with jn := d.jn.putRoutes bs }
  else if idx = 0x7001 then d.spdmServe ((Config.spdmParse bs).getD (.other (bs.getD 1 0)))
  else if idx = 0x7010 then { d with dict := { x with orderKey := some bs } }
  else if idx = 0x7100 then { d with sec := { d.sec with verifying := some bs.length } }
  else d

/-- The largest write of a DOMAIN, and the length a write must have where one is fixed. -/
def dictSizeOk (idx size len : Nat) : Bool :=
  if 0 < size then len == size
  else if idx = 0x3001 then decide (1 ≤ len) && decide (len ≤ 40 * 1024)
  else if idx = 0x6200 then len == 65536
  else if idx = 0x7100 then decide (1 ≤ len) && decide (len ≤ 2 ^ 24)
  else decide (1 ≤ len) && decide (len ≤ 16785408)

/-- What a write of an agent to an entry is refused with before its value is known: 0, or the abort code. `size` is the length
it announces. -/
def Dev.dictMayWrite (d : Dev) (a : Agent) (idx sub len : Nat) : Nat :=
  match d.dictEnt a idx sub with
  | .error c => c
  | .ok (.desc _) => 0x06010002
  | .ok (.mirror (.feat _)) => if len = 8 then 0 else 0x06070010
  | .ok (.mirror (.reg u off)) => if !ringMayReg a.ring true u off then 0x06010001 else if len = 8 then 0 else 0x06070010
  | .ok (.plain size) => (match a.refused idx sub true with
    | some c => c
    | none => if !dictSizeOk idx size len then 0x06070010 else d.dictStateOk idx sub)

/-- A whole write takes effect: the device, and 0 or the abort code. -/
def Dev.dictWrite (d : Dev) (a : Agent) (idx sub : Nat) (bs : List Byte) : Dev × Nat :=
  match d.dictMayWrite a idx sub bs.length with
  | 0 =>
    (match mirrorOf idx sub with
     | some (.reg u off) => (d.unitStore a.ring 0 u off (word (natLE bs)), 0)
     | some (.feat _) => (d, 0)
     | none => (match dictRangeOk idx sub (natLE bs) with
       | 0 => (d.dictStore idx sub bs, 0)
       | c => (d, c)))
  | c => (d, c)

end Sys2Proof.Machine
end

