-- ==== Sys2Proof/Machine/DictRows.lean ====
section
/-! DEFINITION. Dictionary messages, transfers, the request queue and telemetry (R520 to R525, R533, R534, R539 to R541). -/

namespace Sys2Proof.Machine

/-! ### Answers -/

/-- A response to a message. -/
def Dev.respondTo (d : Dev) (p : Peer) (m : DMsg) (typ flags arg : Nat) (data : List Byte) : Dev :=
  d.emit (.dict p typ m.tid.toNat m.index.toNat m.sub.toNat flags arg data)

/-- An ABORT with its code (R522, R526). -/
def Dev.abortTo (d : Dev) (p : Peer) (m : DMsg) (code : Nat) : Dev := d.respondTo p m 0x86 0 code []

/-- A busy abort, which the next telemetry sample sees (R539, R540). -/
def Dev.busyTo (d : Dev) (p : Peer) (m : DMsg) : Dev :=
  let d1 : Dev := { d with dict := { d.dict with busy := true } }
  d1.abortTo p m 0x08010001

/-- A message keeps the format of R521: version, reserved bits, type, length, and ARG zero where it carries nothing. -/
def msgOk (m : DMsg) : Bool :=
  m.ver == 1 && decide (m.flags.toNat < 2) && decide (1 ≤ m.typ.toNat) && decide (m.typ.toNat ≤ 6) && decide (m.len.toNat ≤ 1024)
    && m.len.toNat == m.data.length && (decide (3 ≤ m.typ.toNat) || m.arg == 0)

/-! ### Transfers (R523 to R525) -/

/-- The open transfer of a source and TID. -/
def Dict.xfer (x : Dict) (p : Peer) (tid : Nat) : Option Xfer := x.xfers.find? (fun t => t.peer == p && t.tid == tid)

/-- A transfer is closed. -/
def Dict.close (x : Dict) (p : Peer) (tid : Nat) : Dict := { x with xfers := x.xfers.filter (fun t => !(t.peer == p && t.tid == tid)) }

/-- A transfer is opened, or changed. -/
def Dict.putXfer (x : Dict) (t : Xfer) : Dict := { (x.close t.peer t.tid) with xfers := (x.close t.peer t.tid).xfers ++ [t] }

/-- Open transfers the device holds. -/
def maxXfers : Nat := 32

/-- READ_INIT is served: the value is latched (R525). -/
def Dev.readInit (d : Dev) (a : Agent) (p : Peer) (m : DMsg) : Dev :=
  match d.dictRead a m.index.toNat m.sub.toNat with
  | .error c => d.abortTo p m c
  | .ok (d1, bs, _) =>
    let x := d1.dict.close p m.tid.toNat
    if maxXfers ≤ x.xfers.length then d.busyTo p m
    else
      let t : Xfer := { peer := p, tid := m.tid.toNat, index := m.index.toNat, sub := m.sub.toNat, write := false,
                        size := bs.length, next := 0, data := bs, last := d.now }
      let d2 : Dev := { d1 with dict := x.putXfer t }
      d2.respondTo p m 0x83 0 bs.length []

/-- WRITE_INIT is served. -/
def Dev.writeInit (d : Dev) (a : Agent) (p : Peer) (m : DMsg) : Dev :=
  match d.dictMayWrite a m.index.toNat m.sub.toNat m.arg.toNat with
  | 0 =>
    let x := d.dict.close p m.tid.toNat
    if x.xfers.any (fun t => t.write && t.index == m.index.toNat && t.sub == m.sub.toNat) then d.abortTo p m 0x08010004
    else if maxXfers ≤ x.xfers.length then d.busyTo p m
    else
      let t : Xfer := { peer := p, tid := m.tid.toNat, index := m.index.toNat, sub := m.sub.toNat, write := true,
                        size := m.arg.toNat, next := 0, data := [], last := d.now }
      let d1 : Dev := { d with dict := x.putXfer t }
      d1.respondTo p m 0x84 0 0 []
  | c => d.abortTo p m c

/-- A transfer ends with an abort. -/
def Dev.xferAbort (d : Dev) (p : Peer) (m : DMsg) (code : Nat) : Dev :=
  let d1 : Dev := { d with dict := d.dict.close p m.tid.toNat }
  d1.abortTo p m code

/-- The bytes of an entry whose segments are read as they stand, or the latched value (R525). -/
def Dev.xferData (d : Dev) (t : Xfer) : List Byte :=
  if t.index = 0x4100 ∨ t.index = 0x5020 then d.dictValue t.index t.sub else t.data

/-- A segment of a read: the final one closes the transfer. -/
def Dev.segRead (d : Dev) (p : Peer) (m : DMsg) (t : Xfer) : Dev :=
  let n := m.arg.toNat
  if m.len ≠ 0 then d.xferAbort p m 0x05010001
  else if t.next < n then d.xferAbort p m 0x05040003
  else
    let bs := ((d.xferData t).drop (1024 * n)).take 1024
    let fin := decide (t.size ≤ 1024 * (n + 1))
    let x := if fin then d.dict.close p m.tid.toNat
      else d.dict.putXfer { t with next := max t.next (n + 1), last := d.now }
    let d1 : Dev := { d with dict := x }
    d1.respondTo p m 0x85 (b2n fin) n bs

/-- The last segment of a write has come: it takes effect (R502, R525, R538). -/
def Dev.segDone (d : Dev) (a : Agent) (p : Peer) (m : DMsg) (t : Xfer) (bs : List Byte) : Dev :=
  let d1 : Dev := { d with dict := d.dict.close p m.tid.toNat }
  match d1.dictMayWrite a t.index t.sub bs.length with
  | 0 =>
    if t.index = 0x1F00 then d1.order bs (.dict p m)
    else (match d1.dictWrite a t.index t.sub bs with
      | (d2, 0) => d2.respondTo p m 0x85 0 m.arg.toNat []
      | (d2, c) => d2.abortTo p m c)
  | c => d1.abortTo p m c

/-- A segment of a write. The bytes of an image land in the boot window as they come (R502). -/
def Dev.segWrite (d : Dev) (a : Agent) (p : Peer) (m : DMsg) (t : Xfer) : Dev :=
  let n := m.arg.toNat
  let last := m.flags.getLsbD 0
  if n < t.next then
    (let d1 : Dev := { d with dict := d.dict.putXfer { t with last := d.now } }
     d1.respondTo p m 0x85 0 n [])
  else if n ≠ t.next then d.xferAbort p m 0x05040003
  else if (!last && m.len.toNat != 1024) || m.len == 0 then d.xferAbort p m 0x05010001
  else
    let bs := t.data ++ m.data
    if t.size < bs.length ∨ (last ∧ bs.length ≠ t.size) then d.xferAbort p m 0x06070010
    else
      let d0 := if t.index = 0x7100 ∧ !d.mem.bootLock then
        { d with mem := { d.mem with bootWin := d.mem.bootWin.writeBytes t.data.length m.data } } else d
      if last then d0.segDone a p m t bs
      else
        let d1 : Dev := { d0 with dict := d0.dict.putXfer { t with next := n + 1, data := bs, last := d.now } }
        d1.respondTo p m 0x85 0 n []

/-- A segment is served (R523, R524). -/
def Dev.segServe (d : Dev) (a : Agent) (p : Peer) (m : DMsg) : Dev :=
  match d.dict.xfer p m.tid.toNat with
  | none => d.abortTo p m 0x05040002
  | some t => if t.write then d.segWrite a p m t else d.segRead p m t

/-! ### Serving -/

/-- READ is served (R522, R530). -/
def Dev.readServe (d : Dev) (a : Agent) (p : Peer) (m : DMsg) : Dev :=
  match d.dictRead a m.index.toNat m.sub.toNat with
  | .error c => d.abortTo p m c
  | .ok (d1, bs, small) => if small then d1.respondTo p m 0x81 0 0 bs else d.abortTo p m 0x06070010

/-- WRITE is served: an entry of at most 8 bytes (R522, R530). -/
def Dev.writeServe (d : Dev) (a : Agent) (p : Peer) (m : DMsg) : Dev :=
  let size := match mirrorOf m.index.toNat m.sub.toNat with
    | some _ => 8
    | none => (dictType m.index.toNat m.sub.toNat).2
  match d.dictEnt a m.index.toNat m.sub.toNat with
  | .error c => d.abortTo p m c
  | .ok _ =>
    if (size = 0 ∨ 8 < size) ∧ m.sub.toNat ≠ 0xFF then d.abortTo p m 0x06070010
    else (match d.dictWrite a m.index.toNat m.sub.toNat m.data with
      | (d1, 0) => d1.respondTo p m 0x82 0 0 []
      | (d1, c) => d1.abortTo p m c)

/-- A request is served (R520, R521). -/
def Dev.serveReq (d : Dev) (q : DReq) : Dev :=
  let m := q.msg
  match d.reception q.peer with
  | .drop => d
  | .nak _ _ => d
  | .from_ a =>
    if !msgOk m then d.abortTo q.peer m 0x05010001
    else if m.devid ≠ 0xFFFF ∧ m.devid.toNat ≠ d.jn.devid then d.abortTo q.peer m 0x06020001
    else if m.typ = 1 then d.readServe a q.peer m
    else if m.typ = 2 then d.writeServe a q.peer m
    else if m.typ = 3 then d.readInit a q.peer m
    else if m.typ = 4 then d.writeInit a q.peer m
    else d.segServe a q.peer m

/-- The oldest request is served. -/
def Dev.serveNext (d : Dev) : Dev :=
  match d.dict.queue with
  | [] => d
  | q :: r => ({ d with dict := { d.dict with queue := r } } : Dev).serveReq q

/-- Every request that waits is served, in order. -/
def Dev.serveQueue (d : Dev) : Dev := d.dict.queue.foldl (fun u _ => u.serveNext) d

/-- A request finds a place: 240 entries for any, 256 with those kept for messages to 0x1F00 (R539). -/
def Dict.room (x : Dict) (idx : Nat) : Bool :=
  decide (x.queue.length < 256)
    && (idx == 0x1F00 || decide ((x.queue.filter (fun q => q.msg.index.toNat != 0x1F00)).length < 240))

/-- A message of a type arrives, and is served at once or left in the queue (R539). A message of another listed type is the
row's of that type. -/
def Dev.arrive (d : Dev) (typ : Nat) (p : Peer) (m : DMsg) (serve : Bool) : Dev :=
  if m.typ.toNat ≠ typ ∧ 1 ≤ m.typ.toNat ∧ m.typ.toNat ≤ 6 then d
  else match d.reception p with
    | .drop => d
    | .nak port qpn => d.emit (.rdmaNak port qpn false)
    | .from_ _ =>
      if !d.dict.room m.index.toNat then d.busyTo p m
      else
        let d1 : Dev := { d with dict := { d.dict with queue := d.dict.queue ++ [⟨p, m, d.now⟩] } }
        if serve then d1.serveQueue else d1

/-- DICT_READ (R522) -/
def execDictRead (p : Peer) (m : DMsg) (serve : Bool) (s : State) := onDev s (fun d => d.arrive 1 p m serve)

/-- DICT_WRITE (R522) -/
def execDictWrite (p : Peer) (m : DMsg) (serve : Bool) (s : State) := onDev s (fun d => d.arrive 2 p m serve)

/-- READ_INIT (R522) -/
def execReadInit (p : Peer) (m : DMsg) (serve : Bool) (s : State) := onDev s (fun d => d.arrive 3 p m serve)

/-- WRITE_INIT (R522) -/
def execWriteInit (p : Peer) (m : DMsg) (serve : Bool) (s : State) := onDev s (fun d => d.arrive 4 p m serve)

/-- SEG (R523) -/
def execSeg (p : Peer) (m : DMsg) (serve : Bool) (s : State) := onDev s (fun d => d.arrive 5 p m serve)

/-- An ABORT of a requester is applied on arrival (R520, R522, R524, R539). -/
def Dev.abortArrives (d : Dev) (p : Peer) (m : DMsg) : Dev :=
  if m.typ ≠ 6 then d
  else match d.reception p with
    | .drop => d
    | .nak port qpn => d.emit (.rdmaNak port qpn false)
    | .from_ _ =>
      if !msgOk m then d.abortTo p m 0x05010001
      else if m.devid ≠ 0xFFFF ∧ m.devid.toNat ≠ d.jn.devid then d.abortTo p m 0x06020001
      else match d.dict.xfer p m.tid.toNat with
        | none => d.abortTo p m 0x05040002
        | some _ => { d with dict := d.dict.close p m.tid.toNat }

/-- DICT_ABORT (R522) -/
def execDictAbort (p : Peer) (m : DMsg) (s : State) := onDev s (fun d => d.abortArrives p m)

/-! ### Time limits (R524, R539) -/

/-- The transfer that has waited longest. -/
def Dict.stale (x : Dict) : Option Xfer :=
  x.xfers.foldl (fun m t => match m with
    | some o => if t.last < o.last then some t else some o
    | none => some t) none

/-- The transfer that has waited longest has had no message for 1 s. -/
def Dev.xferLate (d : Dev) : Dev :=
  match d.dict.stale with
  | none => d
  | some t =>
    let d1 := d.notBefore (t.last + 1000000 * usU)
    let d2 : Dev := { d1 with dict := d1.dict.close t.peer t.tid }
    d2.emit (.dict t.peer 0x86 t.tid t.index t.sub 0 0x05040000 [])

/-- TRANSFER_TIMEOUT (R524) -/
def execTransferTimeout (s : State) := onDev s (fun d => if d.railsOn then d.xferLate else d)

/-- The oldest request has not been served for 50 ms. -/
def Dev.queueLate (d : Dev) : Dev :=
  match d.dict.queue with
  | [] => d
  | q :: r =>
    let d1 := d.notBefore (q.at_ + 50000 * usU)
    let d2 : Dev := { d1 with dict := { d1.dict with queue := r } }
    d2.busyTo q.peer q.msg

/-- QUEUE_TIMEOUT (R539) -/
def execQueueTimeout (s : State) := onDev s (fun d => if d.railsOn then d.queueLate else d)

/-! ### Telemetry (R534, R540) -/

/-- Records the telemetry ring holds. -/
def telemSize : Nat := 4096

/-- A telemetry record. -/
def Dev.telemRec (d : Dev) (degraded : Bool) (pin iin vin tjmax tjstn : Nat) : BitVec 256 :=
  BitVec.ofNat 256 (natLE (bytesLE 8 d.tt.tick ++ bytesLE 4 ((d.now - d.tt.lastB) / nsU) ++ bytesLE 1 (b2n degraded) ++ bytesLE 1 0
    ++ bytesLE 2 pin ++ bytesLE 2 iin ++ bytesLE 2 vin ++ bytesLE 2 tjmax ++ bytesLE 2 tjstn ++ bytesLE 4 0
    ++ bytesLE 4 d.dict.tseq))

/-- A sample, at its instant (R540). -/
def Dev.sample (d : Dev) (pin iin vin tjmax tjstn : Nat) : Dev :=
  if d.pw.state ≠ .running ∨ d.dict.restarting then d
  else
    let d1 := d.notBefore (d.dict.sampled + d.dict.period * usU * (if d.dict.degraded then 8 else 1))
    let x := d1.dict
    let above := decide (192 < x.queue.length) || x.busy
    let calm := decide (x.queue.length < 64) && !x.busy
    let r := d1.telemRec (above || x.degraded) pin iin vin tjmax tjstn
    { d1 with dict := { x with
      telem := (if telemSize ≤ x.telem.length then x.telem.drop 1 else x.telem) ++ [r], tseq := (x.tseq + 1) % 2 ^ 32,
      degraded := above || (x.degraded && !calm), busy := false, sampled := d1.now } }

/-- TELEMETRY_SAMPLE (R540): input power, current and voltage, the hottest temperature and its station. -/
def execTelemetrySample (pin iin vin tjmax tjstn : BitVec 16) (s : State) :=
  onDev s (fun d => d.sample pin.toNat iin.toNat vin.toNat tjmax.toNat tjstn.toNat)

/-! ### The signal box (R541) -/

/-- SIGNAL_BOX_RESTART (R541) -/
def execSignalBoxRestart (s : State) :=
  onDev s (fun d => if d.pw.state = .running then { d with dict := { d.dict with restarting := true, xfers := [], queue := [] } } else d)

/-- SIGNAL_BOX_RESTART_END (R541) -/
def execSignalBoxRestartEnd (s : State) :=
  onDev s (fun d => if d.dict.restarting then { d with dict := { d.dict with restarting := false, queue := [] } } else d)

end Sys2Proof.Machine
end

