-- ==== Sys2Proof/Machine/Integer.lean ====
section
/-! DEFINITION. Integer register and immediate operations (R60, R61). -/

namespace Sys2Proof.Machine

def execAdd (h : Hart) (rd rs1 rs2 : Fin 32) (s : State) := onDev s (fun d => d.aluR h rd rs1 rs2 (fun a b => a + b))
def execSub (h : Hart) (rd rs1 rs2 : Fin 32) (s : State) := onDev s (fun d => d.aluR h rd rs1 rs2 (fun a b => a - b))
def execAnd (h : Hart) (rd rs1 rs2 : Fin 32) (s : State) := onDev s (fun d => d.aluR h rd rs1 rs2 (fun a b => a &&& b))
def execOr (h : Hart) (rd rs1 rs2 : Fin 32) (s : State) := onDev s (fun d => d.aluR h rd rs1 rs2 (fun a b => a ||| b))
def execXor (h : Hart) (rd rs1 rs2 : Fin 32) (s : State) := onDev s (fun d => d.aluR h rd rs1 rs2 (fun a b => a ^^^ b))

/-- Shifts use rs2[5:0] (R60). -/
def shAmt (b : Word) : Nat := b.toNat % 64

def execSll (h : Hart) (rd rs1 rs2 : Fin 32) (s : State) := onDev s (fun d => d.aluR h rd rs1 rs2 (fun a b => a <<< shAmt b))
def execSrl (h : Hart) (rd rs1 rs2 : Fin 32) (s : State) := onDev s (fun d => d.aluR h rd rs1 rs2 (fun a b => a >>> shAmt b))
def execSra (h : Hart) (rd rs1 rs2 : Fin 32) (s : State) :=
  onDev s (fun d => d.aluR h rd rs1 rs2 (fun a b => a.sshiftRight (shAmt b)))
def execSlt (h : Hart) (rd rs1 rs2 : Fin 32) (s : State) :=
  onDev s (fun d => d.aluR h rd rs1 rs2 (fun a b => boolWord (sltB a b)))
def execSltu (h : Hart) (rd rs1 rs2 : Fin 32) (s : State) :=
  onDev s (fun d => d.aluR h rd rs1 rs2 (fun a b => boolWord (ultB a b)))
def execMin (h : Hart) (rd rs1 rs2 : Fin 32) (s : State) :=
  onDev s (fun d => d.aluR h rd rs1 rs2 (fun a b => if sltB b a then b else a))
def execMax (h : Hart) (rd rs1 rs2 : Fin 32) (s : State) :=
  onDev s (fun d => d.aluR h rd rs1 rs2 (fun a b => if sltB a b then b else a))
def execMinu (h : Hart) (rd rs1 rs2 : Fin 32) (s : State) :=
  onDev s (fun d => d.aluR h rd rs1 rs2 (fun a b => if ultB b a then b else a))
def execMaxu (h : Hart) (rd rs1 rs2 : Fin 32) (s : State) :=
  onDev s (fun d => d.aluR h rd rs1 rs2 (fun a b => if ultB a b then b else a))
def execClz (h : Hart) (rd rs1 rs2 : Fin 32) (s : State) :=
  onDev s (fun d => d.aluU h 0x00E rd rs1 rs2 (fun a => word (clz64 a)))
def execCtz (h : Hart) (rd rs1 rs2 : Fin 32) (s : State) :=
  onDev s (fun d => d.aluU h 0x00F rd rs1 rs2 (fun a => word (ctzN a.toNat 64)))
def execPopc (h : Hart) (rd rs1 rs2 : Fin 32) (s : State) :=
  onDev s (fun d => d.aluU h 0x010 rd rs1 rs2 (fun a => word (popN a.toNat 64)))

/-- The W forms operate on bits 31:0 and sign-extend the 32-bit result (R60). -/
def execAddw (h : Hart) (rd rs1 rs2 : Fin 32) (s : State) :=
  onDev s (fun d => d.aluR h rd rs1 rs2 (fun a b => sext 32 (a + b)))
def execSubw (h : Hart) (rd rs1 rs2 : Fin 32) (s : State) :=
  onDev s (fun d => d.aluR h rd rs1 rs2 (fun a b => sext 32 (a - b)))

def execAddi (h : Hart) (rd rs1 : Fin 32) (imm : BitVec 15) (s : State) := onDev s (fun d => d.aluI h rd rs1 imm (fun a b => a + b))
def execAndi (h : Hart) (rd rs1 : Fin 32) (imm : BitVec 15) (s : State) := onDev s (fun d => d.aluI h rd rs1 imm (fun a b => a &&& b))
def execOri (h : Hart) (rd rs1 : Fin 32) (imm : BitVec 15) (s : State) := onDev s (fun d => d.aluI h rd rs1 imm (fun a b => a ||| b))
def execXori (h : Hart) (rd rs1 : Fin 32) (imm : BitVec 15) (s : State) := onDev s (fun d => d.aluI h rd rs1 imm (fun a b => a ^^^ b))
def execSlti (h : Hart) (rd rs1 : Fin 32) (imm : BitVec 15) (s : State) :=
  onDev s (fun d => d.aluI h rd rs1 imm (fun a b => boolWord (sltB a b)))
def execSltiu (h : Hart) (rd rs1 : Fin 32) (imm : BitVec 15) (s : State) :=
  onDev s (fun d => d.aluI h rd rs1 imm (fun a b => boolWord (ultB a b)))

/-- The shift of SHI: IMM[5:0] is the amount, IMM[7:6] the kind (R61). -/
def shiOp (imm : BitVec 15) (a : Word) : Word :=
  let n := imm.toNat % 64
  match (imm.toNat / 64) % 4 with
  | 0 => a <<< n
  | 1 => a >>> n
  | 2 => a.sshiftRight n
  | _ => a.rotateRight n

/-- SHI; IMM[14:8] must be zero (R58, R61). -/
def execShi (h : Hart) (rd rs1 : Fin 32) (imm : BitVec 15) (s : State) :=
  onDev s (fun d => d.issue h 4 (fun d1 =>
    if imm.toNat / 256 ≠ 0 then d1.illegal h (encI 0x08 rd rs1 imm)
    else d1.finish h 4 1 (fun t => t.setG rd (shiOp imm (t.gr rs1)))))

/-- LI and LIH require rs1, rs2 and FN to be zero (R61). -/
def Dev.loadImm (d : Dev) (h : Hart) (op : Nat) (rd rs1 rs2 : Fin 32) (fn : BitVec 10) (imm : BitVec 32)
    (f : Word → Word) : Dev :=
  d.issue h 8 (fun d1 =>
    if rs1 ≠ 0 ∨ rs2 ≠ 0 ∨ fn ≠ 0 then d1.illegal h (encE op rd rs1 rs2 fn imm)
    else d1.finish h 8 1 (fun t => t.setG rd (f (t.gr rd))))

def execLi (h : Hart) (rd rs1 rs2 : Fin 32) (fn : BitVec 10) (imm : BitVec 32) (s : State) :=
  onDev s (fun d => d.loadImm h 0x0D rd rs1 rs2 fn imm (fun _ => imm32 imm))

/-- LIH keeps rd[31:0] (R61). -/
def execLih (h : Hart) (rd rs1 rs2 : Fin 32) (fn : BitVec 10) (imm : BitVec 32) (s : State) :=
  onDev s (fun d => d.loadImm h 0x0E rd rs1 rs2 fn imm (fun a => imm ++ a.truncate 32))

end Sys2Proof.Machine
end

