-- ==== Sys2Proof/Machine/MulDiv.lean ====
section
/-! DEFINITION. Multiplies into the mq registers and divides (R71, R73). -/

namespace Sys2Proof.Machine

/-- A write to mq register n that issues at cycle c lands at c + 4 (R71). -/
def Thread.mqIssue (c n : Nat) (v : Word) (t : Thread) : Thread := { t with mqPend := t.mqPend ++ [(c + 4, n, v)] }

/-- A multiply: rd[22:21] selects the mq register and rd[25:23] must be zero (R71). -/
def Dev.mulOp (d : Dev) (h : Hart) (fn : Nat) (rd rs1 rs2 : Fin 32) (f : Word → Word → Word) : Dev :=
  d.issue h 4 (fun d1 =>
    if rd.val > 3 then d1.illegal h (encA 0x09 fn rd rs1 rs2)
    else d1.finish h 4 1 (fun t => t.mqIssue (d1.cycleOf h) rd (f (t.gr rs1) (t.gr rs2))))

/-- The high 64 bits of the product of two integers. -/
def mulHi (a b : Int) : Word := BitVec.ofInt 64 (a * b / 2 ^ 64)

def execMul (h : Hart) (rd rs1 rs2 : Fin 32) (s : State) := onDev s (fun d => d.mulOp h 0x000 rd rs1 rs2 (fun a b => a * b))
def execMulh (h : Hart) (rd rs1 rs2 : Fin 32) (s : State) :=
  onDev s (fun d => d.mulOp h 0x001 rd rs1 rs2 (fun a b => mulHi a.toInt b.toInt))
def execMulhu (h : Hart) (rd rs1 rs2 : Fin 32) (s : State) :=
  onDev s (fun d => d.mulOp h 0x002 rd rs1 rs2 (fun a b => mulHi a.toNat b.toNat))
def execMulhsu (h : Hart) (rd rs1 rs2 : Fin 32) (s : State) :=
  onDev s (fun d => d.mulOp h 0x003 rd rs1 rs2 (fun a b => mulHi a.toInt b.toNat))

/-- MFMQ reads without an interlock: rs1[17:16] selects, rs1[20:18] and rs2 are zero (R58, R71). -/
def execMfmq (h : Hart) (rd rs1 rs2 : Fin 32) (s : State) :=
  onDev s (fun d => d.issue h 4 (fun d1 =>
    if rs1.val > 3 ∨ rs2 ≠ 0 then d1.illegal h (encA 0x09 0x010 rd rs1 rs2)
    else d1.finish h 4 1 (fun t => t.setG rd (t.mqr rs1))))

/-- MTMQ writes like a multiply (R71). -/
def execMtmq (h : Hart) (rd rs1 rs2 : Fin 32) (s : State) :=
  onDev s (fun d => d.issue h 4 (fun d1 =>
    if rd.val > 3 ∨ rs2 ≠ 0 then d1.illegal h (encA 0x09 0x011 rd rs1 rs2)
    else d1.finish h 4 1 (fun t => t.mqIssue (d1.cycleOf h) rd (t.gr rs1))))

/-- A divide, for which the thread stalls 36 cycles (R73). -/
def Dev.divOp (d : Dev) (h : Hart) (rd rs1 rs2 : Fin 32) (f : Word → Word → Word) : Dev :=
  d.issue h 4 (fun d1 => d1.finish h 4 36 (fun t => t.setG rd (f (t.gr rs1) (t.gr rs2))))

/-- The signed quotient: all ones for a division by zero, −2^63 for −2^63 ÷ −1 (R73). -/
def divS (a b : Word) : Word := if b = 0 then BitVec.allOnes 64 else a.sdiv b
/-- The unsigned quotient (R73). -/
def divU (a b : Word) : Word := if b = 0 then BitVec.allOnes 64 else a / b
/-- The signed remainder: rs1 for a division by zero, 0 for −2^63 ÷ −1 (R73). -/
def remS (a b : Word) : Word := if b = 0 then a else a.srem b
/-- The unsigned remainder (R73). -/
def remU (a b : Word) : Word := if b = 0 then a else a % b

def execDiv (h : Hart) (rd rs1 rs2 : Fin 32) (s : State) := onDev s (fun d => d.divOp h rd rs1 rs2 divS)
def execDivu (h : Hart) (rd rs1 rs2 : Fin 32) (s : State) := onDev s (fun d => d.divOp h rd rs1 rs2 divU)
def execRem (h : Hart) (rd rs1 rs2 : Fin 32) (s : State) := onDev s (fun d => d.divOp h rd rs1 rs2 remS)
def execRemu (h : Hart) (rd rs1 rs2 : Fin 32) (s : State) := onDev s (fun d => d.divOp h rd rs1 rs2 remU)

end Sys2Proof.Machine
end

