-- ==== Sys2Proof/Machine/System.lean ====
section
/-! DEFINITION. The system instructions: control registers, gates, return, threads; and the entries at a boundary that the
block takes as events (R50, R52 to R55, R84, R89, R90, R97, R98, R103 to R107, R112). -/

namespace Sys2Proof.Machine

/-! ### MFC and MTC (R84) -/

/-- MFC reads a control register into rd (R84, R87). -/
def execMfc (h : Hart) (rd rs1 : Fin 32) (imm : BitVec 15) (s : State) :=
  onDev s (fun d => d.issue h 4 (fun d1 =>
    let n := imm.toNat % 4096
    let bits := encI 0x27 rd rs1 imm
    if imm.toNat / 4096 ≠ 0 ∨ rs1 ≠ 0 then d1.illegal h bits
    else match d1.cr h n with
      | none => d1.illegal h bits
      | some v =>
        if crPriv (d1.thr h).ring n false then d1.priv h bits
        else
          let d2 := if d1.crDraws h n then { d1 with free := d1.free + 1 } else d1
          d2.finish h 4 1 (fun t => t.setG rd v)))

/-- MTC writes rs1 to a control register: ILLEGAL, then PRIV, then TILE_OWN, then its wait, then the write (R50, R84, R87,
R105). -/
def Dev.mtc (d : Dev) (h : Hart) (rd rs1 : Fin 32) (imm : BitVec 15) : Dev :=
  d.issue h 4 (fun d1 =>
    let n := imm.toNat % 4096
    let bits := encI 0x28 rd rs1 imm
    let s := d1.stn h.stn
    let v := (d1.thr h).gr rs1
    if imm.toNat / 4096 ≠ 0 ∨ rd ≠ 0 ∨ (d1.cr h n).isNone ∨ crReadOnly n ∨ s.eng.crIllegal n v then d1.illegal h bits
    else if crPriv (d1.thr h).ring n true then d1.priv h bits
    else if crOwned n && !s.owns h.thr then d1.ownFault h
    else if s.crWait h.thr n v then d1.block h .score
    else (d1.updStn h.stn (fun x => x.crWrite h.thr n v)).finish h 4 1 id)

def execMtc (h : Hart) (rd rs1 : Fin 32) (imm : BitVec 15) (s : State) := onDev s (fun d => d.mtc h rd rs1 imm)

/-- MTC to STATUS (R89, R110). -/
def execStatusWrite (h : Hart) (rd rs1 : Fin 32) (s : State) := onDev s (fun d => d.mtc h rd rs1 0x140)

/-- MTC to XREL (R90). -/
def execXrel (h : Hart) (rd rs1 : Fin 32) (s : State) := onDev s (fun d => d.mtc h rd rs1 0x147)

/-- MTC to VSLFSR (R129, R299). -/
def execVslfsrWrite (h : Hart) (rd rs1 : Fin 32) (s : State) := onDev s (fun d => d.mtc h rd rs1 0x203)

/-- MTC to QLFSR (R77). -/
def execQlfsrWrite (h : Hart) (rd rs1 : Fin 32) (s : State) := onDev s (fun d => d.mtc h rd rs1 0x012)

/-- MTC to ME_FLAGS (R226). -/
def execMeFlagsWrite (h : Hart) (rd rs1 : Fin 32) (s : State) := onDev s (fun d => d.mtc h rd rs1 0x328)

/-- MTC to ME_SRSEED (R231). -/
def execMeSrseedWrite (h : Hart) (rd rs1 : Fin 32) (s : State) := onDev s (fun d => d.mtc h rd rs1 0x32A)

/-- MTC to TC_OWN: FREL (R162, R163). -/
def execFrel (h : Hart) (rd rs1 : Fin 32) (s : State) := onDev s (fun d => d.mtc h rd rs1 0x308)

/-- MTC to ME_CBCTL: STOP, and RESUME (R282, R284). -/
def execStop (h : Hart) (rd rs1 : Fin 32) (s : State) := onDev s (fun d => d.mtc h rd rs1 0x341)

/-! ### GATE and XRET -/

/-- The byte of gate n (R102). -/
def Station.gate (s : Station) (n : Nat) : Nat := wfld (s.gtab.getD (n / 8) 0) (8 * (n % 8) + 7) (8 * (n % 8))

/-- GATE enters its target ring, its own completion computed first; an occupied shadow set locks up (R98, R99, R103). -/
def Dev.takeGate (d : Dev) (h : Hart) (n T : Nat) : Dev :=
  let x (t : Thread) : XEntry :=
    { code := 0x1F, int := false, impr := false, multi := false, detail := n, xaddr := 0, xpc := t.pc, target := T }
  if (d.thr h).occ T then d.enter h (x (d.thr h))
  else
    let d1 := (d.updThr h (fun t => t.done 4)).pass h.stn 1
    d1.enter h (x (d1.thr h))

/-- GATE: IMM[14:8] zero; the gate is enabled, allowed from the current ring, and not less privileged (R84, R103). -/
def execGate (h : Hart) (rd rs1 : Fin 32) (imm : BitVec 15) (s : State) :=
  onDev s (fun d => d.issue h 4 (fun d1 =>
    let n := imm.toNat % 256
    let g := (d1.stn h.stn).gate n
    let c := (d1.thr h).ring
    if rd ≠ 0 ∨ rs1 ≠ 0 ∨ imm.toNat / 256 ≠ 0 then d1.illegal h (encI 0x29 rd rs1 imm)
    else if bitOf g 7 && bitOf g c && decide (fld g 5 4 ≤ c) then d1.takeGate h n (fld g 5 4)
    else d1.exc h 0x0C 0 n))

/-- XRET (R97): PRIV where the saved ring is more privileged than the current one. -/
def execXret (h : Hart) (rd rs1 rs2 : Fin 32) (s : State) :=
  onDev s (fun d => d.issue h 4 (fun d1 =>
    let t := d1.thr h
    let bits := encA 0x3E 0x021 rd rs1 rs2
    if rd ≠ 0 ∨ rs1 ≠ 0 ∨ rs2 ≠ 0 then d1.illegal h bits
    else if wfld (t.xst.getD t.ring 0) 1 0 < t.ring then d1.priv h bits
    else d1.updStn h.stn (fun x =>
      (x.updThr h.thr (fun u => { (u.xret x.cycle) with instret := u.instret + 1 })).pass 3)))

/-! ### Threads (R52, R53, R55) -/

/-- A system instruction without operands completes; its fields are zero (R58, R84). -/
def Dev.sys0 (d : Dev) (h : Hart) (fn : Nat) (rd rs1 rs2 : Fin 32) (body : Dev → Dev) : Dev :=
  d.issue h 4 (fun d1 => if rd ≠ 0 ∨ rs1 ≠ 0 ∨ rs2 ≠ 0 then d1.illegal h (encA 0x3E fn rd rs1 rs2) else body d1)

def execNop (h : Hart) (rd rs1 rs2 : Fin 32) (s : State) :=
  onDev s (fun d => d.sys0 h 0x001 rd rs1 rs2 (fun d1 => d1.finish h 4 1 id))

/-- YIELD completes and switches out (R52, R53). -/
def execYield (h : Hart) (rd rs1 rs2 : Fin 32) (s : State) :=
  onDev s (fun d => d.sys0 h 0x002 rd rs1 rs2 (fun d1 => (d1.finish h 4 1 id).updStn h.stn (fun x => x.switchOut h.thr)))

/-- WFI completes and switches out; its thread is not ready until an interrupt is pending and unmasked (R52, R55, R104). -/
def execWfi (h : Hart) (rd rs1 rs2 : Fin 32) (s : State) :=
  onDev s (fun d => d.sys0 h 0x003 rd rs1 rs2 (fun d1 =>
    let d2 := d1.finish h 4 1 id
    if (d2.thr h).irqs ≠ 0 then d2.updStn h.stn (fun x => x.switchOut h.thr) else d2.block h .wfi))

/-- TSTART enables a thread that is not enabled, at rs2, in the starter's ring (R55, R84). -/
def execTstart (h : Hart) (rd rs1 rs2 : Fin 32) (s : State) :=
  onDev s (fun d => d.issue h 4 (fun d1 =>
    let t := d1.thr h
    let bits := encA 0x3E 0x004 rd rs1 rs2
    let k := (t.gr rs1).toNat % 4
    if rd ≠ 0 then d1.illegal h bits
    else if 2 ≤ t.ring then d1.priv h bits
    else (d1.updStn h.stn (fun x => x.updThr k (fun u =>
        if u.enabled then u
        else { u with enabled := true, wait := .ready, pc := t.gr rs2 &&& ~~~3#64,
                      status := BitVec.ofNat 16 (setFld u.status.toNat 1 0 t.ring) }))).finish h 4 1 id))

/-- TSTOP disables its thread, releases its ownership and switches out; on thread 0 it takes ILLEGAL (R55, R84, R163). -/
def execTstop (h : Hart) (rd rs1 rs2 : Fin 32) (s : State) :=
  onDev s (fun d => d.issue h 4 (fun d1 =>
    let bits := encA 0x3E 0x005 rd rs1 rs2
    if rd ≠ 0 ∨ rs1 ≠ 0 ∨ rs2 ≠ 0 ∨ h.thr = 0 then d1.illegal h bits
    else if 2 ≤ (d1.thr h).ring then d1.priv h bits
    else (d1.finish h 4 1 (fun t => { t with enabled := false })).updStn h.stn
      (fun x => (x.release h.thr).switchOut h.thr)))

/-! ### Entries at a boundary (R104, R105, R107) -/

/-- At a boundary of a hart, an entry where the hart can issue. -/
def Dev.atBoundary (d : Dev) (h : Hart) (f : Dev → Thread → Dev) : Dev := if d.canIssue h then f d (d.thr h) else d

/-- The pending MCHK of a hart is taken at its boundary (R105). -/
def execMchkDelivery (h : Hart) (s : State) :=
  onDev s (fun d => d.atBoundary h (fun d1 t => match t.mchk with
    | some p => d1.takeMchk h p
    | none => d1))

/-- The oldest deliverable imprecise ARITH or ME_CMD of a hart is taken, where no MCHK or precise ARITH precedes it (R99,
R105, R107). -/
def execImpreciseDelivery (h : Hart) (s : State) :=
  onDev s (fun d => d.atBoundary h (fun d1 t => match t.mchk, t.parith, t.impr? with
    | none, none, some (ar, p) => d1.takeImpr h ar p
    | _, _, _ => d1))

/-- The lowest deliverable interrupt of a hart is taken, where nothing precedes it (R104, R105). -/
def execInterruptEntry (h : Hart) (s : State) :=
  onDev s (fun d => d.atBoundary h (fun d1 t => match t.mchk, t.parith, t.impr?, (d1.stn h.stn).irq? t with
    | none, none, none, some i => d1.takeIrq h i
    | _, _, _, _ => d1))

/-- NOINT_CNT of a hart has reached MAX while IE is 0: IE and OVRSTAY are set, and an interrupt this makes deliverable makes
the thread ready (R104, R112). -/
def execNointExpiry (h : Hart) (s : State) :=
  onDev s (fun d => d.onLive h.stn (fun x =>
    let t := x.thr h.thr
    if !t.ie && decide (x.nointMax.toNat ≤ x.nointCnt t) then
      let x1 := x.updThr h.thr (fun u => { u with status := BitVec.ofNat 16 (setBit (setBit u.status.toNat 2 true) 11 true) })
      if (x1.irq? (x1.thr h.thr)).isSome then x1.wakeBoundary h.thr else x1
    else x))

end Sys2Proof.Machine
end

