-- ==== Sys2Proof/Machine/VecConv.lean ====
section
/-! DEFINITION. Conversions, block scales and moves of the vector unit (R129, R140, R141, R148, R221). -/

namespace Sys2Proof.Machine

/-- The value of an element of any element type (R118, R209). -/
def etVal (et x : Nat) : FV :=
  match vecFmt? et with
  | some F => F.decode x
  | none =>
    let w := etWidth et
    let i : Int := if etUnsigned et then (x % 2 ^ w : Nat) else sval w x
    .fin (decide (i < 0)) ⟨i, if etQ et then -(etQFrac et : Int) else 0⟩

/-- One conversion to an element type (R141, R220, R221). -/
def convElem (r : Rnd) (et : Nat) (v : FV) : Nat × Ev :=
  match vecFmt? et with
  | some F => F.convert r false (v, snanEv v)
  | none =>
    let (x, e, out) := convertInt r (etWidth et) (if etQ et then etQFrac et else 0) (etUnsigned et) (v, snanEv v)
    (x, { e with sat := out })

/-- VCVT: from the type in IMM13[4:0] to the type in ET; the stochastic mode draws on VSLFSR for every active element
(R129, R141). -/
def execVcvt (h : Hart) (f : VF) (s : State) :=
  onDev s (fun d =>
    let et := f.et.toNat
    let st := f.imm.toNat
    let w := etWidth et
    let ws := etWidth st
    d.vec h 0x37 0x000 f
      (w != 0 && ws != 0 && decide (st < 32) && f.vs3 == 0 && f.vs2 == 0 && !f.sx && rmOk true f.rm) (max w ws) always
      (fun t =>
        if f.rm = 5 then
          let r := drawMap (fun i u => convElem (.sto u) et (etVal st (t.op1 f ws i))) (t.actives f.km) t.vslfsr.toNat
          ({ t.putL f.km f.zm w f.vd (r.1.map (fun p => (p.1, p.2.1))) with vslfsr := BitVec.ofNat 32 r.2 },
            r.1.map (fun p => (p.1, p.2.2)))
        else t.mapEv f w (fun i => convElem (t.rnd f.rm) et (etVal st (t.op1 f ws i)))))

/-! ### Block scales -/

/-- The block size: IMM13[0] (R140). -/
def blkSize (f : VF) : Nat := if f.imm.getLsbD 0 then 32 else 16

/-- The source type of VBQ: FP32 or BF16 (R140, log entry 11). -/
def vbqSrc (f : VF) : Nat := if Config.blockType 8 (f.imm.toNat / 2) % 2 = 0 then 9 else 11

/-- The source type of VBD: FP8 E4M3, FP8 E5M2, INT8 or UINT8 (R140, R210, log entry 11). -/
def vbdSrc (f : VF) : Nat :=
  let k := Config.blockType 9 (f.imm.toNat / 2) % 4
  if k = 0 then 12 else if k = 1 then 13 else if k = 2 then 0 else 4

/-- The block element format of a vector element type, by tile format code (R152, R210). -/
def blkFmt (et : Nat) : Nat := if et = 12 then 5 else if et = 13 then 6 else if et = 0 then 10 else 11

/-- VBQ over blocks of elements in ascending order, with the state of VSLFSR: the elements of each block and its scale. -/
def vbqBlocks (t : Thread) (f : VF) (ws : Nat) (src : Nat) : List (List Nat) → Nat → List (Nat × Nat × Ev) × List Nat × Nat
  | [], u => ([], [], u)
  | b :: r, u =>
    let act := b.filter (t.active f.km)
    let vals := act.map (fun i => etVal src (t.op1 f ws i))
    let E := blockScale (blkFmt f.et.toNat) vals
    let (l, u1) := drawMap (fun i v =>
        blockElem (if f.rm = 5 then .sto v else t.rnd f.rm) (blkFmt f.et.toNat) E (etVal src (t.op1 f ws i))) act u
    let (l2, s2, u2) := vbqBlocks t f ws src r u1
    (l ++ l2, E :: s2, u2)

/-- The indices below n in runs of b. -/
def runsOf (n b : Nat) : List (List Nat) :=
  (List.range ((n + b - 1) / b)).map (fun j => upFrom (j * b) (min (j * b + b) n - j * b))

/-- VBQ vd, vs3, vs1: blocks quantized to vd with their scales in vs3; inactive elements are zero (R140, R213). -/
def execVbq (h : Hart) (f : VF) (s : State) :=
  onDev s (fun d =>
    let et := f.et.toNat
    let src := vbqSrc f
    let ws := etWidth src
    d.vec h 0x37 0x008 f
      ((et == 12 || et == 13 || et == 0 || et == 4) && f.vs2 == 0 && !f.sx && !f.zm && rmOk true f.rm) ws always
      (fun t =>
        let (l, sc, u) := vbqBlocks t f ws src (runsOf t.vlN (blkSize f)) t.vslfsr.toNat
        let t1 := t.putL f.km true 8 f.vd (l.map (fun p => (p.1, p.2.1)))
        let t2 := t1.putL 0 false 8 f.vs3 (sc.zipIdx.map (fun p => (p.2, p.1)))
        ({ t2 with vslfsr := if f.rm = 5 then BitVec.ofNat 32 u else t2.vslfsr }, l.map (fun p => (p.1, p.2.2)))))

/-- VBD vd, vs1, vs3: elements decoded with their block's scale, rounded to FP32 or BF16 (R140, R211, R221). -/
def execVbd (h : Hart) (f : VF) (s : State) :=
  onDev s (fun d =>
    let et := f.et.toNat
    let w := etWidth et
    d.vec h 0x37 0x009 f ((et == 9 || et == 11) && f.vs2 == 0 && !f.sx && rmOk false f.rm) w always
      (fun t => t.mapEv f w (fun i =>
        let v := blockVal (blkFmt (vbdSrc f)) (elemOf (t.vr f.vs3) 8 (i / blkSize f)) (t.op1 f 8 i)
        ((vecFmt? et).getD fp32).convert (t.rnd f.rm) false (v, snanEv v))))

/-! ### Moves -/

/-- The fields of a move (R148). -/
def mvOk (f : VF) : Bool := etWidth f.et.toNat != 0 && f.vs3 == 0 && f.vs2 == 0 && !f.sx && f.rm == 0 && f.imm == 0

/-- VBCAST: every active element takes the low bits of a general register (R148). -/
def execVbcast (h : Hart) (f : VF) (s : State) :=
  onDev s (fun d =>
    let w := etWidth f.et.toNat
    d.vec h 0x37 0x010 f (mvOk f) w always (fun t => t.mapV f w (fun _ => (t.gr f.vs1).toNat % 2 ^ w)))

/-- A move that ignores VL (R115, R148). -/
def Dev.vmove (d : Dev) (h : Hart) (fn : Nat) (f : VF) (body : Nat → Thread → VRes) : Dev :=
  d.issue h 8 (fun d1 =>
    if !mvOk f || f.km != 0 || f.zm then d1.illegal h (encV 0x37 fn f)
    else d1.vecRun h 1 (etWidth f.et.toNat) false (body (etWidth f.et.toNat)))

/-- VMVGV: vd[0] ← the general register (R148). -/
def execVmvgv (h : Hart) (f : VF) (s : State) :=
  onDev s (fun d => d.vmove h 0x011 f (fun w t => (t.putL 0 false w f.vd [(0, (t.gr f.vs1).toNat % 2 ^ w)], [])))

/-- VMVVG: rd ← vs1[0], integer types extended by signedness, others zero-extended (R148). -/
def execVmvvg (h : Hart) (f : VF) (s : State) :=
  onDev s (fun d => d.vmove h 0x012 f (fun w t =>
    let x := word (t.op1 f w 0)
    (t.setG f.vd (if f.et.toNat ≤ 3 then sext w x else x), [])))

end Sys2Proof.Machine
end

