-- ==== Sys2Proof/Machine/VecPred.lean ====
section
/-! DEFINITION. Compares, predicates and VSEL (R146). -/

namespace Sys2Proof.Machine

/-- A predicate register with bit i set to b for each listed element (R115, R120). -/
def predSet : List (Nat × Bool) → Nat → Nat
  | [], x => x
  | p :: r, x => predSet r (setBit x p.1 p.2)

/-- The outcome of a condition, IMM13[2:0], from the order of two comparable elements. -/
def condOf (c : Nat) (lt eq : Bool) : Bool :=
  if c = 0 then eq else if c = 1 then !eq else if c = 2 then lt else if c = 3 then lt || eq
  else if c = 4 then !lt && !eq else !lt

/-- One compare: integers by ET, floating point under IEEE 754; LT, LE, GT and GE set NV on any NaN, EQ and NE on a
signalling one; with a NaN only NE is true (R146). -/
def cmpElem (et c a b : Nat) : Bool × Ev :=
  match arithFmt? et with
  | some F =>
    let x := F.decode a
    let y := F.decode b
    if x.isNan || y.isNan then
      (c == 1, if decide (2 ≤ c) || x.isSnan || y.isSnan then Ev.inv else Ev.none)
    else (condOf c (x.ltNum y) (x.eqNum y), Ev.none)
  | none => (condOf c (intLt et (etWidth et) a b) (a == b), Ev.none)

/-- VCMP: kd[i] ← vs1[i] cond vs2[i] (R146). -/
def execVcmp (h : Hart) (f : VF) (s : State) :=
  onDev s (fun d =>
    let et := f.et.toNat
    let w := etWidth et
    d.vec h 0x35 0x000 f
      (decide (et ≤ 11) && decide (f.imm.toNat ≤ 5) && f.vs3 == 0 && f.rm == 0 && f.vd != 0 && decide (f.vd.val < 16))
      w always
      (fun t =>
        let l := (t.actives f.km).map (fun i => (i, cmpElem et f.imm.toNat (t.op1 f w i) (t.op2 f w i)))
        let base := if f.zm then predSet ((List.range t.vlN).map (fun i => (i, false))) (t.kr f.vd) else t.kr f.vd
        (t.setK f.vd (predSet (l.map (fun p => (p.1, p.2.1))) base), l.map (fun p => (p.1, p.2.2)))))

/-- The fields a predicate form does not use are zero, its predicate fields below 16, KM and ZM zero (R121, R146). -/
def kOk (f : VF) (dest unary : Bool) : Bool :=
  f.vs3 == 0 && f.km == 0 && !f.zm && f.et == 0 && f.rm == 0 && !f.sx && f.imm == 0 && decide (f.vs1.val < 16)
    && (if unary then f.vs2 == 0 else decide (f.vs2.val < 16)) && (!dest || (f.vd != 0 && decide (f.vd.val < 16)))

/-- A predicate form: kd ← ks1 op ks2 over bits 0 to VL − 1 (R146). -/
def Dev.kop (d : Dev) (h : Hart) (fn : Nat) (f : VF) (unary : Bool) (g : Bool → Bool → Bool) : Dev :=
  d.vec h 0x35 fn f (kOk f true unary) 1 always (fun t =>
    let x := t.kr f.vs1
    let y := t.kr f.vs2
    (t.setK f.vd (predSet ((List.range t.vlN).map (fun i => (i, g (x.testBit i) (y.testBit i)))) (t.kr f.vd)), []))

def execKand (h : Hart) (f : VF) (s : State) := onDev s (fun d => d.kop h 0x008 f false (fun a b => a && b))
def execKor (h : Hart) (f : VF) (s : State) := onDev s (fun d => d.kop h 0x009 f false (fun a b => a || b))
def execKxor (h : Hart) (f : VF) (s : State) := onDev s (fun d => d.kop h 0x00A f false (fun a b => a != b))
def execKandn (h : Hart) (f : VF) (s : State) := onDev s (fun d => d.kop h 0x00B f false (fun a b => a && !b))
def execKnot (h : Hart) (f : VF) (s : State) := onDev s (fun d => d.kop h 0x00C f true (fun a _ => !a))

/-- A form that writes rd from the bits of ks1 below VL (R146). -/
def Dev.kread (d : Dev) (h : Hart) (fn : Nat) (f : VF) (g : Nat → Nat → Word) : Dev :=
  d.vec h 0x35 fn f (kOk f false true) 1 always (fun t => (t.setG f.vd (g (t.kr f.vs1) t.vlN), []))

def execKpopc (h : Hart) (f : VF) (s : State) := onDev s (fun d => d.kread h 0x010 f (fun x n => word (popN x n)))
/-- The lowest set bit below VL, or −1 (R146). -/
def execKfirst (h : Hart) (f : VF) (s : State) :=
  onDev s (fun d => d.kread h 0x011 f (fun x n => if ctzN x n = n then BitVec.allOnes 64 else word (ctzN x n)))

/-- VSEL: vd[i] ← vs1[i] if KM bit i, else vs2[i] (R146). -/
def execVsel (h : Hart) (f : VF) (s : State) :=
  onDev s (fun d =>
    let w := etWidth f.et.toNat
    d.vec h 0x35 0x018 f (w != 0 && f.vs3 == 0 && f.rm == 0 && f.imm == 0 && !f.zm) w always (fun t =>
      (t.putL 0 false w f.vd ((List.range t.vlN).map (fun i =>
        (i, if t.active f.km i then t.op1 f w i else t.op2 f w i))), [])))

end Sys2Proof.Machine
end

