-- ==== Sys2Proof/Machine/Dispatch.lean ====
section
/-! DEFINITION. What each command does: one arm per constructor of Instr, each a direct call of its meaning. -/

namespace Sys2Proof.Machine

/-- The effect of a command on everything but the queue of waiting commands. -/
def exec (i : Instr) (s : State) : Host.Outcome State Fault Refusal :=
  match i with
  | .add h rd rs1 rs2 => Sys2Proof.Machine.execAdd h rd rs1 rs2 s
  | .sub h rd rs1 rs2 => Sys2Proof.Machine.execSub h rd rs1 rs2 s
  | .and h rd rs1 rs2 => Sys2Proof.Machine.execAnd h rd rs1 rs2 s
  | .or h rd rs1 rs2 => Sys2Proof.Machine.execOr h rd rs1 rs2 s
  | .xor h rd rs1 rs2 => Sys2Proof.Machine.execXor h rd rs1 rs2 s
  | .sll h rd rs1 rs2 => Sys2Proof.Machine.execSll h rd rs1 rs2 s
  | .srl h rd rs1 rs2 => Sys2Proof.Machine.execSrl h rd rs1 rs2 s
  | .sra h rd rs1 rs2 => Sys2Proof.Machine.execSra h rd rs1 rs2 s
  | .slt h rd rs1 rs2 => Sys2Proof.Machine.execSlt h rd rs1 rs2 s
  | .sltu h rd rs1 rs2 => Sys2Proof.Machine.execSltu h rd rs1 rs2 s
  | .min h rd rs1 rs2 => Sys2Proof.Machine.execMin h rd rs1 rs2 s
  | .max h rd rs1 rs2 => Sys2Proof.Machine.execMax h rd rs1 rs2 s
  | .minu h rd rs1 rs2 => Sys2Proof.Machine.execMinu h rd rs1 rs2 s
  | .maxu h rd rs1 rs2 => Sys2Proof.Machine.execMaxu h rd rs1 rs2 s
  | .clz h rd rs1 rs2 => Sys2Proof.Machine.execClz h rd rs1 rs2 s
  | .ctz h rd rs1 rs2 => Sys2Proof.Machine.execCtz h rd rs1 rs2 s
  | .popc h rd rs1 rs2 => Sys2Proof.Machine.execPopc h rd rs1 rs2 s
  | .addw h rd rs1 rs2 => Sys2Proof.Machine.execAddw h rd rs1 rs2 s
  | .subw h rd rs1 rs2 => Sys2Proof.Machine.execSubw h rd rs1 rs2 s
  | .addi h rd rs1 imm => Sys2Proof.Machine.execAddi h rd rs1 imm s
  | .andi h rd rs1 imm => Sys2Proof.Machine.execAndi h rd rs1 imm s
  | .ori h rd rs1 imm => Sys2Proof.Machine.execOri h rd rs1 imm s
  | .xori h rd rs1 imm => Sys2Proof.Machine.execXori h rd rs1 imm s
  | .slti h rd rs1 imm => Sys2Proof.Machine.execSlti h rd rs1 imm s
  | .sltiu h rd rs1 imm => Sys2Proof.Machine.execSltiu h rd rs1 imm s
  | .shi h rd rs1 imm => Sys2Proof.Machine.execShi h rd rs1 imm s
  | .li h rd rs1 rs2 fn imm => Sys2Proof.Machine.execLi h rd rs1 rs2 fn imm s
  | .lih h rd rs1 rs2 fn imm => Sys2Proof.Machine.execLih h rd rs1 rs2 fn imm s
  | .beq h rs1 rs2 off => Sys2Proof.Machine.execBeq h rs1 rs2 off s
  | .bne h rs1 rs2 off => Sys2Proof.Machine.execBne h rs1 rs2 off s
  | .blt h rs1 rs2 off => Sys2Proof.Machine.execBlt h rs1 rs2 off s
  | .bge h rs1 rs2 off => Sys2Proof.Machine.execBge h rs1 rs2 off s
  | .bltu h rs1 rs2 off => Sys2Proof.Machine.execBltu h rs1 rs2 off s
  | .bgeu h rs1 rs2 off => Sys2Proof.Machine.execBgeu h rs1 rs2 off s
  | .beqi h rs1 imm off => Sys2Proof.Machine.execBeqi h rs1 imm off s
  | .bnei h rs1 imm off => Sys2Proof.Machine.execBnei h rs1 imm off s
  | .blti h rs1 imm off => Sys2Proof.Machine.execBlti h rs1 imm off s
  | .bgei h rs1 imm off => Sys2Proof.Machine.execBgei h rs1 imm off s
  | .bltui h rs1 imm off => Sys2Proof.Machine.execBltui h rs1 imm off s
  | .bgeui h rs1 imm off => Sys2Proof.Machine.execBgeui h rs1 imm off s
  | .j h off => Sys2Proof.Machine.execJ h off s
  | .call h off => Sys2Proof.Machine.execCall h off s
  | .jr h rd rs1 imm => Sys2Proof.Machine.execJr h rd rs1 imm s
  | .callm h off mask hit => Sys2Proof.Machine.execCallm h off mask hit s
  | .callmr h rd rs1 rs2 fn mask hit => Sys2Proof.Machine.execCallmr h rd rs1 rs2 fn mask hit s
  | .retm h rd rs1 rs2 fn mask hit => Sys2Proof.Machine.execRetm h rd rs1 rs2 fn mask hit s
  | .lb h rd rs1 imm hit => Sys2Proof.Machine.execLb h rd rs1 imm hit s
  | .lbu h rd rs1 imm hit => Sys2Proof.Machine.execLbu h rd rs1 imm hit s
  | .lh h rd rs1 imm hit => Sys2Proof.Machine.execLh h rd rs1 imm hit s
  | .lhu h rd rs1 imm hit => Sys2Proof.Machine.execLhu h rd rs1 imm hit s
  | .lw h rd rs1 imm hit => Sys2Proof.Machine.execLw h rd rs1 imm hit s
  | .lwu h rd rs1 imm hit => Sys2Proof.Machine.execLwu h rd rs1 imm hit s
  | .ld h rd rs1 imm hit => Sys2Proof.Machine.execLd h rd rs1 imm hit s
  | .sb h rd rs1 imm hit => Sys2Proof.Machine.execSb h rd rs1 imm hit s
  | .sh h rd rs1 imm hit => Sys2Proof.Machine.execSh h rd rs1 imm hit s
  | .sw h rd rs1 imm hit => Sys2Proof.Machine.execSw h rd rs1 imm hit s
  | .sd h rd rs1 imm hit => Sys2Proof.Machine.execSd h rd rs1 imm hit s
  | .aaddW h rd rs1 rs2 => Sys2Proof.Machine.execAaddW h rd rs1 rs2 s
  | .aaddD h rd rs1 rs2 => Sys2Proof.Machine.execAaddD h rd rs1 rs2 s
  | .aaddF h rd rs1 rs2 => Sys2Proof.Machine.execAaddF h rd rs1 rs2 s
  | .aswapW h rd rs1 rs2 => Sys2Proof.Machine.execAswapW h rd rs1 rs2 s
  | .aswapD h rd rs1 rs2 => Sys2Proof.Machine.execAswapD h rd rs1 rs2 s
  | .pref h rd rs1 imm => Sys2Proof.Machine.execPref h rd rs1 imm s
  | .fence h rd rs1 rs2 => Sys2Proof.Machine.execFence h rd rs1 rs2 s
  | .fenceI h rd rs1 rs2 => Sys2Proof.Machine.execFenceI h rd rs1 rs2 s
  | .mfc h rd rs1 imm => Sys2Proof.Machine.execMfc h rd rs1 imm s
  | .mtc h rd rs1 imm => Sys2Proof.Machine.execMtc h rd rs1 imm s
  | .statusWrite h rd rs1 => Sys2Proof.Machine.execStatusWrite h rd rs1 s
  | .xrel h rd rs1 => Sys2Proof.Machine.execXrel h rd rs1 s
  | .vslfsrWrite h rd rs1 => Sys2Proof.Machine.execVslfsrWrite h rd rs1 s
  | .qlfsrWrite h rd rs1 => Sys2Proof.Machine.execQlfsrWrite h rd rs1 s
  | .meFlagsWrite h rd rs1 => Sys2Proof.Machine.execMeFlagsWrite h rd rs1 s
  | .meSrseedWrite h rd rs1 => Sys2Proof.Machine.execMeSrseedWrite h rd rs1 s
  | .frel h rd rs1 => Sys2Proof.Machine.execFrel h rd rs1 s
  | .stop h rd rs1 => Sys2Proof.Machine.execStop h rd rs1 s
  | .gate h rd rs1 imm => Sys2Proof.Machine.execGate h rd rs1 imm s
  | .nop h rd rs1 rs2 => Sys2Proof.Machine.execNop h rd rs1 rs2 s
  | .yield h rd rs1 rs2 => Sys2Proof.Machine.execYield h rd rs1 rs2 s
  | .wfi h rd rs1 rs2 => Sys2Proof.Machine.execWfi h rd rs1 rs2 s
  | .tstart h rd rs1 rs2 => Sys2Proof.Machine.execTstart h rd rs1 rs2 s
  | .tstop h rd rs1 rs2 => Sys2Proof.Machine.execTstop h rd rs1 rs2 s
  | .xret h rd rs1 rs2 => Sys2Proof.Machine.execXret h rd rs1 rs2 s
  | .mul h rd rs1 rs2 => Sys2Proof.Machine.execMul h rd rs1 rs2 s
  | .mulh h rd rs1 rs2 => Sys2Proof.Machine.execMulh h rd rs1 rs2 s
  | .mulhu h rd rs1 rs2 => Sys2Proof.Machine.execMulhu h rd rs1 rs2 s
  | .mulhsu h rd rs1 rs2 => Sys2Proof.Machine.execMulhsu h rd rs1 rs2 s
  | .mfmq h rd rs1 rs2 => Sys2Proof.Machine.execMfmq h rd rs1 rs2 s
  | .mtmq h rd rs1 rs2 => Sys2Proof.Machine.execMtmq h rd rs1 rs2 s
  | .div h rd rs1 rs2 => Sys2Proof.Machine.execDiv h rd rs1 rs2 s
  | .divu h rd rs1 rs2 => Sys2Proof.Machine.execDivu h rd rs1 rs2 s
  | .rem h rd rs1 rs2 => Sys2Proof.Machine.execRem h rd rs1 rs2 s
  | .remu h rd rs1 rs2 => Sys2Proof.Machine.execRemu h rd rs1 rs2 s
  | .qmac h rd rs1 rs2 qf => Sys2Proof.Machine.execQmac h rd rs1 rs2 qf s
  | .qmsu h rd rs1 rs2 qf => Sys2Proof.Machine.execQmsu h rd rs1 rs2 qf s
  | .qmul h rd rs1 rs2 qf => Sys2Proof.Machine.execQmul h rd rs1 rs2 qf s
  | .qadd h rd rs1 rs2 qf => Sys2Proof.Machine.execQadd h rd rs1 rs2 qf s
  | .qsub h rd rs1 rs2 qf => Sys2Proof.Machine.execQsub h rd rs1 rs2 qf s
  | .qrnd h rd rs1 rs2 qf => Sys2Proof.Machine.execQrnd h rd rs1 rs2 qf s
  | .qclr h rd rs1 rs2 => Sys2Proof.Machine.execQclr h rd rs1 rs2 s
  | .mfmal h rd rs1 rs2 => Sys2Proof.Machine.execMfmal h rd rs1 rs2 s
  | .mfmah h rd rs1 rs2 => Sys2Proof.Machine.execMfmah h rd rs1 rs2 s
  | .mtmal h rd rs1 rs2 => Sys2Proof.Machine.execMtmal h rd rs1 rs2 s
  | .mtmah h rd rs1 rs2 => Sys2Proof.Machine.execMtmah h rd rs1 rs2 s
  | .loop h rd rs1 imm => Sys2Proof.Machine.execLoop h rd rs1 imm s
  | .loopi h rd rs1 rs2 fn imm => Sys2Proof.Machine.execLoopi h rd rs1 rs2 fn imm s
  | .missReply h data err crc => Sys2Proof.Machine.execMissReply h data err crc s
  | .impreciseDelivery h => Sys2Proof.Machine.execImpreciseDelivery h s
  | .mchkDelivery h => Sys2Proof.Machine.execMchkDelivery h s
  | .interruptEntry h => Sys2Proof.Machine.execInterruptEntry h s
  | .nointExpiry h => Sys2Proof.Machine.execNointExpiry h s
  | .setvl h f => Sys2Proof.Machine.execSetvl h f s
  | .vld h f hit => Sys2Proof.Machine.execVld h f hit s
  | .vlds h f hit => Sys2Proof.Machine.execVlds h f hit s
  | .vldx h f hit => Sys2Proof.Machine.execVldx h f hit s
  | .vlr h f hit => Sys2Proof.Machine.execVlr h f hit s
  | .klr h f hit => Sys2Proof.Machine.execKlr h f hit s
  | .vst h f hit => Sys2Proof.Machine.execVst h f hit s
  | .vsts h f hit => Sys2Proof.Machine.execVsts h f hit s
  | .vstx h f hit => Sys2Proof.Machine.execVstx h f hit s
  | .vsr h f hit => Sys2Proof.Machine.execVsr h f hit s
  | .ksr h f hit => Sys2Proof.Machine.execKsr h f hit s
  | .vfadd h f => Sys2Proof.Machine.execVfadd h f s
  | .vfsub h f => Sys2Proof.Machine.execVfsub h f s
  | .vfmul h f => Sys2Proof.Machine.execVfmul h f s
  | .vfdiv h f => Sys2Proof.Machine.execVfdiv h f s
  | .vfsqrt h f => Sys2Proof.Machine.execVfsqrt h f s
  | .vfmin h f => Sys2Proof.Machine.execVfmin h f s
  | .vfmax h f => Sys2Proof.Machine.execVfmax h f s
  | .vfabs h f => Sys2Proof.Machine.execVfabs h f s
  | .vfneg h f => Sys2Proof.Machine.execVfneg h f s
  | .vfma h f => Sys2Proof.Machine.execVfma h f s
  | .vfms h f => Sys2Proof.Machine.execVfms h f s
  | .vfnma h f => Sys2Proof.Machine.execVfnma h f s
  | .vadd h f => Sys2Proof.Machine.execVadd h f s
  | .vsub h f => Sys2Proof.Machine.execVsub h f s
  | .vmul h f => Sys2Proof.Machine.execVmul h f s
  | .vmulh h f => Sys2Proof.Machine.execVmulh h f s
  | .vmulhu h f => Sys2Proof.Machine.execVmulhu h f s
  | .vand h f => Sys2Proof.Machine.execVand h f s
  | .vor h f => Sys2Proof.Machine.execVor h f s
  | .vxor h f => Sys2Proof.Machine.execVxor h f s
  | .vsll h f => Sys2Proof.Machine.execVsll h f s
  | .vsrl h f => Sys2Proof.Machine.execVsrl h f s
  | .vsra h f => Sys2Proof.Machine.execVsra h f s
  | .vmin h f => Sys2Proof.Machine.execVmin h f s
  | .vmax h f => Sys2Proof.Machine.execVmax h f s
  | .vqadd h f => Sys2Proof.Machine.execVqadd h f s
  | .vqsub h f => Sys2Proof.Machine.execVqsub h f s
  | .vqmul h f => Sys2Proof.Machine.execVqmul h f s
  | .vcmp h f => Sys2Proof.Machine.execVcmp h f s
  | .kand h f => Sys2Proof.Machine.execKand h f s
  | .kor h f => Sys2Proof.Machine.execKor h f s
  | .kxor h f => Sys2Proof.Machine.execKxor h f s
  | .kandn h f => Sys2Proof.Machine.execKandn h f s
  | .knot h f => Sys2Proof.Machine.execKnot h f s
  | .kpopc h f => Sys2Proof.Machine.execKpopc h f s
  | .kfirst h f => Sys2Proof.Machine.execKfirst h f s
  | .vsel h f => Sys2Proof.Machine.execVsel h f s
  | .vslideup h f => Sys2Proof.Machine.execVslideup h f s
  | .vslidedn h f => Sys2Proof.Machine.execVslidedn h f s
  | .vperm h f => Sys2Proof.Machine.execVperm h f s
  | .vcompress h f => Sys2Proof.Machine.execVcompress h f s
  | .viota h f => Sys2Proof.Machine.execViota h f s
  | .vrsum h f => Sys2Proof.Machine.execVrsum h f s
  | .vrmax h f => Sys2Proof.Machine.execVrmax h f s
  | .vrmin h f => Sys2Proof.Machine.execVrmin h f s
  | .vrsexp2 h f => Sys2Proof.Machine.execVrsexp2 h f s
  | .vtopk h f => Sys2Proof.Machine.execVtopk h f s
  | .vtopkm h f => Sys2Proof.Machine.execVtopkm h f s
  | .vcvt h f => Sys2Proof.Machine.execVcvt h f s
  | .vexp2 h f => Sys2Proof.Machine.execVexp2 h f s
  | .vlog2 h f => Sys2Proof.Machine.execVlog2 h f s
  | .vbq h f => Sys2Proof.Machine.execVbq h f s
  | .vbd h f => Sys2Proof.Machine.execVbd h f s
  | .vbcast h f => Sys2Proof.Machine.execVbcast h f s
  | .vmvgv h f => Sys2Proof.Machine.execVmvgv h f s
  | .vmvvg h f => Sys2Proof.Machine.execVmvvg h f s
  | .laneGroupGate n g => Sys2Proof.Machine.execLaneGroupGate n g s
  | .tshape h f => Sys2Proof.Machine.execTshape h f s
  | .tfill h f => Sys2Proof.Machine.execTfill h f s
  | .tdump h f => Sys2Proof.Machine.execTdump h f s
  | .tblank h f => Sys2Proof.Machine.execTblank h f s
  | .trv h f => Sys2Proof.Machine.execTrv h f s
  | .twv h f => Sys2Proof.Machine.execTwv h f s
  | .tacq h f => Sys2Proof.Machine.execTacq h f s
  | .trel h f => Sys2Proof.Machine.execTrel h f s
  | .ownershipFree n => Sys2Proof.Machine.execOwnershipFree n s
  | .meb h f => Sys2Proof.Machine.execMeb h f s
  | .mea h f => Sys2Proof.Machine.execMea h f s
  | .meacc h f => Sys2Proof.Machine.execMeacc h f s
  | .mest h f => Sys2Proof.Machine.execMest h f s
  | .mego h f => Sys2Proof.Machine.execMego h f s
  | .merun h f => Sys2Proof.Machine.execMerun h f s
  | .mesync h f => Sys2Proof.Machine.execMesync h f s
  | .stationaryLoad n => Sys2Proof.Machine.execStationaryLoad n s
  | .stationaryLoadEnd n => Sys2Proof.Machine.execStationaryLoadEnd n s
  | .operationStart n => Sys2Proof.Machine.execOperationStart n s
  | .swap n => Sys2Proof.Machine.execSwap n s
  | .rowCommit n mismatch => Sys2Proof.Machine.execRowCommit n mismatch s
  | .meaccEnd n => Sys2Proof.Machine.execMeaccEnd n s
  | .ballastStep n => Sys2Proof.Machine.execBallastStep n s
  | .drainStart n => Sys2Proof.Machine.execDrainStart n s
  | .drainRow n => Sys2Proof.Machine.execDrainRow n s
  | .drainRetire n => Sys2Proof.Machine.execDrainRetire n s
  | .blockStart n => Sys2Proof.Machine.execBlockStart n s
  | .cbNop n => Sys2Proof.Machine.execCbNop n s
  | .cbLoop n => Sys2Proof.Machine.execCbLoop n s
  | .cbFill n => Sys2Proof.Machine.execCbFill n s
  | .cbDump n => Sys2Proof.Machine.execCbDump n s
  | .cbShape n => Sys2Proof.Machine.execCbShape n s
  | .cbBlank n => Sys2Proof.Machine.execCbBlank n s
  | .cbMb n => Sys2Proof.Machine.execCbMb n s
  | .cbMa n => Sys2Proof.Machine.execCbMa n s
  | .cbMacc n => Sys2Proof.Machine.execCbMacc n s
  | .cbGo n => Sys2Proof.Machine.execCbGo n s
  | .cbSt n => Sys2Proof.Machine.execCbSt n s
  | .pset n => Sys2Proof.Machine.execPset n s
  | .ploop n => Sys2Proof.Machine.execPloop n s
  | .ptest n => Sys2Proof.Machine.execPtest n s
  | .cbSync n => Sys2Proof.Machine.execCbSync n s
  | .exit n => Sys2Proof.Machine.execExit n s
  | .blockEnd n => Sys2Proof.Machine.execBlockEnd n s
  | .tickBoundary p tj mj => Sys2Proof.Machine.execTickBoundary p tj mj s
  | .phaseStart hosts => Sys2Proof.Machine.execPhaseStart hosts s
  | .phaseDeadline => Sys2Proof.Machine.execPhaseDeadline s
  | .ttDone h v => Sys2Proof.Machine.execTtDone h v s
  | .phaseEnd => Sys2Proof.Machine.execPhaseEnd s
  | .reproLogApply n => Sys2Proof.Machine.execReproLogApply n s
  | .enable h v => Sys2Proof.Machine.execEnable h v s
  | .ttPeriodWrite h v => Sys2Proof.Machine.execTtPeriodWrite h v s
  | .halt h v => Sys2Proof.Machine.execHalt h v s
  | .haltN => Sys2Proof.Machine.execHaltN s
  | .haltTick => Sys2Proof.Machine.execHaltTick s
  | .haltComplete => Sys2Proof.Machine.execHaltComplete s
  | .resume h v => Sys2Proof.Machine.execResume h v s
  | .resumeBoundary => Sys2Proof.Machine.execResumeBoundary s
  | .tickSend => Sys2Proof.Machine.execTickSend s
  | .tickReceive => Sys2Proof.Machine.execTickReceive s
  | .missedTick p tj mj => Sys2Proof.Machine.execMissedTick p tj mj s
  | .reportReceive => Sys2Proof.Machine.execReportReceive s
  | .reportTimeout => Sys2Proof.Machine.execReportTimeout s
  | .partitionDetect => Sys2Proof.Machine.execPartitionDetect s
  | .leaseExpiry => Sys2Proof.Machine.execLeaseExpiry s
  | .orderFlit ret => Sys2Proof.Machine.execOrderFlit ret s
  | .orderHalt => Sys2Proof.Machine.execOrderHalt s
  | .orderResume tick => Sys2Proof.Machine.execOrderResume tick s
  | .orderLease epoch expiry => Sys2Proof.Machine.execOrderLease epoch expiry s
  | .orderStaff epoch expiry => Sys2Proof.Machine.execOrderStaff epoch expiry s
  | .orderBind digest => Sys2Proof.Machine.execOrderBind digest s
  | .orderUnbind => Sys2Proof.Machine.execOrderUnbind s
  | .orderSeal => Sys2Proof.Machine.execOrderSeal s
  | .orderRetireStn n => Sys2Proof.Machine.execOrderRetireStn n s
  | .orderDebug env => Sys2Proof.Machine.execOrderDebug env s
  | .orderForwardTimeout => Sys2Proof.Machine.execOrderForwardTimeout s
  | .sealSign => Sys2Proof.Machine.execSealSign s
  | .linkEnable h l v => Sys2Proof.Machine.execLinkEnable h l v s
  | .laneTrainTimeout l lane => Sys2Proof.Machine.execLaneTrainTimeout l lane s
  | .caps l vmask vhi vmin devid lanes => Sys2Proof.Machine.execCaps l vmask vhi vmin devid lanes s
  | .capsSend l => Sys2Proof.Machine.execCapsSend l s
  | .echo l answer => Sys2Proof.Machine.execEcho l answer s
  | .echor l t hold => Sys2Proof.Machine.execEchor l t hold s
  | .flitReceive l lane ok lseq lack nak f => Sys2Proof.Machine.execFlitReceive l lane ok lseq lack nak f s
  | .nakReplay l lane lack => Sys2Proof.Machine.execNakReplay l lane lack s
  | .replayTimeout l lane => Sys2Proof.Machine.execReplayTimeout l lane s
  | .recover l lack => Sys2Proof.Machine.execRecover l lack s
  | .laneThreshold l lane => Sys2Proof.Machine.execLaneThreshold l lane s
  | .retire l lane from_ => Sys2Proof.Machine.execRetire l lane from_ s
  | .credit l ret => Sys2Proof.Machine.execCredit l ret s
  | .routedFlit l => Sys2Proof.Machine.execRoutedFlit l s
  | .rdreq => Sys2Proof.Machine.execRdreq s
  | .wrreq => Sys2Proof.Machine.execWrreq s
  | .resp => Sys2Proof.Machine.execResp s
  | .remoteTimeout e c => Sys2Proof.Machine.execRemoteTimeout e c s
  | .linkReset h l v => Sys2Proof.Machine.execLinkReset h l v s
  | .routeDataAccess h v => Sys2Proof.Machine.execRouteDataAccess h v s
  | .reductionGo h g v => Sys2Proof.Machine.execReductionGo h g v s
  | .red => Sys2Proof.Machine.execRed s
  | .reductionEnd g => Sys2Proof.Machine.execReductionEnd g s
  | .shGo h e c v => Sys2Proof.Machine.execShGo h e c v s
  | .shGoChain h e c v => Sys2Proof.Machine.execShGoChain h e c v s
  | .shStop h e c v => Sys2Proof.Machine.execShStop h e c v s
  | .descriptorStart e c => Sys2Proof.Machine.execDescriptorStart e c s
  | .transferEnd e c data reached => Sys2Proof.Machine.execTransferEnd e c data reached s
  | .geStart h n k => Sys2Proof.Machine.execGeStart h n k s
  | .geResume h n k => Sys2Proof.Machine.execGeResume h n k s
  | .geStop h n k => Sys2Proof.Machine.execGeStop h n k s
  | .gatherElement n err => Sys2Proof.Machine.execGatherElement n err s
  | .streamEnd n k => Sys2Proof.Machine.execStreamEnd n k s
  | .spPwrWrite h n v => Sys2Proof.Machine.execSpPwrWrite h n v s
  | .spPowerDown n => Sys2Proof.Machine.execSpPowerDown n s
  | .spWakeEnd n => Sys2Proof.Machine.execSpWakeEnd n s
  | .mmRootWrite h n v => Sys2Proof.Machine.execMmRootWrite h n v s
  | .mmTlbinv h n v => Sys2Proof.Machine.execMmTlbinv h n v s
  | .ftSmbaseWrite h v => Sys2Proof.Machine.execFtSmbaseWrite h v s
  | .ftInval h v => Sys2Proof.Machine.execFtInval h v s
  | .cxlPortDown p => Sys2Proof.Machine.execCxlPortDown p s
  | .prod q v => Sys2Proof.Machine.execProd q v s
  | .retireDoorbell q v => Sys2Proof.Machine.execRetireDoorbell q v s
  | .waybillCheck q => Sys2Proof.Machine.execWaybillCheck q s
  | .flushComplete q => Sys2Proof.Machine.execFlushComplete q s
  | .gpfto q => Sys2Proof.Machine.execGpfto q s
  | .start h v => Sys2Proof.Machine.execStart h v s
  | .commit h v => Sys2Proof.Machine.execCommit h v s
  | .fail h v => Sys2Proof.Machine.execFail h v s
  | .ledgerSwitch q => Sys2Proof.Machine.execLedgerSwitch q s
  | .recoverLedger h v => Sys2Proof.Machine.execRecoverLedger h v s
  | .rdmaWrite p qpn pa rkey bytes ecn => Sys2Proof.Machine.execRdmaWrite p qpn pa rkey bytes ecn s
  | .rdmaRead p qpn pa rkey n ecn => Sys2Proof.Machine.execRdmaRead p qpn pa rkey n ecn s
  | .rdmaAtomic p qpn ecn => Sys2Proof.Machine.execRdmaAtomic p qpn ecn s
  | .congestionNotification p qpn => Sys2Proof.Machine.execCongestionNotification p qpn s
  | .hprst h v => Sys2Proof.Machine.execHprst h v s
  | .hostLinkDown p => Sys2Proof.Machine.execHostLinkDown p s
  | .dictRead p m serve => Sys2Proof.Machine.execDictRead p m serve s
  | .dictWrite p m serve => Sys2Proof.Machine.execDictWrite p m serve s
  | .readInit p m serve => Sys2Proof.Machine.execReadInit p m serve s
  | .writeInit p m serve => Sys2Proof.Machine.execWriteInit p m serve s
  | .seg p m serve => Sys2Proof.Machine.execSeg p m serve s
  | .dictAbort p m => Sys2Proof.Machine.execDictAbort p m s
  | .transferTimeout => Sys2Proof.Machine.execTransferTimeout s
  | .queueTimeout => Sys2Proof.Machine.execQueueTimeout s
  | .telemetrySample pin iin vin tjmax tjstn => Sys2Proof.Machine.execTelemetrySample pin iin vin tjmax tjstn s
  | .signalBoxRestart => Sys2Proof.Machine.execSignalBoxRestart s
  | .getVersion => Sys2Proof.Machine.execGetVersion s
  | .getCapabilities => Sys2Proof.Machine.execGetCapabilities s
  | .negotiateAlgorithms ext sha3 => Sys2Proof.Machine.execNegotiateAlgorithms ext sha3 s
  | .getDigests => Sys2Proof.Machine.execGetDigests s
  | .getCertificate slot off len => Sys2Proof.Machine.execGetCertificate slot off len s
  | .challenge slot nonce => Sys2Proof.Machine.execChallenge slot nonce s
  | .getMeasurements op sign nonce => Sys2Proof.Machine.execGetMeasurements op sign nonce s
  | .unsupportedRequest code => Sys2Proof.Machine.execUnsupportedRequest code s
  | .bootImageVerify bad => Sys2Proof.Machine.execBootImageVerify bad s
  | .cmConnect p rqpn rc qp0 mtu => Sys2Proof.Machine.execCmConnect p rqpn rc qp0 mtu s
  | .bootLinkTimeout => Sys2Proof.Machine.execBootLinkTimeout s
  | .rcFreeze h v => Sys2Proof.Machine.execRcFreeze h v s
  | .unfreeze h v => Sys2Proof.Machine.execUnfreeze h v s
  | .clear h v => Sys2Proof.Machine.execClear h v s
  | .rcRidxWrite h v => Sys2Proof.Machine.execRcRidxWrite h v s
  | .deviceFatal x iod data => Sys2Proof.Machine.execDeviceFatal x iod data s
  | .thermalTrip => Sys2Proof.Machine.execThermalTrip s
  | .referenceLoss lost => Sys2Proof.Machine.execReferenceLoss lost s
  | .vinLoss => Sys2Proof.Machine.execVinLoss s
  | .vddStbyLoss => Sys2Proof.Machine.execVddStbyLoss s
  | .standbyPowerApplied => Sys2Proof.Machine.execStandbyPowerApplied s
  | .railsUp strap bad => Sys2Proof.Machine.execRailsUp strap bad s
  | .coldRstN strap bad cool => Sys2Proof.Machine.execColdRstN strap bad cool s
  | .warmRstN strap => Sys2Proof.Machine.execWarmRstN strap s
  | .warm h v => Sys2Proof.Machine.execWarm h v s
  | .stationReset h j v => Sys2Proof.Machine.execStationReset h j v s
  | .registerWrite h pa v => Sys2Proof.Machine.execRegisterWrite h pa v s
  | .linkSignalDetect l => Sys2Proof.Machine.execLinkSignalDetect l s
  | .linkSignalLoss l => Sys2Proof.Machine.execLinkSignalLoss l s
  | .laneEqualised l lane => Sys2Proof.Machine.execLaneEqualised l lane s
  | .alignmentLock l => Sys2Proof.Machine.execAlignmentLock l s
  | .hostLinkUp p => Sys2Proof.Machine.execHostLinkUp p s
  | .cxlLinkUp p sw dcd gpf width unsup => Sys2Proof.Machine.execCxlLinkUp p sw dcd gpf width unsup s
  | .translationWalkEnd h => Sys2Proof.Machine.execTranslationWalkEnd h s
  | .storeAcknowledge h => Sys2Proof.Machine.execStoreAcknowledge h s
  | .vectorInstructionComplete n => Sys2Proof.Machine.execVectorInstructionComplete n s
  | .tileOperationRetire n => Sys2Proof.Machine.execTileOperationRetire n s
  | .architecturalStateError n kind => Sys2Proof.Machine.execArchitecturalStateError n kind s
  | .recorderQueueDrain => Sys2Proof.Machine.execRecorderQueueDrain s
  | .signalBoxRestartEnd => Sys2Proof.Machine.execSignalBoxRestartEnd s
  | .ledgerRecoveryEnd q => Sys2Proof.Machine.execLedgerRecoveryEnd q s
  | .rebindStepEnd => Sys2Proof.Machine.execRebindStepEnd s
  | .localOperandArrival g => Sys2Proof.Machine.execLocalOperandArrival g s
  | .rdmaRetryExhausted w => Sys2Proof.Machine.execRdmaRetryExhausted w s
  | .jtagTapOperation o => Sys2Proof.Machine.execJtagTapOperation o s

end Sys2Proof.Machine
end

