-- ==== Sys2Proof/Safety.lean ====
section
/-! DEFINITION. What counts as a safe run, in the terms the statements use: a step that answers a next state, the state a number
of steps reaches, and the canonical form of the memories. -/

namespace Sys2Proof.Machine

/-- The next state of a step, if it answers one. -/
def stepNext (s : State) : Option State :=
  match step s with
  | .next t => some t
  | _ => none

/-- The state that n steps reach, if every one of them answers a next state. -/
def runN : Nat → State → Option State
  | 0, s => some s
  | n + 1, s => match stepNext s with
    | some t => runN n t
    | none => none

/-- The memories outside the stations are in canonical form: GDDR7, the far tier and the boot window. -/
def MemSys.wf (m : MemSys) : Bool := m.gddr.wf && m.far.wf && m.bootWin.wf

/-- A state whose memories are in canonical form. -/
def State.memWf (s : State) : Prop := s.dev.mem.wf = true

end Sys2Proof.Machine
end

