-- ==== Sys2Proof/Certificates/Slice0/Terms/Core.lean ====
section
/-! DEFINITION. Terms of the statements about the station core: when an instruction issues, what it leaves alone, and what
the rules of 03_station_core.md give as its result, written from the rules' own words over integers. -/

namespace Sys2Proof.Cert

open Sys2Proof.Machine

/-! ### Issue and frame -/

/-- An instruction of len bytes of hart h issues (R51): nothing is taken at the boundary before it (R105), and its words
fetch, which leaves the device d1 (R53, R111). -/
def Issues (d : Dev) (h : Hart) (len : Nat) (d1 : Dev) : Prop :=
  d.canIssue h = true ∧ d.boundary h = none ∧ d.fetch h len = .ok d1

/-- From d1 to d2 nothing changes but thread h, the cycle count of its station (by c), and the multiplier writes of its other
threads that land meanwhile: every other station, memory, every unit and every message stay. -/
def OnlyThread (d1 d2 : Dev) (h : Hart) (c : Nat) : Prop :=
  d2 = { d1 with stns := d2.stns } ∧ (∀ n : Nat, n ≠ h.stn → d2.stn n = d1.stn n) ∧
  d2.stn h.stn = { d1.stn h.stn with th := (d2.stn h.stn).th, cycle := (d1.stn h.stn).cycle + c } ∧
  ∀ k : Fin 4, k ≠ h.thr → d2.thr ⟨h.stn, k⟩ = Thread.land ((d1.stn h.stn).cycle + c) (d1.thr ⟨h.stn, k⟩)

/-- The command answers a next state whose queue is as before, in which only thread h has changed, from d1, to u with the
multiplier writes landed that fall due within its c cycles. -/
def Runs (i : Instr) (s : State) (d1 : Dev) (h : Hart) (c : Nat) (u : Thread) : Prop :=
  ∃ t, exec i s = .next t ∧ t.pending = s.pending ∧ OnlyThread d1 t.dev h c ∧
    t.dev.thr h = Thread.land ((d1.stn h.stn).cycle + c) u

/-! ### Integer operations (R60, R61) -/

/-- A value as a 64-bit word: integer arithmetic wraps modulo 2^64. -/
def w (x : Int) : Word := BitVec.ofInt 64 x

/-- 1 or 0. -/
def one (b : Prop) [Decidable b] : Word := if b then 1 else 0

/-- The register an integer instruction writes, its length and the value it writes, where its fields are as R60 and R61
require. -/
def intRule : Instr → Option (Hart × Nat × Fin 32 × (Thread → Word))
  | .add h rd a b => some (h, 4, rd, fun t => w ((t.gr a).toInt + (t.gr b).toInt))
  | .sub h rd a b => some (h, 4, rd, fun t => w ((t.gr a).toInt - (t.gr b).toInt))
  | .and h rd a b => some (h, 4, rd, fun t => t.gr a &&& t.gr b)
  | .or h rd a b => some (h, 4, rd, fun t => t.gr a ||| t.gr b)
  | .xor h rd a b => some (h, 4, rd, fun t => t.gr a ^^^ t.gr b)
  | .sll h rd a b => some (h, 4, rd, fun t => w ((t.gr a).toNat * 2 ^ ((t.gr b).toNat % 64) : Nat))
  | .srl h rd a b => some (h, 4, rd, fun t => w ((t.gr a).toNat / 2 ^ ((t.gr b).toNat % 64) : Nat))
  | .sra h rd a b => some (h, 4, rd, fun t => w ((t.gr a).toInt / 2 ^ ((t.gr b).toNat % 64)))
  | .slt h rd a b => some (h, 4, rd, fun t => one ((t.gr a).toInt < (t.gr b).toInt))
  | .sltu h rd a b => some (h, 4, rd, fun t => one ((t.gr a).toNat < (t.gr b).toNat))
  | .min h rd a b => some (h, 4, rd, fun t => w (min (t.gr a).toInt (t.gr b).toInt))
  | .max h rd a b => some (h, 4, rd, fun t => w (max (t.gr a).toInt (t.gr b).toInt))
  | .minu h rd a b => some (h, 4, rd, fun t => w (min (t.gr a).toNat (t.gr b).toNat : Nat))
  | .maxu h rd a b => some (h, 4, rd, fun t => w (max (t.gr a).toNat (t.gr b).toNat : Nat))
  | .clz h rd a b => if b = 0 then
      some (h, 4, rd, fun t => w ((((List.range 64).find? (fun k => (t.gr a).getLsbD (63 - k))).getD 64 : Nat))) else none
  | .ctz h rd a b => if b = 0 then
      some (h, 4, rd, fun t => w ((((List.range 64).find? (fun k => (t.gr a).getLsbD k)).getD 64 : Nat))) else none
  | .popc h rd a b => if b = 0 then
      some (h, 4, rd, fun t => w (((List.range 64).countP (fun k => (t.gr a).getLsbD k) : Nat))) else none
  | .addw h rd a b => some (h, 4, rd, fun t => w (((t.gr a).toInt + (t.gr b).toInt).bmod (2 ^ 32)))
  | .subw h rd a b => some (h, 4, rd, fun t => w (((t.gr a).toInt - (t.gr b).toInt).bmod (2 ^ 32)))
  | .addi h rd a i => some (h, 4, rd, fun t => w ((t.gr a).toInt + i.toInt))
  | .andi h rd a i => some (h, 4, rd, fun t => t.gr a &&& w i.toInt)
  | .ori h rd a i => some (h, 4, rd, fun t => t.gr a ||| w i.toInt)
  | .xori h rd a i => some (h, 4, rd, fun t => t.gr a ^^^ w i.toInt)
  | .slti h rd a i => some (h, 4, rd, fun t => one ((t.gr a).toInt < i.toInt))
  | .sltiu h rd a i => some (h, 4, rd, fun t => one ((t.gr a).toNat < (w i.toInt).toNat))
  | .shi h rd a i =>
    if 256 ≤ i.toNat then none
    else some (h, 4, rd, fun t =>
      let n := i.toNat % 64
      if i.toNat / 64 = 0 then w ((t.gr a).toNat * 2 ^ n : Nat)
      else if i.toNat / 64 = 1 then w ((t.gr a).toNat / 2 ^ n : Nat)
      else if i.toNat / 64 = 2 then w ((t.gr a).toInt / 2 ^ n)
      else w ((t.gr a).toNat / 2 ^ n + (t.gr a).toNat * 2 ^ (64 - n) : Nat))
  | .li h rd a b fn i => if a = 0 ∧ b = 0 ∧ fn = 0 then some (h, 8, rd, fun _ => w i.toInt) else none
  | .lih h rd a b fn i => if a = 0 ∧ b = 0 ∧ fn = 0 then
      some (h, 8, rd, fun t => w (i.toNat * 2 ^ 32 + (t.gr rd).toNat % 2 ^ 32 : Nat)) else none
  | _ => none

/-! ### Multiplies and divides (R71, R73) -/

/-- A divide's quotient, towards zero, and its corner of division by zero. -/
def quot (a b : Int) : Word := if b = 0 then w (-1) else w (a.tdiv b)

/-- A divide's remainder, and rs1 for a division by zero. -/
def rest (a b : Int) : Word := if b = 0 then w a else w (a.tmod b)

/-- The multiplier register a multiply or MTMQ names and the value it writes four cycles after its issue. -/
def mqRule : Instr → Option (Hart × Fin 32 × (Thread → Word))
  | .mul h rd a b => if rd.val < 4 then some (h, rd, fun t => w ((t.gr a).toInt * (t.gr b).toInt)) else none
  | .mulh h rd a b => if rd.val < 4 then some (h, rd, fun t => w ((t.gr a).toInt * (t.gr b).toInt / 2 ^ 64)) else none
  | .mulhu h rd a b => if rd.val < 4 then some (h, rd, fun t => w ((t.gr a).toNat * (t.gr b).toNat / 2 ^ 64 : Nat)) else none
  | .mulhsu h rd a b => if rd.val < 4 then some (h, rd, fun t => w ((t.gr a).toInt * (t.gr b).toNat / 2 ^ 64)) else none
  | .mtmq h rd a b => if rd.val < 4 ∧ b = 0 then some (h, rd, fun t => t.gr a) else none
  | _ => none

/-- The register MFMQ or a divide writes, the cycles it takes and the value. -/
def mdRule : Instr → Option (Hart × Nat × Fin 32 × (Thread → Word))
  | .mfmq h rd a b => if a.val < 4 ∧ b = 0 then some (h, 1, rd, fun t => t.mq.getD a 0) else none
  | .div h rd a b => some (h, 36, rd, fun t => quot (t.gr a).toInt (t.gr b).toInt)
  | .divu h rd a b => some (h, 36, rd, fun t => quot (t.gr a).toNat (t.gr b).toNat)
  | .rem h rd a b => some (h, 36, rd, fun t => rest (t.gr a).toInt (t.gr b).toInt)
  | .remu h rd a b => some (h, 36, rd, fun t => rest (t.gr a).toNat (t.gr b).toNat)
  | _ => none

/-! ### Fixed point (R74 to R78) -/

/-- A Q operand: the signed value of the low bits the format reads. -/
def qIn (qf : BitVec 2) (x : Word) : Int :=
  if qf = 0 then x.toInt.bmod (2 ^ 16) else if qf = 1 then x.toInt.bmod (2 ^ 32) else x.toInt

/-- The fraction bits of a Q format. -/
def qBitsOf (qf : BitVec 2) : Nat := if qf = 0 then 15 else if qf = 1 then 31 else 63

/-- x / 2^n rounded by QRM 0b00, 0b01 or 0b10; 0b11 rounds with the n top bits, at most 32, and QLFSR. -/
def qRound (t : Thread) (x : Int) (n : Nat) : Int :=
  if t.qrm = 0 ∨ n = 0 then x / 2 ^ n
  else if t.qrm = 1 then (x + 2 ^ (n - 1)) / 2 ^ n
  else if t.qrm = 2 then
    (let r := x % 2 ^ n
     let q := x / 2 ^ n
     if 2 * r < 2 ^ n then q else if 2 ^ n < 2 * r then q + 1 else if q % 2 = 0 then q else q + 1)
  else
    (let m := min n 32
     let f := x % 2 ^ n / 2 ^ (n - m)
     let u : Int := ((t.qlfsr.toNat % 2 ^ m : Nat) : Int)
     if 2 ^ m ≤ f + u then x / 2 ^ n + 1 else x / 2 ^ n)

/-- The nearest value in a signed range of n bits. -/
def clampTo (n : Nat) (x : Int) : Int := max (-(2 ^ (n - 1))) (min (2 ^ (n - 1) - 1) x)

/-- 32 steps of QLFSR, after a stochastic rounding that discards bits. -/
def qStep (n : Nat) (t : Thread) : Thread :=
  if t.qrm = 3 ∧ 0 < n then
    { t with qlfsr := ((List.range 32).foldl (fun x _ => if x.getLsbD 0 then x >>> 1 ^^^ 0x80200003#32 else x >>> 1) t.qlfsr) }
  else t

/-- A result saturated to a format into rd, with FXCSR.SAT. -/
def qOut (qf : BitVec 2) (rd : Fin 32) (x : Int) (t : Thread) : Thread :=
  { t with fxSat := t.fxSat || decide (clampTo (qBitsOf qf + 1) x ≠ x) }.setG rd (w (clampTo (qBitsOf qf + 1) x))

/-- An exact result into an accumulator, with FXCSR.OV. -/
def maOut (n : Nat) (x : Int) (t : Thread) : Thread :=
  { t with ma := t.ma.set n (BitVec.ofInt 72 (clampTo 72 x)), fxOv := t.fxOv || decide (clampTo 72 x ≠ x) }

/-- A product as it is placed in ma. -/
def qPlace (t : Thread) (qf : BitVec 2) (p : Int) : Int :=
  if qf = 0 then p * 2 ^ 33 else if qf = 1 then p * 2 ^ 1 else qRound t p 63

/-- What a fixed-point instruction does to its thread. -/
def qRule : Instr → Option (Hart × (Thread → Thread))
  | .qmac h rd a b qf => if qf ≠ 3 ∧ rd.val < 2 then some (h, fun t =>
      qStep (if qf = 2 then 63 else 0)
        (maOut rd ((t.ma.getD rd 0).toInt + qPlace t qf (qIn qf (t.gr a) * qIn qf (t.gr b))) t)) else none
  | .qmsu h rd a b qf => if qf ≠ 3 ∧ rd.val < 2 then some (h, fun t =>
      qStep (if qf = 2 then 63 else 0)
        (maOut rd ((t.ma.getD rd 0).toInt - qPlace t qf (qIn qf (t.gr a) * qIn qf (t.gr b))) t)) else none
  | .qmul h rd a b qf => if qf ≠ 3 then some (h, fun t =>
      qStep (qBitsOf qf) (qOut qf rd (qRound t (qIn qf (t.gr a) * qIn qf (t.gr b)) (qBitsOf qf)) t)) else none
  | .qadd h rd a b qf => if qf ≠ 3 then some (h, fun t => qOut qf rd (qIn qf (t.gr a) + qIn qf (t.gr b)) t) else none
  | .qsub h rd a b qf => if qf ≠ 3 then some (h, fun t => qOut qf rd (qIn qf (t.gr a) - qIn qf (t.gr b)) t) else none
  | .qrnd h rd a b qf => if qf ≠ 3 ∧ a.val < 2 ∧ b = 0 then some (h, fun t =>
      qStep (63 - qBitsOf qf) (qOut qf rd (qRound t (t.ma.getD a 0).toInt (63 - qBitsOf qf)) t)) else none
  | .qclr h rd a b => if rd.val < 2 ∧ a = 0 ∧ b = 0 then some (h, fun t => { t with ma := t.ma.set rd 0 }) else none
  | .mfmal h rd a b => if a.val < 2 ∧ b = 0 then some (h, fun t => t.setG rd (w (t.ma.getD a 0).toInt)) else none
  | .mfmah h rd a b => if a.val < 2 ∧ b = 0 then some (h, fun t => t.setG rd (w ((t.ma.getD a 0).toInt / 2 ^ 64))) else none
  | .mtmal h rd a b => if rd.val < 2 ∧ b = 0 then some (h, fun t =>
      { t with ma := t.ma.set rd (BitVec.ofInt 72 ((t.ma.getD rd 0).toInt / 2 ^ 64 * 2 ^ 64 + (t.gr a).toNat)) }) else none
  | .mtmah h rd a b => if rd.val < 2 ∧ b = 0 then some (h, fun t =>
      { t with ma := t.ma.set rd (BitVec.ofNat 72 ((t.gr a).toNat % 256 * 2 ^ 64 + (t.ma.getD rd 0).toNat % 2 ^ 64)) }) else none
  | _ => none

/-! ### Control transfer (R62 to R64, R79 to R82) -/

/-- Whether a branch is taken, and its offset in words. -/
def branchRule : Instr → Option (Hart × Int × (Thread → Bool))
  | .beq h a b o => some (h, o.toInt, fun t => decide (t.gr a = t.gr b))
  | .bne h a b o => some (h, o.toInt, fun t => decide (t.gr a ≠ t.gr b))
  | .blt h a b o => some (h, o.toInt, fun t => decide ((t.gr a).toInt < (t.gr b).toInt))
  | .bge h a b o => some (h, o.toInt, fun t => decide ((t.gr b).toInt ≤ (t.gr a).toInt))
  | .bltu h a b o => some (h, o.toInt, fun t => decide ((t.gr a).toNat < (t.gr b).toNat))
  | .bgeu h a b o => some (h, o.toInt, fun t => decide ((t.gr b).toNat ≤ (t.gr a).toNat))
  | .beqi h a i o => some (h, o.toInt, fun t => decide (t.gr a = w i.toInt))
  | .bnei h a i o => some (h, o.toInt, fun t => decide (t.gr a ≠ w i.toInt))
  | .blti h a i o => some (h, o.toInt, fun t => decide ((t.gr a).toInt < i.toInt))
  | .bgei h a i o => some (h, o.toInt, fun t => decide (i.toInt ≤ (t.gr a).toInt))
  | .bltui h a i o => some (h, o.toInt, fun t => decide ((t.gr a).toNat < (w i.toInt).toNat))
  | .bgeui h a i o => some (h, o.toInt, fun t => decide ((w i.toInt).toNat ≤ (t.gr a).toNat))
  | _ => none

/-- Loop n is active, the address lies in its body. -/
def inLoop (t : Thread) (n : Nat) (a : Word) : Prop := (t.lhead.getD n 0).toNat ≤ a.toNat ∧ a.toNat ≤ (t.ltail.getD n 0).toNat

/-- A thread from which a branch or a plain jump has gone to p: a loop left that way is abandoned (R82). -/
def jumped (t : Thread) (p : Word) (t1 : Thread) : Prop :=
  t1 = { t with pc := p, instret := t.instret + 1, lflags := t1.lflags } ∧ t1.lflags.getLsbD 2 = t.lflags.getLsbD 2 ∧
  ∀ n, n < 2 → (t1.act n = true ↔ t.act n = true ∧ ¬ (inLoop t n t.pc ∧ ¬ inLoop t n p))

/-- A thread from which a call has gone to p: no loop is abandoned (R82). -/
def called (t : Thread) (p : Word) : Thread := { t with pc := p, instret := t.instret + 1 }

/-- The instruction answers a next state in which only thread h has changed, to some u that is as P says; a transfer leaves
the next issue slot empty (R64). -/
def Goes (i : Instr) (s : State) (d1 : Dev) (h : Hart) (P : Thread → Prop) : Prop := ∃ u, P u ∧ Runs i s d1 h 2 u

/-! ### Exceptions (R91 to R100) -/

/-- A field of a number: bits hi down to lo. -/
def bits (x : Word) (hi lo : Nat) : Nat := x.toNat / 2 ^ lo % 2 ^ (hi + 1 - lo)

/-- The target ring of a precise exception: the more privileged of the ring and the delegation field of its code (R94). -/
def targetOf (s : Station) (t : Thread) (code : Nat) : Nat := min (bits (t.status.setWidth 64) 1 0) (bits s.xdel0 (2 * code + 1) (2 * code))

/-- The registers of a thread that has entered ring T from t (R88, R93, R95): the shadow set of T, STATUS, LFLAGS, sp and PC;
every other register as before, with every multiplier write landed. -/
def Entered (t u : Thread) (T : Nat) (cause xaddr xpc pc : Word) : Prop :=
  u.xpc = t.xpc.set T xpc ∧ u.xst = t.xst.set T (w (t.status.toNat + t.lflags.toNat * 2 ^ 16)) ∧ u.xcause = t.xcause.set T cause ∧
  u.xaddr = t.xaddr.set T xaddr ∧ u.xsp = t.xsp.set T (t.gr 31) ∧
  (∀ b, b < 16 → u.status.getLsbD b =
    if b = 12 + T then true else if b = 2 then false else if b < 2 then decide (T / 2 ^ b % 2 = 1) else t.status.getLsbD b) ∧
  u.lflags.getLsbD 0 = false ∧ u.lflags.getLsbD 1 = false ∧ u.lflags.getLsbD 2 = t.lflags.getLsbD 2 ∧
  u.gr 31 = (if T < t.status.toNat % 4 then t.gateSp.getD T 0 else t.gr 31) ∧ (∀ r, r < 31 → u.gr r = t.gr r) ∧ u.pc = pc ∧
  u.mqPend = [] ∧ u.wait = .ready ∧
  u = { t with xpc := u.xpc, xst := u.xst, xcause := u.xcause, xaddr := u.xaddr, xsp := u.xsp, status := u.status, lflags := u.lflags,
               g := u.g, pc := u.pc, nointFrom := u.nointFrom, wait := u.wait, mq := u.mq, mqPend := u.mqPend }

/-- From d1 to d2 nothing changes but thread h, the cycle count of its station, and the multiplier registers of its other
threads. -/
def OnlyHart (d1 d2 : Dev) (h : Hart) : Prop :=
  d2 = { d1 with stns := d2.stns } ∧ (∀ n : Nat, n ≠ h.stn → d2.stn n = d1.stn n) ∧
  d2.stn h.stn = { d1.stn h.stn with th := (d2.stn h.stn).th, cycle := (d2.stn h.stn).cycle } ∧
  ∀ k : Fin 4, k ≠ h.thr → d2.thr ⟨h.stn, k⟩ =
    { d1.thr ⟨h.stn, k⟩ with mq := (d2.thr ⟨h.stn, k⟩).mq, mqPend := (d2.thr ⟨h.stn, k⟩).mqPend }

/-- A station that has locked up (R100): it stops with its threads and memory as they were, CFATAL is set, and the event is in
class 4. -/
def LockedUp (d1 d2 : Dev) (h : Hart) : Prop :=
  (d2.stn h.stn).locked = true ∧ (d2.stn h.stn).running = none ∧ (∀ k : Fin 4, (d2.thr ⟨h.stn, k⟩).g = (d1.thr ⟨h.stn, k⟩).g) ∧
  d2.cfatal = true ∧ d2.mem = d1.mem ∧ (d2.stn h.stn).sp = (d1.stn h.stn).sp ∧
  d2.rc.cnt.getD 4 0 = (d1.rc.cnt.getD 4 0 + 1) % 2 ^ 64

/-- The instruction of hart h takes the precise exception of a code (R93, R95): it enters the handler of the target ring, or
locks the station up where the shadow set of that ring is occupied (R99). -/
def Traps (i : Instr) (s : State) (d1 : Dev) (h : Hart) (code : Nat) (xaddr : Word) (detail : Nat) : Prop :=
  let T := targetOf (d1.stn h.stn) (d1.thr h) code
  ∃ t, exec i s = .next t ∧ t.pending = s.pending ∧
    if (d1.thr h).status.getLsbD (12 + T) then LockedUp d1 t.dev h
    else OnlyHart d1 t.dev h ∧
      Entered (d1.thr h) (t.dev.thr h) T (w (detail % 256 * 256 + code)) xaddr (d1.thr h).pc
        ((d1.stn h.stn).xvec.getD T 0 + w (64 * code : Nat))

/-- The words of format A, I and E (R57), as ILLEGAL and PRIV report them. -/
def wordA (op : BitVec 6) (fn : BitVec 10) (rd a b : Fin 32) : Word :=
  (op ++ BitVec.ofNat 5 rd ++ BitVec.ofNat 5 a ++ BitVec.ofNat 5 b ++ fn ++ 0#1).setWidth 64

def wordI (op : BitVec 6) (rd a : Fin 32) (imm : BitVec 15) : Word :=
  (op ++ BitVec.ofNat 5 rd ++ BitVec.ofNat 5 a ++ imm ++ 0#1).setWidth 64

def wordE (op : BitVec 6) (rd a b : Fin 32) (fn : BitVec 10) (imm : BitVec 32) : Word :=
  imm ++ op ++ BitVec.ofNat 5 rd ++ BitVec.ofNat 5 a ++ BitVec.ofNat 5 b ++ fn ++ 1#1

/-- Instructions that a field which must be zero or is reserved makes illegal (R58, R60, R61, R71, R78, R79, R84): hart, length and
word. -/
def illRule : Instr → Option (Hart × Nat × Word)
  | .clz h rd a b => if b ≠ 0 then some (h, 4, wordA 0x01 0x00E rd a b) else none
  | .ctz h rd a b => if b ≠ 0 then some (h, 4, wordA 0x01 0x00F rd a b) else none
  | .popc h rd a b => if b ≠ 0 then some (h, 4, wordA 0x01 0x010 rd a b) else none
  | .shi h rd a i => if 256 ≤ i.toNat then some (h, 4, wordI 0x08 rd a i) else none
  | .li h rd a b fn i => if ¬ (a = 0 ∧ b = 0 ∧ fn = 0) then some (h, 8, wordE 0x0D rd a b fn i) else none
  | .lih h rd a b fn i => if ¬ (a = 0 ∧ b = 0 ∧ fn = 0) then some (h, 8, wordE 0x0E rd a b fn i) else none
  | .mul h rd a b => if 4 ≤ rd.val then some (h, 4, wordA 0x09 0x000 rd a b) else none
  | .mulh h rd a b => if 4 ≤ rd.val then some (h, 4, wordA 0x09 0x001 rd a b) else none
  | .mulhu h rd a b => if 4 ≤ rd.val then some (h, 4, wordA 0x09 0x002 rd a b) else none
  | .mulhsu h rd a b => if 4 ≤ rd.val then some (h, 4, wordA 0x09 0x003 rd a b) else none
  | .qmac h rd a b qf => if qf = 3 ∨ 2 ≤ rd.val then some (h, 4, wordA 0x0A (qf.setWidth 10) rd a b) else none
  | .qmul h rd a b qf => if qf = 3 then some (h, 4, wordA 0x0A (8 + qf.setWidth 10) rd a b) else none
  | .qrnd h rd a b qf => if qf = 3 ∨ 2 ≤ a.val ∨ b ≠ 0 then some (h, 4, wordA 0x0A (20 + qf.setWidth 10) rd a b) else none
  | .loop h rd a i => if 2 ≤ rd.val ∨ a ≠ 0 ∨ i.toInt < 1 then some (h, 4, wordI 0x0B rd a i) else none
  | .nop h rd a b => if ¬ (rd = 0 ∧ a = 0 ∧ b = 0) then some (h, 4, wordA 0x3E 0x001 rd a b) else none
  | .fence h rd a b => if ¬ (rd = 0 ∧ a = 0 ∧ b = 0) then some (h, 4, wordA 0x26 0x000 rd a b) else none
  | _ => none

end Sys2Proof.Cert
end

