-- ==== Sys2Proof/Certificates/Slice0/Terms/Memory.lean ====
section
/-! DEFINITION. Terms of the statements about memory access: the loads, stores and atomics by their operands, the bytes they move,
and the places the statements speak of. -/

namespace Sys2Proof.Cert

open Sys2Proof.Machine

/-- A core load: hart, rd, rs1, IMM, bytes, whether it sign-extends, whether it hits the L1, and the operation its thread holds
while it waits. -/
def ldRule : Instr → Option (Hart × Fin 32 × Fin 32 × Int × Nat × Bool × Bool × MemOp)
  | .lb h rd a i hit => some (h, rd, a, i.toInt, 1, true, hit, .ld .b rd a i)
  | .lbu h rd a i hit => some (h, rd, a, i.toInt, 1, false, hit, .ld .bu rd a i)
  | .lh h rd a i hit => some (h, rd, a, i.toInt, 2, true, hit, .ld .h rd a i)
  | .lhu h rd a i hit => some (h, rd, a, i.toInt, 2, false, hit, .ld .hu rd a i)
  | .lw h rd a i hit => some (h, rd, a, i.toInt, 4, true, hit, .ld .w rd a i)
  | .lwu h rd a i hit => some (h, rd, a, i.toInt, 4, false, hit, .ld .wu rd a i)
  | .ld h rd a i hit => some (h, rd, a, i.toInt, 8, false, hit, .ld .d rd a i)
  | _ => none

/-- A core store: hart, the register with the data, rs1, IMM, bytes. -/
def stRule : Instr → Option (Hart × Fin 32 × Fin 32 × Int × Nat)
  | .sb h rd a i _ => some (h, rd, a, i.toInt, 1)
  | .sh h rd a i _ => some (h, rd, a, i.toInt, 2)
  | .sw h rd a i _ => some (h, rd, a, i.toInt, 4)
  | .sd h rd a i _ => some (h, rd, a, i.toInt, 8)
  | _ => none

/-- A scratchpad atomic: hart, rd, rs1, rs2, bytes, and the word it writes from the old word and rs2. -/
def amoRule : Instr → Option (Hart × Fin 32 × Fin 32 × Fin 32 × Nat × (Nat → Nat → Nat))
  | .aaddW h rd a b => some (h, rd, a, b, 4, fun o x => (o + x) % 2 ^ 32)
  | .aaddD h rd a b => some (h, rd, a, b, 8, fun o x => (o + x) % 2 ^ 64)
  | .aaddF h rd a b => some (h, rd, a, b, 4, fun o x => fp32Add o (x % 2 ^ 32))
  | .aswapW h rd a b => some (h, rd, a, b, 4, fun _ x => x % 2 ^ 32)
  | .aswapD h rd a b => some (h, rd, a, b, 8, fun _ x => x)
  | _ => none

/-- n bytes of a memory from an address upward as a number, the lowest address least significant. -/
def le (m : Mem) (a : Nat) : Nat → Nat
  | 0 => 0
  | n + 1 => le m a n + (m.get (a + n)).toNat * 256 ^ n

/-- The register value of n bytes: sign-extended or zero-extended. -/
def loaded (n : Nat) (signed : Bool) (x : Nat) : Word := if signed then w ((x : Int).bmod (2 ^ (8 * n))) else w x

/-- Byte j of a number. -/
def byteOf (x j : Nat) : Byte := BitVec.ofNat 8 (x / 256 ^ j)

/-- A memory with the n low bytes of x stored at an address, and every other byte as before. -/
def Stored (m m2 : Mem) (a n x : Nat) : Prop :=
  ∀ b, m2.get b = if a ≤ b ∧ b < a + n then byteOf x (b - a) else m.get b

/-- The access of a hart at va needs no walk and gives the physical address pa by page e. -/
def At (d : Dev) (h : Hart) (ak : AK) (cls : Cls) (va : Word) (pa : Nat) (e : TlbE) : Prop :=
  d.needsWalk h.stn va.toNat = false ∧ d.translate h.stn (d.thr h).ring ak cls va.toNat = .ok pa e

/-- n bytes at an offset of the scratchpad of station k: it is ON (R315), and none of them lies in a poisoned group (R307). -/
def Scratch (d : Dev) (k pa off n : Nat) : Prop :=
  region pa = .scratch k off ∧ (d.stn k).spState = 0 ∧ ∀ g ∈ (d.stn k).spPoison, g * 8 + 8 ≤ off ∨ off + n ≤ g * 8

/-- n bytes of GDDR7 that can be read: the slot holds a key, the channel is not retired and no line of them is poisoned. -/
def Close (d : Dev) (pa n : Nat) : Prop :=
  region pa = .gddr ∧ d.mem.key0.isSome = true ∧ channelOf pa ∉ d.mem.retired ∧
  ∀ l ∈ d.mem.poison, l * 128 + 128 ≤ pa ∨ pa + n ≤ l * 128

/-- A thread waits for something, and its station runs another thread or none. -/
def Waits (d2 : Dev) (h : Hart) (wt : Wait) : Prop := (d2.thr h).wait = wt ∧ (d2.stn h.stn).running ≠ some h.thr

/-- The registers a mask names, in ascending order. -/
def masked (m : BitVec 32) : List Nat := (List.range 32).filter (fun r => m.getLsbD r)

/-- The frame of a mask: 8 × (n + 1), rounded up to a multiple of 16. -/
def frameOf (m : BitVec 32) : Nat := if (masked m).length % 2 = 0 then 8 * (masked m).length + 16 else 8 * (masked m).length + 8

/-- The accesses of a frame: the return address at its base, then the registers. -/
def frameAt (b : Word) (m : BitVec 32) : List Acc := (List.range ((masked m).length + 1)).map (fun j => ⟨(b + w (8 * j : Nat)).toNat, 8, j⟩)

/-- A frame of station k's own scratchpad: every slot translates without a walk to an offset of it. -/
def FrameIn (d d2 : Dev) (h : Hart) (ak : AK) (accs : List Acc) (locs : List (Nat × TlbE)) (offs : List Nat) : Prop :=
  (∀ a ∈ accs, d.needsWalk h.stn a.va = false) ∧ Dev.checkAccs h (d.thr h).ring ak (.core 8) accs d [] = (d2, .ok locs) ∧
  locs.map (fun l => region l.1) = offs.map (fun o => .scratch h.stn o) ∧ (d.stn h.stn).spState = 0 ∧ (d.stn h.stn).spPoison = []

end Sys2Proof.Cert
end

