-- ==== Sys2Proof/Certificates/Slice0/Terms/System.lean ====
section
/-! DEFINITION. Terms of the statements about loops, control registers, gates, threads and the entries at a boundary. -/

namespace Sys2Proof.Cert

open Sys2Proof.Machine

/-- From d1 to d2 only station n changes, to st. -/
def OnlyStation (d1 d2 : Dev) (n : Nat) (st : Station) : Prop :=
  d2 = { d1 with stns := d2.stns } ∧ (∀ m : Nat, m ≠ n → d2.stn m = d1.stn m) ∧ d2.stn n = st

/-- The command answers a next state whose queue is as before and whose device is from d1 but for station n, which is st. -/
def StnIs (i : Instr) (s : State) (d1 : Dev) (n : Nat) (st : Station) : Prop :=
  ∃ t, exec i s = .next t ∧ t.pending = s.pending ∧ OnlyStation d1 t.dev n st

/-! ### Loops (R79, R80) -/

/-- A loop instruction with legal fields: hart, loop, length, the offset of LTAIL from PC, and the count LOOPI gives. -/
def loopRule : Instr → Option (Hart × Nat × Nat × Int × Option (BitVec 24))
  | .loop h rd a i => if rd.val < 2 ∧ a = 0 ∧ 1 ≤ i.toInt then some (h, rd, 4, 4 * i.toInt, none) else none
  | .loopi h rd a b fn i => if rd.val < 2 ∧ a = 0 ∧ b = 0 ∧ i.toNat < 2 ^ 24 ∧ 2 ≤ fn.toNat then
      some (h, rd, 8, 4 * fn.toNat, some (i.truncate 24)) else none
  | _ => none

/-- The thread with the count of loop n that LOOPI writes. -/
def counted (n : Nat) (c : Option (BitVec 24)) (t : Thread) : Thread :=
  match c with
  | some x => { t with lc := t.lc.set n x }
  | none => t

/-- A thread that has entered loop n (R80): remaining count, head, tail, ACTn, and ORDER where the other loop is active. -/
def looped (n : Nat) (head tail : Word) (t u : Thread) : Prop :=
  u = { t with lrem := t.lrem.set n (t.lc.getD n 0), lhead := t.lhead.set n head, ltail := t.ltail.set n tail, lflags := u.lflags } ∧
  u.act n = true ∧ u.act (1 - n) = t.act (1 - n) ∧
  u.lflags.getLsbD 2 = if t.act (1 - n) then decide (n = 1) else t.lflags.getLsbD 2

/-! ### Control registers (R50, R80, R86 to R92, R102, R113, R126 to R132, R163, R164, R201, R226, R231, R260, R285 to R287) -/

/-- A number as a word. -/
def nat (x : Nat) : Word := BitVec.ofNat 64 x

/-- The registers of ring r, by the low digit of their number (R86). -/
def ringTable (s : Station) (t : Thread) (r : Nat) : List (Nat × Word) :=
  [(0x100 + 16 * r, t.xpc.getD r 0), (0x101 + 16 * r, t.xst.getD r 0), (0x102 + 16 * r, t.xcause.getD r 0),
   (0x103 + 16 * r, t.xaddr.getD r 0), (0x104 + 16 * r, t.xsp.getD r 0), (0x105 + 16 * r, t.gateSp.getD r 0),
   (0x106 + 16 * r, s.xvec.getD r 0), (0x107 + 16 * r, s.gatePc.getD r 0)]

/-- Control registers by number, with the values a read of them gives. -/
def crTable (d : Dev) (h : Hart) : List (Nat × Word) :=
  let s := d.stn h.stn
  let t := d.thr h
  let e := s.eng
  [(0x001, nat (4 * h.stn + h.thr)), (0x002, nat s.cycle), (0x003, t.instret), (0x008, nat (t.lc.getD 0 0).toNat),
   (0x009, nat (t.lc.getD 1 0).toNat), (0x00A, nat (t.lrem.getD 0 0).toNat), (0x00B, nat (t.lrem.getD 1 0).toNat),
   (0x00C, t.lhead.getD 0 0), (0x00D, t.ltail.getD 0 0), (0x00E, t.lhead.getD 1 0), (0x00F, t.ltail.getD 1 0),
   (0x010, nat t.lflags.toNat), (0x011, nat (t.fxOv.toNat * 16 + t.fxSat.toNat * 8 + t.qrm.toNat)), (0x012, nat t.qlfsr.toNat)]
  ++ ringTable s t 0 ++ ringTable s t 1 ++ ringTable s t 2 ++ ringTable s t 3 ++
  [(0x140, nat t.status.toNat), (0x141, s.xdel0), (0x142, s.xdel1), (0x143, nat s.nointMax.toNat),
   (0x144, nat (min 0xFFFF (s.cycle - t.nointFrom))), (0x145, nat t.ipend.toNat), (0x146, nat t.imask.toNat)]
  ++ (List.range 32).map (fun j => (0x160 + j, s.gtab.getD j 0)) ++
  [(0x200, nat (t.sew.toNat * 2 ^ 16 + t.vl.toNat)), (0x201, nat (t.frm.toNat * 2 ^ 8 + t.vflags.toNat)),
   (0x202, nat t.vfault.toNat), (0x203, nat t.vslfsr.toNat), (0x205, nat s.pgOn.toNat)]
  ++ (List.range 8).map (fun j => (0x300 + j, nat (s.tcfg.getD j 0).toNat)) ++
  [(0x309, t.tcFault), (0x322, e.wseq), (0x323, nat e.kstep.toNat), (0x328, nat e.flags.toNat), (0x32A, nat e.srseed.toNat),
   (0x32B, e.firstNv), (0x32C, nat e.firstNvK.toNat), (0x32D, e.firstNvSeq), (0x330, e.spctl), (0x331, e.spaddr),
   (0x332, e.daddr), (0x342, nat e.cbPred.toNat), (0x350, nat ((d.made &&& ~~~d.retStn).toNat % 2 ^ 64)),
   (0x351, nat ((d.made &&& ~~~d.retStn).toNat / 2 ^ 64))]

/-- A ring may read a register: those of a more privileged ring it may not (R87). -/
def mayRead (ring n : Nat) : Prop := 0x100 ≤ n ∧ n < 0x140 → ring ≤ (n - 0x100) / 16

/-- A ring may write a register (R87, R126, R163, R201). -/
def mayWrite (ring n : Nat) : Prop :=
  mayRead ring n ∧ (n = 0x141 ∨ n = 0x142 ∨ n = 0x143 ∨ (0x160 ≤ n ∧ n < 0x180) ∨ n = 0x204 → ring = 0) ∧
  (n = 0x308 → ring < 2) ∧ (n = 0x322 ∨ n = 0x323 → ring < 3)

/-- Writes of registers that need the ownership of the engine (R231, R260, R285). -/
def needsOwner (n : Nat) : Prop := n = 0x329 ∨ n = 0x32A ∨ (0x330 ≤ n ∧ n < 0x333) ∨ (0x341 ≤ n ∧ n < 0x34C)

/-- Registers that are read only (R50, R86, R113, R149, R201, R286). -/
def readOnly : List Nat :=
  [0x001, 0x002, 0x003, 0x020, 0x144, 0x202, 0x205, 0x300, 0x307, 0x309, 0x30A, 0x320, 0x321, 0x32B, 0x32F, 0x340, 0x350, 0x35C]

/-- The low n bits of a value. -/
def low (n : Nat) (v : Word) : Nat := v.toNat % 2 ^ n

/-- STATUS after an MTC in its ring (R89): AXEN and PRECISE, IE but in ring 3, and OVRSTAY cleared by a 1. -/
def statusAfter (t : Thread) (v : Word) (st : BitVec 16) : Prop :=
  ∀ b, b < 16 → st.getLsbD b =
    if b = 4 ∨ (6 ≤ b ∧ b ≤ 10) then v.getLsbD b
    else if b = 2 then (if t.status.toNat % 4 = 3 then t.status.getLsbD 2 else v.getLsbD 2)
    else if b = 11 then t.status.getLsbD 11 && !v.getLsbD 11
    else t.status.getLsbD b

/-- Registers with what a write of v leaves in their station (thread k writes). -/
def crStores (s : Station) (k : Fin 4) (v : Word) : List (Nat × Station) :=
  let on (f : Thread → Thread) : Station := s.updThr k f
  let eng (f : Engine → Engine) : Station := { s with eng := f s.eng }
  let rings := List.range 4
  [(0x008, on (fun t => { t with lc := t.lc.set 0 (BitVec.ofNat 24 (low 24 v)) })),
   (0x009, on (fun t => { t with lc := t.lc.set 1 (BitVec.ofNat 24 (low 24 v)) })),
   (0x00A, on (fun t => { t with lrem := t.lrem.set 0 (BitVec.ofNat 24 (low 24 v)) })),
   (0x00C, on (fun t => { t with lhead := t.lhead.set 0 v })), (0x00F, on (fun t => { t with ltail := t.ltail.set 1 v })),
   (0x010, on (fun t => { t with lflags := BitVec.ofNat 3 (low 3 v) })),
   (0x011, on (fun t => { t with qrm := BitVec.ofNat 2 (low 2 v), fxSat := t.fxSat && !v.getLsbD 3, fxOv := t.fxOv && !v.getLsbD 4 })),
   (0x012, on (fun t => { t with qlfsr := if low 32 v = 0 then 1 else BitVec.ofNat 32 (low 32 v) })),
   (0x146, on (fun t => { t with imask := BitVec.ofNat 4 (low 4 v) })),
   (0x203, on (fun t => { t with vslfsr := if low 32 v = 0 then 1 else BitVec.ofNat 32 (low 32 v) })),
   (0x142, { s with xdel1 := v }), (0x322, eng (fun e => { e with wseq := v })),
   (0x323, eng (fun e => { e with kstep := BitVec.ofNat 32 (low 32 v) })),
   (0x328, eng (fun e => { e with
      flags := e.flags &&& ~~~(BitVec.ofNat 5 (low 5 v)),
      firstNv := if v.getLsbD 0 then nat (e.firstNv.toNat % 2 ^ 63) else e.firstNv })),
   (0x342, eng (fun e => { e with cbPred := BitVec.ofNat 8 (low 8 v) }))]
  ++ rings.map (fun r => (0x100 + 16 * r, on (fun t => { t with xpc := t.xpc.set r (nat (v.toNat / 4 * 4)) })))
  ++ rings.map (fun r => (0x103 + 16 * r, on (fun t => { t with xaddr := t.xaddr.set r v })))
  ++ rings.map (fun r => (0x104 + 16 * r, on (fun t => { t with xsp := t.xsp.set r v })))
  ++ rings.map (fun r => (0x105 + 16 * r, on (fun t => { t with gateSp := t.gateSp.set r v })))
  ++ rings.map (fun r => (0x106 + 16 * r, { s with xvec := s.xvec.set r (nat (v.toNat / 4096 * 4096)) }))
  ++ rings.map (fun r => (0x107 + 16 * r, { s with gatePc := s.gatePc.set r (nat (v.toNat / 16384 * 16384)) }))

/-- The writes of control registers, with legal fields: hart, rs1 and the number of the register (R84). -/
def mtcRule : Instr → Option (Hart × Fin 32 × Nat)
  | .mtc h rd a i => if rd = 0 ∧ i.toNat < 4096 then some (h, a, i.toNat) else none
  | .statusWrite h rd a => if rd = 0 then some (h, a, 0x140) else none
  | .xrel h rd a => if rd = 0 then some (h, a, 0x147) else none
  | .vslfsrWrite h rd a => if rd = 0 then some (h, a, 0x203) else none
  | .qlfsrWrite h rd a => if rd = 0 then some (h, a, 0x012) else none
  | .meFlagsWrite h rd a => if rd = 0 then some (h, a, 0x328) else none
  | .meSrseedWrite h rd a => if rd = 0 then some (h, a, 0x32A) else none
  | .frel h rd a => if rd = 0 then some (h, a, 0x308) else none
  | .stop h rd a => if rd = 0 then some (h, a, 0x341) else none
  | _ => none

/-- A station in which the instruction of thread k has completed on st, after c cycles. -/
def after (k : Fin 4) (len c : Nat) (st : Station) : Station := (st.updThr k (Thread.done len)).pass c

/-! ### Threads (R52, R53, R55) -/

/-- The thread that runs next after thread k: the first ready one in the order after k, or none (R53). -/
def nextOf (s : Station) (k : Fin 4) (r : Option (Fin 4)) : Prop :=
  match r with
  | none => ∀ j : Fin 4, (s.thr j).enabled = true → (s.thr j).wait ≠ .ready
  | some j => (s.thr j).enabled = true ∧ (s.thr j).wait = .ready ∧
      ∀ n : Nat, 1 ≤ n → (∀ m, 1 ≤ m → m ≤ n → (k.val + m) % 4 ≠ j.val) →
        (s.thr ((k.val + n) % 4)).enabled = true → (s.thr ((k.val + n) % 4)).wait ≠ .ready

/-- A station whose running thread k has switched out from st, at a cost of 2 cycles. -/
def switched (st : Station) (k : Fin 4) (st2 : Station) : Prop :=
  st2 = { st.pass 2 with running := st2.running } ∧ nextOf st2 k st2.running

end Sys2Proof.Cert
end

