-- ==== Sys2Proof/Certificates/Slice0/Terms/Vector.lean ====
section
/-! DEFINITION. Terms of the statements about the vector unit: elements, active elements, the instructions by their operands, and what
the rules of 05_long_vectors.md give as the value of each element. -/

namespace Sys2Proof.Cert

open Sys2Proof.Machine

/-! ### Elements -/

/-- Element i of width wd of vector register r. -/
def elem (t : Thread) (r wd i : Nat) : Nat := (t.v.getD r 0).toNat / 2 ^ (wd * i) % 2 ^ wd

/-- Bit i of predicate register r; k0 is all ones (R113). -/
def pbit (t : Thread) (r i : Nat) : Bool := if r = 0 then decide (i < 2048) else (t.k.getD r 0).getLsbD i

/-- Element i is active under the governing predicate km (R115, R120). -/
def on (t : Thread) (km i : Nat) : Bool := decide (i < t.vl.toNat) && pbit t km i

/-- The active elements, in ascending order. -/
def ons (t : Thread) (km : Nat) : List Nat := (List.range t.vl.toNat).filter (on t km)

/-- Element i of the second operand: with SX = 1 the low bits of a general register (R121). -/
def src2 (t : Thread) (f : VF) (wd i : Nat) : Nat := if f.sx then (t.gr f.vs2).toNat % 2 ^ wd else elem t f.vs2 wd i

/-- Vector register vd of u has the elements g gives, and those of t where g gives none; nothing else of the thread changes. -/
def Elems (t u : Thread) (vd wd : Nat) (g : Nat → Option Nat) : Prop :=
  u = { t with v := u.v } ∧ (∀ r, r ≠ vd → u.v.getD r 0 = t.v.getD r 0) ∧
  ∀ i, wd * i + wd ≤ 16384 → elem u vd wd i = (g i).getD (elem t vd wd i)

/-- What an elementwise instruction writes: active elements their value, inactive ones below VL zero where ZM = 1 (R115, R120). -/
def each (t : Thread) (f : VF) (g : Nat → Nat) (i : Nat) : Option Nat :=
  if on t f.km i then some (g i) else if f.zm ∧ i < t.vl.toNat then some 0 else none

/-- Predicate register kd of u has the bits g gives, and those of t where g gives none. -/
def Preds (t u : Thread) (kd : Nat) (g : Nat → Option Bool) : Prop :=
  u = { t with k := u.k } ∧ (∀ r, r ≠ kd → u.k.getD r 0 = t.k.getD r 0) ∧
  ∀ i, i < 2048 → (u.k.getD kd 0).getLsbD i = (g i).getD ((t.k.getD kd 0).getLsbD i)

/-- The flags are those that the events of the elements raise (R128). -/
def Raised (flags : BitVec 6) (l : List Nat) (ev : Nat → Ev) : Prop := ∀ b, flags.getLsbD b = l.any (fun i => (ev i).vuBits.getLsbD b)

/-! ### Issue (R115, R116, R124, R125) -/

/-- Something is to be done, the widest operand's VL elements fit a register, the queue has a place, and the thread is not in precise
mode. -/
def VReady (d1 : Dev) (h : Hart) (wd : Nat) : Prop :=
  let t := d1.thr h
  0 < t.vl.toNat ∧ t.vl.toNat * wd ≤ 16384 ∧ (d1.stn h.stn).vq.length < 16 ∧ t.status.getLsbD 4 = false

/-- The instruction enters the vector queue with its flags, its thread goes on from u, and the lane groups it needs are powered;
nothing else changes. -/
def Queued (t : State) (d1 : Dev) (h : Hart) (u : Thread) (e : VqEntry) : Prop :=
  e.thr = h.thr ∧ e.addr = (d1.thr h).pc ∧
  OnlyStation d1 t.dev h.stn { (((d1.stn h.stn).updThr h.thr (fun _ => u.done 8)).pass 1) with
    vq := (d1.stn h.stn).vq ++ [e], pgOn := (t.dev.stn h.stn).pgOn, pgLast := (t.dev.stn h.stn).pgLast } ∧
  ∀ g, g < 8 → (t.dev.stn h.stn).pgOn.getLsbD g = ((d1.stn h.stn).pgOn.getLsbD g || decide (g < e.groups))

/-- The instruction answers a next state in which it is queued, with a thread and flags as P says. -/
def VIssues (i : Instr) (s : State) (d1 : Dev) (h : Hart) (P : Thread → BitVec 6 → Prop) : Prop :=
  ∃ t u e, exec i s = .next t ∧ t.pending = s.pending ∧ P u e.ev.vuBits ∧ Queued t d1 h u e ∧
    e.axen = ((d1.thr h).status.toNat / 64 % 32 : Nat) ∧ e.ring = (d1.thr h).ring ∧ e.precise = false

/-- A memory form likewise; it raises no arithmetic event. -/
def VMoves (i : Instr) (s : State) (d1 : Dev) (h : Hart) (P : Thread → Prop) : Prop :=
  ∃ t u e, exec i s = .next t ∧ t.pending = s.pending ∧ P u ∧ Queued t d1 h u e ∧ e.ev = Ev.none

/-! ### Integer and fixed point (R119, R127, R145) -/

/-- A two's-complement value of width wd. -/
def sv (wd x : Nat) : Int := (x : Int).bmod (2 ^ wd)

/-- A value modulo 2^wd. -/
def mods (wd : Nat) (x : Int) : Nat := (x % 2 ^ wd).toNat

/-- An element is less than another, signed or unsigned by ET. -/
def less (et wd a b : Nat) : Bool := if 4 ≤ et ∧ et ≤ 7 then decide (a < b) else decide (sv wd a < sv wd b)

/-- An integer instruction: its fields and its element function of width, a and b. -/
def viRule : Instr → Option (Hart × VF × (Nat → Nat → Nat → Nat))
  | .vadd h f => some (h, f, fun n a b => (a + b) % 2 ^ n)
  | .vsub h f => some (h, f, fun n a b => mods n ((a : Int) - b))
  | .vmul h f => some (h, f, fun n a b => a * b % 2 ^ n)
  | .vmulh h f => some (h, f, fun n a b => mods n (sv n a * sv n b / 2 ^ n))
  | .vmulhu h f => some (h, f, fun n a b => a * b / 2 ^ n)
  | .vand h f => some (h, f, fun _ a b => a &&& b)
  | .vor h f => some (h, f, fun _ a b => a ||| b)
  | .vxor h f => some (h, f, fun _ a b => a ^^^ b)
  | .vsll h f => some (h, f, fun n a b => a * 2 ^ (b % n) % 2 ^ n)
  | .vsrl h f => some (h, f, fun n a b => a / 2 ^ (b % n))
  | .vsra h f => some (h, f, fun n a b => mods n (sv n a / 2 ^ (b % n)))
  | .vmin h f => some (h, f, fun n a b => if less f.et.toNat n a b then a else b)
  | .vmax h f => some (h, f, fun n a b => if less f.et.toNat n a b then b else a)
  | _ => none

/-- A fixed-point instruction: its fields, its exact result, and the fraction bits it discards. -/
def vqRule : Instr → Option (Hart × VF × (Int → Int → Int) × Nat)
  | .vqadd h f => some (h, f, fun a b => a + b, 0)
  | .vqsub h f => some (h, f, fun a b => a - b, 0)
  | .vqmul h f => some (h, f, fun a b => a * b, etWidth f.et.toNat - 1)
  | _ => none

/-- 32 steps of the LFSR of R77. -/
def lfsr (x : BitVec 32) : BitVec 32 := (List.range 32).foldl (fun x _ => if x.getLsbD 0 then x >>> 1 ^^^ 0x80200003#32 else x >>> 1) x

/-- n times. -/
def times {α : Type} (f : α → α) : Nat → α → α
  | 0, x => x
  | n + 1, x => times f n (f x)

/-- The state of VSLFSR at element i: it has advanced once for each active element below it (R129). -/
def drawAt (t : Thread) (km i : Nat) : BitVec 32 := times lfsr ((ons t km).countP (fun j => decide (j < i))) t.vslfsr

/-- A fixed-point element before its saturation: QRM with VSLFSR for QLFSR (R127). -/
def vqAt (t : Thread) (f : VF) (g : Int → Int → Int) (n i : Nat) : Int :=
  let wd := etWidth f.et.toNat
  qRound { t with qlfsr := drawAt t f.km i } (g (sv wd (elem t f.vs1 wd i)) (sv wd (src2 t f wd i))) n

/-! ### Floating point (R127, R144) -/

/-- The rounding direction of RM, with FRM for 0b100. -/
def dir (t : Thread) (rm : BitVec 3) : Rnd :=
  let m := if rm = 4 then t.frm else rm
  if m = 1 then .rtz else if m = 2 then .rdn else if m = 3 then .rup else .rne

/-- The floating-point types of the arithmetic instructions. -/
def floatOf (et : BitVec 5) : Fmt := if et = 8 then fp64 else if et = 9 then fp32 else if et = 10 then fp16 else bf16

/-- One rounding of an operation on two values. -/
def op2 (g : Rnd → FV → FV → FV × Ev) (F : Fmt) (r : Rnd) (a b _c : Nat) : Nat × Ev := F.fromVal r false (g r (F.decode a) (F.decode b))

/-- One rounding of a product, negated or not, plus c, negated or not (R144). -/
def fused (np nc : Bool) (F : Fmt) (r : Rnd) (a b c : Nat) : Nat × Ev :=
  let p := FV.mul (F.decode a) (F.decode b)
  let z := F.decode c
  let q := FV.add r (if np then p.1.neg else p.1) (if nc then z.neg else z)
  F.fromVal r false (q.1, p.2.or q.2)

/-- A floating-point instruction: its fields, whether it has one source, whether it rounds, and its element function of format,
direction, a, b and c. -/
def vfRule : Instr → Option (Hart × VF × Bool × Bool × (Fmt → Rnd → Nat → Nat → Nat → Nat × Ev))
  | .vfadd h f => some (h, f, false, true, op2 (fun r a b => FV.add r a b))
  | .vfsub h f => some (h, f, false, true, op2 (fun r a b => FV.add r a b.neg))
  | .vfmul h f => some (h, f, false, true, op2 (fun _ a b => FV.mul a b))
  | .vfdiv h f => some (h, f, false, true, op2 (fun _ a b => FV.div a b))
  | .vfsqrt h f => some (h, f, true, true, op2 (fun _ a _ => FV.sqrt a))
  | .vfmin h f => some (h, f, false, false, fun F _ a b c => op2 (fun _ x y => FV.min x y) F .rne a b c)
  | .vfmax h f => some (h, f, false, false, fun F _ a b c => op2 (fun _ x y => FV.max x y) F .rne a b c)
  | .vfabs h f => some (h, f, true, false, fun F _ a _ _ => (a % 2 ^ (F.w - 1), Ev.none))
  | .vfneg h f => some (h, f, true, false, fun F _ a _ _ => ((a + 2 ^ (F.w - 1)) % 2 ^ F.w, Ev.none))
  | .vfma h f => some (h, f, false, true, fused false false)
  | .vfms h f => some (h, f, false, true, fused false true)
  | .vfnma h f => some (h, f, false, true, fused true false)
  | _ => none

/-- RM is legal: 0b000 to 0b100 for an instruction that rounds, 0b000 for one that does not (R127). -/
def rmLegal (rounds : Bool) (rm : BitVec 3) : Prop := if rounds then rm.toNat ≤ 4 else rm = 0

/-! ### Compares and predicates (R146) -/

/-- A condition from the order of two comparable elements. -/
def cond (c : Nat) (lt eq : Bool) : Bool :=
  match c with
  | 0 => eq
  | 1 => !eq
  | 2 => lt
  | 3 => lt || eq
  | 4 => !lt && !eq
  | _ => !lt

/-- A predicate form of two sources or one. -/
def kRule : Instr → Option (Hart × VF × Bool × (Bool → Bool → Bool))
  | .kand h f => some (h, f, false, fun a b => a && b)
  | .kor h f => some (h, f, false, fun a b => a || b)
  | .kxor h f => some (h, f, false, fun a b => a ^^ b)
  | .kandn h f => some (h, f, false, fun a b => a && !b)
  | .knot h f => some (h, f, true, fun a _ => !a)
  | _ => none

/-- The fields of a predicate form besides its registers. -/
def kFields (f : VF) : Prop := f.vs3 = 0 ∧ f.km = 0 ∧ f.zm = false ∧ f.et = 0 ∧ f.rm = 0 ∧ f.sx = false ∧ f.imm = 0

/-! ### Reductions and selection (R135 to R139) -/

/-- The pairwise tree of R135 over 2^n terms, at term i. -/
def tree {α : Type} (op : α → α → α) : Nat → (Nat → α) → Nat → α
  | 0, t, i => t i
  | n + 1, t, i => tree op n (fun j => op (t (2 * j)) (t (2 * j + 1))) i

/-- The least n with m ≤ 2^n. -/
def levels (m : Nat) : Nat := ((List.range 12).find? (fun n => decide (m ≤ 2 ^ n))).getD 12

/-- The number of segments of length S. -/
def segs (t : Thread) (S : Nat) : Nat := if S = 0 then 0 else (t.vl.toNat + S - 1) / S

/-- Segment j reduced: the terms of its elements, the identity for those that are not active and beyond its end. -/
def segment (t : Thread) (f : VF) (S : Nat) (op : Nat → Nat → Nat × Ev) (ident : Nat) (term : Nat → Nat → Nat × Ev) (j : Nat) : Nat × Ev :=
  tree (fun a b => let c := op a.1 b.1; (c.1, (a.2.or b.2).or c.2)) (levels (min S (t.vl.toNat - j * S)))
    (fun i => if i < S ∧ on t f.km (j * S + i) then term j (j * S + i) else (ident, Ev.none)) 0

/-- An invalid event for a signalling NaN. -/
def snan (v : FV) : Ev := if v = .nan true then Ev.inv else Ev.none

/-- An addition rounded once. -/
def sumOp (F : Fmt) (r : Rnd) (a b : Nat) : Nat × Ev := F.fromVal r false (FV.add r (F.decode a) (F.decode b))

/-- The format of a sum (R135). -/
def sumIn (F : Fmt) : Fmt := if F.w = 16 then fp32 else F

/-- A reduction: fields, whether it rounds, width of its result, operation, identity, and the term of an element of segment j. -/
def redRule : Instr → Option (Hart × VF × Bool × Nat × (Thread → Nat → Nat → Nat × Ev) × Nat × (Thread → Nat → Nat → Nat × Ev))
  | .vrsum h f =>
    let F := floatOf f.et
    let G := sumIn F
    some (h, f, true, G.w, fun t => sumOp G (dir t f.rm), 2 ^ (G.w - 1), fun t _ i =>
      let a := F.decode (elem t f.vs1 F.w i)
      (G.ofVal a, snan a))
  | .vrmax h f =>
    let F := floatOf f.et
    some (h, f, false, F.w, fun _ a b => F.fromVal .rne false (FV.max (F.decode a) (F.decode b)), F.infBits true, fun t _ i =>
      let a := F.decode (elem t f.vs1 F.w i)
      (F.ofVal a, snan a))
  | .vrmin h f =>
    let F := floatOf f.et
    some (h, f, false, F.w, fun _ a b => F.fromVal .rne false (FV.min (F.decode a) (F.decode b)), F.infBits false, fun t _ i =>
      let a := F.decode (elem t f.vs1 F.w i)
      (F.ofVal a, snan a))
  | .vrsexp2 h f =>
    let F := floatOf f.et
    if f.et = 8 then none
    else some (h, f, true, 32, fun t => sumOp fp32 (dir t f.rm), 2 ^ 31, fun t j i =>
      let x := fp32.fromVal .rne false (FV.add .rne (F.decode (elem t f.vs1 F.w i)) (fp32.decode (elem t f.vs3 32 j)).neg)
      let y := exp2Elem 9 x.1
      (y.1, x.2.or y.2))
  | _ => none

/-- The value of a candidate of VTOPK by its type (R138). -/
def rankVal (et : BitVec 5) (x : Nat) : FV := if et = 2 then .fin (decide (sv 32 x < 0)) ⟨sv 32 x, 0⟩ else (floatOf et).decode x

/-- Candidate a ranks before candidate b: a NaN above all, then the larger value; equal ones by index (R138). -/
def ahead (et : BitVec 5) (a b : Nat × Nat) : Bool :=
  let x := rankVal et a.1
  let y := rankVal et b.1
  if x.isNan then (if y.isNan then decide (a.2 < b.2) else true)
  else if y.isNan then false
  else if y.ltNum x then true
  else if x.ltNum y then false
  else decide (a.2 < b.2)

/-- The rank of position p in a list of candidates; candidates that nothing tells apart rank in their order. -/
def rank (et : BitVec 5) (l : List (Nat × Nat)) (p : Nat) : Nat :=
  (List.range l.length).countP (fun q => ahead et (l.getD q (0, 0)) (l.getD p (0, 0)) ||
    (!ahead et (l.getD p (0, 0)) (l.getD q (0, 0)) && decide (q < p)))

/-- The candidates: of VTOPKM the k entries in vd and vs3, then the active elements of vs1 with their indices (R138, R139). -/
def cands (t : Thread) (f : VF) (merge : Bool) (k : Nat) : List (Nat × Nat) :=
  let wd := etWidth f.et.toNat
  (if merge then (List.range k).map (fun i => (elem t f.vd wd i, elem t f.vs3 32 i)) else []) ++
    (ons t f.km).map (fun i => (elem t f.vs1 wd i, ((t.gr (f.imm.toNat % 32)).toNat + i) % 2 ^ 32))

/-! ### Memory forms (R130 to R134, R143) -/

/-- The accesses of an instruction in the station's own scratchpad: each translates without a walk to an offset of it. -/
def Placed (d d2 : Dev) (h : Hart) (ak : AK) (cls : Cls) (accs : List Acc) (locs : List (Nat × TlbE)) (offs : List Nat) : Prop :=
  (∀ a ∈ accs, d.needsWalk h.stn a.va = false) ∧ Dev.checkAccs h (d.thr h).ring ak cls accs d [] = (d2, .ok locs) ∧
  locs.map (fun l => region l.1) = offs.map (fun o => .scratch h.stn o) ∧ (d.stn h.stn).spState = 0 ∧ (d.stn h.stn).spPoison = []

/-- The address of element i of an elementwise form (R130). -/
def elemAddr (t : Thread) (form : VmForm) (f : VmF) (i : Nat) : Word :=
  let n := etWidth f.et.toNat / 8
  let iw := if f.iw = 1 then 16 else if f.iw = 2 then 32 else 64
  match form with
  | .unit => t.gr f.rs1 + w f.imm.toInt + w (i * n : Nat)
  | .strided => t.gr f.rs1 + w f.imm.toInt + w (i : Int) * t.gr f.rs2
  | _ => t.gr f.rs1 + w (sv iw (elem t f.rs2 iw i)) * (if f.ix then w (n : Nat) else 1)

/-- The legal fields of a form (R121, R130). -/
def vmLegal (form : VmForm) (store : Bool) (f : VmF) : Prop :=
  f.vs3 = 0 ∧ (store = true → f.zm = false) ∧
  match form with
  | .unit => etWidth f.et.toNat ≠ 0 ∧ f.rs2 = 0 ∧ f.iw = 0 ∧ f.ix = false
  | .strided => etWidth f.et.toNat ≠ 0 ∧ f.iw = 0 ∧ f.ix = false
  | .indexed => etWidth f.et.toNat ≠ 0 ∧ f.iw ≠ 0 ∧ f.imm = 0
  | .wholeV => f.km = 0 ∧ f.zm = false ∧ f.et = 0 ∧ f.iw = 0 ∧ f.ix = false ∧ f.rs2 = 0
  | .wholeK => f.km = 0 ∧ f.zm = false ∧ f.et = 0 ∧ f.iw = 0 ∧ f.ix = false ∧ f.rs2 = 0 ∧ f.vd.val < 16 ∧ (store = true ∨ f.vd ≠ 0)

/-- The vector memory instructions. -/
def vmRule : Instr → Option (Hart × VmF × Bool × VmForm × Bool)
  | .vld h f hit => some (h, f, hit, .unit, false)
  | .vlds h f hit => some (h, f, hit, .strided, false)
  | .vldx h f hit => some (h, f, hit, .indexed, false)
  | .vlr h f hit => some (h, f, hit, .wholeV, false)
  | .klr h f hit => some (h, f, hit, .wholeK, false)
  | .vst h f hit => some (h, f, hit, .unit, true)
  | .vsts h f hit => some (h, f, hit, .strided, true)
  | .vstx h f hit => some (h, f, hit, .indexed, true)
  | .vsr h f hit => some (h, f, hit, .wholeV, true)
  | .ksr h f hit => some (h, f, hit, .wholeK, true)
  | _ => none

/-- The widest operand of an elementwise form (R116). -/
def vmWide (form : VmForm) (f : VmF) : Nat :=
  if form = .indexed then max (etWidth f.et.toNat) (if f.iw = 1 then 16 else if f.iw = 2 then 32 else 64) else etWidth f.et.toNat

/-- The bytes of a whole register that a form moves: 2,048 or 256 (R133). -/
def wholeSize (form : VmForm) : Nat := if form = .wholeV then 2048 else 256

/-- The accesses of n bytes at a 64-byte aligned address, cut at a 4 KiB boundary. -/
def whole (a n : Nat) : List Acc :=
  if a % 4096 + n ≤ 4096 then [⟨a, n, 0⟩]
  else [⟨a, 4096 - a % 4096, 0⟩, ⟨(a + (4096 - a % 4096)) % 2 ^ 64, n - (4096 - a % 4096), 0⟩]

/-- The instruction takes a memory fault at an element: VU_FAULT_ELEM names it (R132). -/
def VTraps (i : Instr) (s : State) (d1 : Dev) (h : Hart) (code : Nat) (xaddr : Word) (el : Nat) : Prop :=
  let T := targetOf (d1.stn h.stn) (d1.thr h) code
  ∃ t, exec i s = .next t ∧ t.pending = s.pending ∧
    if (d1.thr h).status.getLsbD (12 + T) then LockedUp d1 t.dev h
    else OnlyHart d1 t.dev h ∧ (t.dev.thr h).vfault = BitVec.ofNat 16 el ∧
      Entered (d1.thr h) { t.dev.thr h with vfault := (d1.thr h).vfault } T (w (code : Nat)) xaddr (d1.thr h).pc
        ((d1.stn h.stn).xvec.getD T 0 + w (64 * code : Nat))

end Sys2Proof.Cert
end

