-- ==== Sys2Proof/Certificates/Slice0/Terms/Engine.lean ====
section
/-! DEFINITION. Terms of the statements about the tile registers, the matrix engine, its drain path and its command blocks. -/

namespace Sys2Proof.Cert

open Sys2Proof.Machine

/-! ### Tiles -/

/-- The fields of a TC_CFG value: format, bytes of a row, rows (R150). -/
def cfFmt (v : Nat) : Nat := v / 2 ^ 24 % 32
def cfRow (v : Nat) : Nat := v / 2 ^ 16 % 128 * 16
def cfRows (v : Nat) : Nat := v % 2 ^ 11

/-- A legal configuration (R151): zero, or 1 to 1,024 rows of 16 to 1,024 bytes in 64 KiB, of a format, FP6 rows of whole elements. -/
def cfLegal (v : Nat) : Prop :=
  v = 0 ∨ (v / 2 ^ 29 = 0 ∧ v / 2 ^ 23 % 2 = 0 ∧ v / 2 ^ 11 % 32 = 0 ∧ 1 ≤ cfFmt v ∧ cfFmt v ≤ 15 ∧ 1 ≤ cfRows v ∧ cfRows v ≤ 1024 ∧
    16 ≤ cfRow v ∧ cfRow v ≤ 1024 ∧ cfRows v * cfRow v ≤ 65536 ∧ (cfFmt v = 7 ∨ cfFmt v = 8 → cfRow v % 48 = 0))

/-- The instruction takes a fault of the tile unit, which writes TC_FAULT (R165, R166). -/
def TileTraps (i : Instr) (s : State) (d1 : Dev) (h : Hart) (code : Nat) (fault : Word) : Prop :=
  let T := targetOf (d1.stn h.stn) (d1.thr h) code
  ∃ t, exec i s = .next t ∧ t.pending = s.pending ∧
    if (d1.thr h).status.getLsbD (12 + T) then LockedUp d1 t.dev h
    else OnlyHart d1 t.dev h ∧ (t.dev.thr h).tcFault = fault ∧
      Entered (d1.thr h) { t.dev.thr h with tcFault := (d1.thr h).tcFault } T (w (code : Nat)) 0 (d1.thr h).pc
        ((d1.stn h.stn).xvec.getD T 0 + w (64 * code : Nat))

/-- TC_FAULT: tile, its configuration, what was expected of rows, bytes / 16 and format, and the operation (R166). -/
def tcFaultIs (tile cfg rows bpr fmt opc : Nat) : Word :=
  nat (tile * 2 ^ 61 + cfFmt cfg * 2 ^ 56 + cfRow cfg / 16 * 2 ^ 48 + cfRows cfg * 2 ^ 32 + fmt * 2 ^ 24 + bpr * 2 ^ 16 + opc * 2 ^ 11 + rows)

/-- Byte b of tile n. -/
def tbyte (s : Station) (n b : Nat) : Byte := (s.tiles.getD n Mem.empty).get b

/-- From st to st2 only tile n's bytes and write generation change, the bytes as g says; the operations in flight are l. -/
def TileIs (st st2 : Station) (n : Nat) (l : List TileOp) (g : Nat → Byte) : Prop :=
  st2 = { st with tiles := st2.tiles, tgen := st2.tgen, tops := l } ∧ (∀ m b, m ≠ n → tbyte st2 m b = tbyte st m b) ∧
  ∀ b, tbyte st2 n b = g b

/-- The accesses of n bytes at an address, cut at a 4 KiB boundary, for row r. -/
def rowAt (a n r : Nat) : List Acc :=
  if a % 4096 + n ≤ 4096 then [⟨a, n, r⟩]
  else [⟨a, 4096 - a % 4096, r⟩, ⟨(a + (4096 - a % 4096)) % 2 ^ 64, n - (4096 - a % 4096), r⟩]

/-- The accesses of the rows of a TFILL or TDUMP (R155). -/
def rowsAt (t : Thread) (f : TF) (cfg : Nat) : List Acc :=
  (List.range (cfRows cfg)).flatMap (fun (r : Nat) => rowAt (t.gr f.rs1 + w f.imm.toInt + w (r : Int) * t.gr f.rs2).toNat (cfRow cfg) r)

/-- The bytes moved before access j. -/
def before (l : List Acc) (j : Nat) : Nat := ((l.take j).map (·.size)).sum

/-- No thread waits for an operation of the tile unit or the engine to retire. -/
def NoWaiter (st : Station) : Prop := ∀ k : Fin 4, match (st.thr k).wait with
  | .score => False
  | .shape _ => False
  | .sync _ => False
  | _ => True

/-- A station runs. -/
def Live (st : Station) : Prop := st.locked = false ∧ st.held = false

/-! ### The engine -/

/-- A new entry at the end of the queue, which ends a gap and, but for an operation, starts a rise below the ceiling (R186, R195). -/
def queued (e : Engine) (ceil : Nat) (k : QKind) (go : Bool) : Engine :=
  { e with gap := 0, rising := e.rising || (!go && decide (e.level < ceil)), queue := e.queue ++ [⟨e.nextId, k, none, false, none⟩],
           nextId := e.nextId + 1 }

/-- The move a control word names (R176). -/
def moveOf (tn c : Nat) : AEnt := ⟨tn, c % 32, c / 2 ^ 10 % 4, c / 2 ^ 12 % 8⟩

/-- Who issued an instruction outside precise mode. -/
def raiserOf (d1 : Dev) (h : Hart) : Raiser := ⟨h.thr, (d1.thr h).pc, (d1.thr h).ring, (d1.thr h).axen, false⟩

/-- The entry q of a queue replaced by one with another kind. -/
def withKind (l : List QEntry) (q : QEntry) (k : QKind) : List QEntry := l.map (fun x => if x.id = q.id then { q with kind := k } else x)

/-- The queue without an entry. -/
def without (l : List QEntry) (q : QEntry) : List QEntry := l.filter (fun x => x.id != q.id)

/-- A block's work is not in the way of an entry (R189). -/
def passes (pre : List QEntry) (q : QEntry) : Prop := q.inBlk = true ∨ ∀ x ∈ pre, x.isRun = false

/-- The ballast level 32 cycles on (R195). -/
def levelAfter (e : Engine) (ceil : Nat) : Nat :=
  let rows := e.queue.any (fun q => match q.kind with
    | .mego o => o.started
    | _ => false)
  let waits := e.queue.any (fun q => match q.kind with
    | .mego o => !o.started
    | _ => false)
  if e.falling ∨ ceil < e.level then e.level - 1
  else if rows then e.level
  else if waits ∨ e.rising then min ceil (e.level + 1)
  else if 32 < e.gap then e.level - 1
  else e.level

/-! ### Command blocks (R264, R265, R268 to R274) -/

/-- The fields of a command. -/
def cOp (c : Nat) : Nat := c % 256
def cTn (c : Nat) : Nat := c / 2 ^ 24 % 8
def cArg (c : Nat) : Nat := c / 2 ^ 32 % 2 ^ 32
def cDesc (c : Nat) : Word := nat (c / 2 ^ 64 % 2 ^ 64)

/-- The running block b of station n has c as its next command, of an opcode, without SETP and with a predicate that lets it issue. -/
def Next (d : Dev) (n : Fin 128) (op : Nat) (b : Blk) (c : Nat) : Prop :=
  let e := (d.stn n).eng
  Live (d.stn n) ∧ e.blk = some b ∧ b.stop = none ∧ b.exit = false ∧ b.next < b.cmds.length ∧ c = b.cmds.getD b.next 0 ∧ cOp c = op ∧
  c / 2 ^ 16 % 256 = 0 ∧
  (c / 2 ^ 15 % 2 = 1 →
    e.cbPred.getLsbD (c / 2 ^ 8 % 8) = decide (c / 2 ^ 14 % 2 = 1) ∧
    ∀ q ∈ e.queue, q.inBlk = true → ∀ x p, q.setp = some (x, p) → p ≠ c / 2 ^ 8 % 8)

/-- The block after a command that ends no loop. -/
def stepped (b : Blk) : Blk := { b with next := b.next + 1 }

/-- No active loop's body ends at the next command (R270). -/
def NoLoopEnd (b : Blk) : Prop := ∀ l r, b.loops = l :: r → l.cmd + l.body ≠ b.next

/-- The command answers a next state in which only station n changes, to st with its block going on. -/
def Steps (i : Instr) (s : State) (n : Fin 128) (b : Blk) (st : Station) : Prop :=
  StnIs i s s.dev n { st with eng := { st.eng with blk := some (stepped b) } }

end Sys2Proof.Cert
end

