-- ==== Sys2Proof/Certificates/Slice0/Terms/Device.lean ====
section
/-! DEFINITION. Terms of the statements about the units outside the stations: the timetable, halts, coupling, links, junction,
shunters, memory units, ledger, host ports, binding, boot, dictionary, recorder, power and test access. -/

namespace Sys2Proof.Cert

open Sys2Proof.Machine

/-! ### Answers -/

/-- The command answers a next state whose queue is as before and whose device is as P says. -/
def Ends (i : Instr) (s : State) (P : Dev → Prop) : Prop := ∃ x, exec i s = .next x ∧ x.pending = s.pending ∧ P x.dev

/-- The command answers a next state whose queue is as before and whose device is d. -/
def Makes (i : Instr) (s : State) (d : Dev) : Prop := exec i s = .next { s with dev := d }

/-- A store of hart h reaches the register at an offset of a unit: its station runs and its ring may store there (R343). -/
def Reaches (d : Dev) (h : Hart) (u : Unit_) (off : Nat) : Prop :=
  d.usable h.stn = true ∧ Live (d.stn h.stn) ∧ d.exists_ (.reg u off) = true ∧ ringMayReg (d.thr h).ring true u off = true

/-- Bits hi down to lo of a word. -/
def fl (v : Word) (hi lo : Nat) : Nat := v.toNat / 2 ^ lo % 2 ^ (hi + 1 - lo)

/-- A bit set in a register. -/
def mark {n : Nat} (x : BitVec n) (i : Nat) : BitVec n := x ||| BitVec.ofNat n (2 ^ i)

/-! ### The timetable (R32 to R39, R48, R547) -/

/-- START_TICK, DEADLINE_TICK and KIND of a phase. -/
def startTick (t : Tt) (k : Nat) : Nat := fl (t.phases.getD (2 * k) 0) 31 0
def deadTick (t : Tt) (k : Nat) : Nat := fl (t.phases.getD (2 * k) 0) 63 32
def kind (t : Tt) (k : Nat) : Nat := fl (t.phases.getD (2 * k + 1) 0) 3 0

/-- A phase entry that passes the table check. -/
def entryOk (t : Tt) (k : Nat) : Prop :=
  startTick t k < deadTick t k ∧ kind t k ≤ 5 ∧ fl (t.phases.getD (2 * k + 1) 0) 7 4 = 0 ∧ fl (t.phases.getD (2 * k + 1) 0) 15 9 = 0 ∧
  fl (t.phases.getD (2 * k + 1) 0) 63 48 = 0 ∧ (k + 1 < t.nphase → deadTick t k ≤ startTick t (k + 1))

/-- A table that passes the check of ENABLE. -/
def tableOk (t : Tt) : Prop :=
  1 ≤ t.nphase ∧ t.nphase ≤ 64 ∧ (∀ k, k < t.nphase → entryOk t k) ∧ deadTick t (t.nphase - 1) ≤ t.len

/-- No step of the last boundary is still to be done. -/
def Settled (d : Dev) : Prop :=
  d.dfatal = true ∨ (d.tt.startDue = none ∧ d.tt.resumeDue = false ∧
    ¬ (d.tt.inPhase = true ∧ kind d.tt d.tt.phase.toNat ≠ 5 ∧ d.tt.state = 2 ∧ d.tt.sched.base + deadTick d.tt d.tt.phase.toNat ≤ d.tt.tick))

/-- The cap level after a regular boundary (R547): input power in W, temperature in 1/16 degrees. -/
def capAfter (w : Pwr) (l p : Nat) (tj : Int) : Nat :=
  if (w.throttle : Int) * 16 ≤ tj then max 1 (l - 2)
  else if w.capEn = true ∧ w.cap < p then max 1 (l - 1)
  else if w.capEn = false ∨ p < w.cap - w.hyst then min 8 (l + 1)
  else l

/-- PM_STAT and PM_ENERGY after it. -/
def powerAfter (w : Pwr) (l : Nat) (p tj : BitVec 16) (mj : Nat) : Pwr :=
  { w with pin := p.toNat, tj := tj.toNat, throt := decide ((w.throttle : Int) * 16 ≤ tj.toInt),
           capped := decide (¬ (w.throttle : Int) * 16 ≤ tj.toInt ∧ w.capEn = true ∧ w.cap < p.toNat),
           floor := w.floor || decide (capAfter w l p.toNat tj.toInt = 1 ∧ w.cap < p.toNat), energy := (w.energy + mj) % 2 ^ 64 }

/-- The phase of a device is quiet (R35): declared done, its waybills final, channels and reductions idle, and no stream, engine
operation or unacknowledged store at a present station. -/
def Quiet (d : Dev) : Prop :=
  d.tt.done = true ∧ d.waybillsDone = true ∧ (∀ p ∈ d.sh.chans.entries, p.2.mode = 0) ∧ (∀ p ∈ d.jn.groups.entries, p.2.inst = none) ∧
  ∀ p ∈ d.stns.entries, d.present p.1 = true →
    (∀ k, k < 64 → (p.2.stream k).active = false) ∧ p.2.engIdle = true ∧ ∀ k, k < 4 → (p.2.thr k).acks = 0

/-- A log's entries in the order of their application (R302): by station and thread, those of one thread as they were issued. -/
def LogOrder (l l' : List LogE) : Prop :=
  l'.Pairwise (fun a b => a.stn < b.stn ∨ (a.stn = b.stn ∧ a.thr ≤ b.thr)) ∧
  ∀ a b, l'.filter (fun e => decide (e.stn = a ∧ e.thr = b)) = l.filter (fun e => decide (e.stn = a ∧ e.thr = b))

/-- The instant of a halt tick placed now (R41), in units of 1/17 ns: TT_HALT_LEAD later, rounded up to a microsecond. -/
def haltInstant (d : Dev) : Nat := (d.now + d.tt.lead * 17000 + 16999) / 17000 * 17000

/-- The halt tick placed with no boundary announced: one above the last boundary, and a microsecond later where the two would
coincide. -/
def haltPlaced (d : Dev) (why : Nat) : Option (Nat × Nat × Nat) :=
  some (d.tt.tick + 1, if d.tt.lastB = haltInstant d then haltInstant d + 17000 else haltInstant d, why)

/-- A thread stopped at a halt tick (R42, R44): what a halt keeps. -/
def Stopped (t u : Thread) : Prop :=
  (t.enabled = true → u.wait = .halted) ∧ u.enabled = t.enabled ∧ u.pc = t.pc ∧ u.status = t.status ∧ u.xpc = t.xpc ∧ u.xst = t.xst ∧
  u.xcause = t.xcause ∧ u.xaddr = t.xaddr ∧ u.xsp = t.xsp ∧ u.gateSp = t.gateSp ∧ u.imask = t.imask ∧ u.instret = t.instret

/-! ### Messages on links (R394, R398, R413 to R415) -/

/-- The n bytes of a number, the least significant first. -/
def bytes (n x : Nat) : List Byte := (List.range n).map (byteOf x)

/-- A link that can send a flit now: UP, not in recovery, with nothing waiting, room in its replay buffer, and credits. -/
def ReadyLink (k : Link) : Prop :=
  k.state = 4 ∧ k.recovering = false ∧ k.outq = [] ∧ k.unacked.length < 1024 ∧ ∀ tc, tc < 8 → 0 < k.credits.getD tc 64

/-- A link after a link reset that leaves its control bits (R404, R558). -/
def fresh (k : Link) : Link :=
  { Link.reset with en := k.en, arm := k.arm, signal := k.signal, overflow := k.overflow, lat := k.lat }

/-- A link that is enabled, DOWN and detects signal starts training at an instant (R401). -/
def trains (now : Nat) (k : Link) : Link :=
  if k.en = true ∧ k.signal = true ∧ k.state = 0 then { k with state := 1, trained := 0, unusable := 0, since := now } else k

/-- EQUALISE is over once every lane has trained or been given up (R401). -/
def equals (now : Nat) (k : Link) : Link :=
  if k.trained ||| k.unusable = 0xFF#8 then { k with state := 2, since := now } else k

/-- What a received LACK acknowledges leaves the replay buffer (R398). -/
def acks (now lack : Nat) (k : Link) : Link :=
  let n := (lack + 65537 - (k.unacked.map (·.lseq)).headD 0) % 65536
  if 1 ≤ n ∧ n ≤ k.unacked.length then { k with unacked := k.unacked.drop n, ackAt := now } else k

/-- The replay buffer after every flit of it is resent, its oldest having failed on a lane (R399, R400). -/
def resent (lane : Nat) (xs : List TxFlit) : List TxFlit :=
  (xs.map (fun x => { x with replays := x.replays + 1 })).modify 0 (fun x => { x with lanes := x.lanes ++ [lane] })

/-- The flits of a replay buffer, as they leave again. -/
def again (l lack : Nat) (xs : List TxFlit) : List Out := xs.map (fun x => .flit l x.lseq lack x.flit)

/-- The last LSEQ that a link accepted. -/
def lastSeq (k : Link) : Nat := (k.rxNext + 65535) % 65536

/-- The failures of a lane within the last second of an instant (R405). -/
def within1s (now : Nat) (lane : Nat) (xs : List (Nat × Nat)) : Nat := (xs.filter (fun x => x.1 == lane && decide (now < x.2 + 17000000000))).length

/-- How many of the eight lanes a mask names. -/
def lanesOf (m : BitVec 8) : Nat := ((List.range 8).filter (fun i => m.getLsbD i)).length

/-- No running reduction uses a link. -/
def NoTree (d : Dev) (l : Nat) : Prop := ∀ g, g < 16 → (d.jn.grp g).inst ≠ none → (d.jn.grp g).uses l = false

/-- The class a flit has at an output (R412, R413). -/
def classOf (d : Dev) (f : Flit) : Nat :=
  if f.tc = 0 then 0 else if d.listed.isSome ∧ f.consist.toNat = d.consist then f.tc.toNat else 7

/-- What a flit sent now on a ready link leaves: its sequence number, its place in the replay buffer, a credit used, and the message
out with the last sequence number received. -/
def sent (d : Dev) (l : Nat) (f : Flit) : Dev :=
  let k := d.link l
  { d with
    links := d.links.set l { k with
      unacked := k.unacked ++ [⟨k.txSeq, f, 0, []⟩], txSeq := (k.txSeq + 1) % 65536, waits := k.waits.set (classOf d f) 0,
      credits := k.credits.set f.tc.toNat (k.credits.getD f.tc.toNat 64 - 1), ackAt := if k.unacked = [] then d.now else k.ackAt },
    out := d.out ++ [.flit l k.txSeq ((k.rxNext + 65535) % 65536) f] }

/-- A flit that this device originates. -/
def flitTo (d : Dev) (kind tc dst : Nat) (sys : Bool) (data : List Byte) : Flit :=
  { kind := BitVec.ofNat 4 kind, sys := sys, rsv := false, tc := BitVec.ofNat 3 tc, ver := 1,
    consist := BitVec.ofNat 12 d.consist, src := BitVec.ofNat 16 d.jn.devid, dst := BitVec.ofNat 16 dst, data := data }

/-! ### The junction (R394, R397, R410) -/

/-- The output that a destination's route entry names, which can send now. -/
def Route (d : Dev) (dst p : Nat) : Prop := d.jn.routes.getD dst 0x1F = p ∧ p < 24 ∧ dst ≠ d.jn.devid ∧ ReadyLink (d.link p)

/-- A destination without a route. -/
def NoRoute (d : Dev) (dst : Nat) : Prop := 24 ≤ d.jn.routes.getD dst 0x1F ∨ (d.link (d.jn.routes.getD dst 0x1F)).state ≠ 4

/-- A flit that the checks of R397 refuse: its kind, class, reserved bits or version. -/
def malformed (vmaj : Nat) (f : Flit) : Prop :=
  f.kind.toNat < 2 ∨ 7 < f.kind.toNat ∨ 5 < f.tc.toNat ∨ f.rsv = true ∨ f.ver.toNat ≠ vmaj ∨ match f.kind.toNat with
    | 2 => if flitU f 12 1 = 2 then 8 ≤ flitU f 13 1 ∨ flitU f 44 208 ≠ 0 else 16 ≤ flitU f 13 1 ∨ flitU f 15 1 ≠ 0 ∨ flitU f 46 206 ≠ 0
    | 3 => flitU f 22 6 ≠ 0
    | 7 => 4 ≤ flitU f 13 1 ∨ flitU f 14 2 ≠ 0
    | _ => flitU f 18 2 ≠ 0 ∨ flitU f 24 4 ≠ 0

/-- A request that a response answers: a read, or a write that is not posted (R396). -/
def asks (f : Flit) : Prop := f.kind = 4 ∨ (f.kind = 5 ∧ f.tc = 3)

/-- The response to a request, with a status and data (R396). -/
def answer (d : Dev) (f : Flit) (status : Nat) (data : List Byte) : Flit :=
  flitTo d 6 4 f.src.toNat false (bytes 8 (flitU f 12 8) ++ bytes 2 (flitU f 20 2) ++ bytes 1 (flitU f 22 1) ++ bytes 1 status ++ bytes 4 0 ++ data)

/-- The data of a BOUNDARY TICK (R428). -/
def tickBytes (d : Dev) (m : TickMsg) : List Byte :=
  bytes 1 1 ++ bytes 1 ((if m.halt then 1 else 0) + (if m.base then 2 else 0) + (if m.start then 4 else 0) + (if m.end_ then 8 else 0)) ++
  bytes 1 m.phase ++ bytes 1 0 ++ bytes 8 m.num ++ bytes 8 m.cyc ++ bytes 4 ((m.at_ - d.now) / 17) ++ bytes 4 m.period ++
  bytes 4 d.tt.epoch ++ bytes 2 d.jn.devid ++ List.replicate 206 0

/-- A flit at the head of those delivered to this device, with its link and instant; the rest. -/
def Delivered (d : Dev) (l rx : Nat) (f : Flit) (rest : List (Nat × Nat × Flit)) : Prop := d.jn.inbox = (l, rx, f) :: rest

/-- The device without the first delivered flit. -/
def taken (d : Dev) (rest : List (Nat × Nat × Flit)) : Dev := { d with jn := { d.jn with inbox := rest } }

/-! ### Bytes by physical address, for the accesses of the units (R307, R315, R358, R390) -/

/-- A byte of GDDR7 or of a scratchpad. -/
def byteIn (d : Dev) (pa : Nat) : Byte :=
  match region pa with
  | .gddr => d.mem.gddr.get pa
  | .scratch k off => (d.stn k).sp.get off
  | _ => 0

/-- A byte that a unit can read and write: in GDDR7 with a key, no poison and a working channel, or in the scratchpad, ON and without
poison there, of a station that software may use. -/
def Plain (d : Dev) (pa : Nat) : Prop :=
  (region pa = .gddr ∧ d.mem.key0.isSome = true ∧ channelOf pa ∉ d.mem.retired ∧ pa / 128 ∉ d.mem.poison) ∨
  ∃ k off, region pa = .scratch k off ∧ d.usable k = true ∧ (d.stn k).spState = 0 ∧ off / 8 ∉ (d.stn k).spPoison

/-- From d to d1 only GDDR7 and scratchpads change: the n bytes B 0, B 1, … are written, in that order, at D 0, D 1, …. -/
def Wrote (d d1 : Dev) (n : Nat) (D : Nat → Nat) (B : Nat → Byte) : Prop :=
  d1 = { d with mem := { d.mem with gddr := d1.mem.gddr, poison := d1.mem.poison }, stns := d1.stns } ∧
  (∀ k, d1.stn k = { d.stn k with sp := (d1.stn k).sp, spPoison := (d1.stn k).spPoison }) ∧
  ∀ pa, byteIn d1 pa = match ((List.range n).filter (fun b => D b == pa)).getLast? with
    | some b => B b
    | none => byteIn d pa

/-- The number that n bytes at places D 0, D 1, … hold, the first lowest. -/
def numIn (d : Dev) (D : Nat → Nat) (n : Nat) : Nat := ((List.range n).map (fun b => (byteIn d (D b)).toNat * 256 ^ b)).sum

/-- The byte that a context reaches at an address (R375). One reached through page tables lies in a scratchpad, so that writing it
changes no page table. -/
def Lands (d : Dev) (ctx : BitVec 17) (ak : AK) (va : Word) (pa : Nat) : Prop :=
  (∃ e, d.dmaPlace ctx ak va.toNat = .ok pa e) ∧ Plain d pa ∧
  (ctx.getLsbD 0 = true ∨ (d.stn (fl (ctx.setWidth 64) 16 8)).mmEn = false ∨ ∃ k off, region pa = .scratch k off)

/-! ### Transfers (R378 to R388) -/

/-- The codes of a descriptor that check 1 allows (R383). -/
def codesOk (x : Desc) : Prop :=
  x.ctl / 2 ^ 14 % 4 = 1 ∧ x.ctl / 2 ^ 11 % 8 = 0 ∧ x.clean = true ∧ x.ctl % 4 ≠ 3 ∧ x.ctl / 4 % 8 ≤ 5 ∧ x.ctl / 64 % 4 ≠ 3 ∧
  (x.ctl / 64 % 4 = 0 → x.devid = 0) ∧ (x.ctl % 4 ≠ 2 → x.ctl / 256 % 8 = 0) ∧ (x.ctl % 4 = 0 → x.param = 0) ∧
  (x.ctl % 4 = 1 → x.param / 2 ^ 192 % 2 ^ 48 = 0)

/-- The swap unit in bytes, and the source stream byte of destination stream byte b (R384). -/
def unit (m : Nat) : Nat := [1, 2, 4, 8, 4, 8].getD m 1
def swapped (m b : Nat) : Nat :=
  if m = 1 then b / 2 * 2 + (1 - b % 2) else if m = 2 then b / 4 * 4 + (3 - b % 4) else if m = 3 then b / 8 * 8 + (7 - b % 8)
  else if m = 4 then b / 4 * 4 + (b + 2) % 4 else if m = 5 then b / 8 * 8 + (6 - b % 8 / 2 * 2 + b % 2) else b

/-- Fields of PARAM, as 32-bit and 16-bit numbers (R382). -/
def p32 (x : Desc) (lo : Nat) : Nat := x.param / 2 ^ lo % 2 ^ 32
def p16 (x : Desc) (lo : Nat) : Nat := x.param / 2 ^ lo % 2 ^ 16

/-- Checks 3 to 7 of a transfer (R383, R385). -/
def shapeOk (d : Dev) (ctx : BitVec 17) (x : Desc) : Prop :=
  let u := unit (x.ctl / 4 % 8)
  let stn := ctx.toNat / 2 ^ 8
  (x.ctl / 64 % 4 = 0 ∨ (ctx.toNat / 2 % 4 ≤ 2 ∧ x.devid ≠ d.jn.devid)) ∧ x.ctl / 64 % 4 ≠ 3 ∧ x.ctl / 4 % 8 ≤ 5 ∧ stn < 128 ∧
  d.usable stn = true ∧ (x.ctl % 4 = 1 → x.count ≤ p32 x 0 * p32 x 64 ∧ x.count ≤ p32 x 96 * p32 x 160 ∧ p32 x 0 % u = 0 ∧ p32 x 96 % u = 0) ∧
  (x.ctl % 4 = 2 → x.count ≤ 2 ^ (x.ctl / 256 % 8) * p16 x 0 * p16 x 16 * p16 x 32 ∧ u ≤ 2 ^ (x.ctl / 256 % 8)) ∧ x.count % u = 0 ∧
  x.next % 64 = 0

/-- What the checks of a transfer find as it begins: FORMAT, DONE with nothing to do, or no end. -/
def begun (d : Dev) (ctx : BitVec 17) (x : Desc) (chain : Bool) (f : Option Fin_) : Prop :=
  (chain = true ∧ ¬ codesOk x ∧ f = some ⟨2, 0, 0, 0⟩) ∨
  ((chain = true → codesOk x) ∧ ((x.count = 0 ∧ f = some ⟨0, 0, 0, 0⟩) ∨
    (x.count ≠ 0 ∧ ((¬ shapeOk d ctx x ∧ f = some ⟨2, 0, 0, 0⟩) ∨ (shapeOk d ctx x ∧ f = none)))))

/-- The address of stream byte b on a side (R382): its base, line length and stride, and tensor steps from PARAM. -/
def streamAt (x : Desc) (base llen stride s0 s1 s2 b : Nat) : Word :=
  let i (v : Nat) : Int := (v : Int).bmod (2 ^ 32)
  let e := 2 ^ (x.ctl / 256 % 8)
  let q := b / e
  let off : Int := if x.ctl % 4 = 1 then (b / llen : Nat) * i stride + (b % llen : Nat)
    else if x.ctl % 4 = 2 then (q % p16 x 0 : Nat) * i s0 + (q / p16 x 0 % p16 x 16 : Nat) * i s1 + (q / (p16 x 0 * p16 x 16) : Nat) * i s2 + (b % e : Nat)
    else b
  w ((base : Int).bmod (2 ^ 48) + off)

/-- The source and destination addresses of stream byte b. -/
def srcOf (x : Desc) (b : Nat) : Word := streamAt x x.src (p32 x 0) (p32 x 32) (p32 x 48) (p32 x 80) (p32 x 112) b
def dstOf (x : Desc) (b : Nat) : Word := streamAt x x.dst (p32 x 96) (p32 x 128) (p32 x 144) (p32 x 176) (p32 x 208) b

/-- A channel that has ended (R387). -/
def ended (y : Chan) (f : Fin_) : Chan :=
  { y with mode := 0, stop := none, fin := none, req := none, acked := 0, status := f.status, fcode := f.fcode, done := f.done,
           faddr := if f.status = 3 ∨ f.status = 16 ∨ f.status = 17 then f.addr else y.faddr }

/-- Channel c of engine e ends from y, in d: its registers, SH_DONE, and its interrupt (R377). -/
def Ended (d x : Dev) (e c : Nat) (y : Chan) (f : Fin_) : Prop :=
  x = { d with stns := x.stns, sh := { d.sh with
    chans := d.sh.chans.set (e * 16 + c) (ended y f), ended := d.sh.ended.set e (mark (d.sh.ended.getD e 0) c) } } ∧
  (y.irqAll = false → x.stns = d.stns) ∧
  (y.irqAll = true → let n := y.ctx.toNat / 2 ^ 8
    (∀ m, m ≠ n → x.stn m = d.stn m) ∧ (n < 128 → d.usable n = true → Live (d.stn n) →
      ((x.stn n).thr (Fin.ofNat 4 (y.ctx.toNat / 16 % 4))).ipend = ((d.stn n).thr (Fin.ofNat 4 (y.ctx.toNat / 16 % 4))).ipend ||| 4))

/-! ### Gather streams (R333 to R338) -/

/-- IW and the element size of a stream, in bytes. -/
def idxBytes (g : GStream) : Nat := 2 ^ (g.cfg.toNat % 4)
def elBytes (g : GStream) : Nat := 2 ^ (g.cfg.toNat / 4 % 8)

/-- An entry that the checks of a start or a resume refuse (R335). -/
def badEntry (g : GStream) : Prop :=
  g.cfg.toNat / 256 ≠ 0 ∨ g.cfg.toNat % 4 = 0 ∨ 6 < g.cfg.toNat / 4 % 8 ∨ g.spoff.toNat / 2 ^ 23 ≠ 0 ∨
  g.idxaddr.toNat % idxBytes g ≠ 0 ∨ g.spoff.toNat % elBytes g ≠ 0 ∨ 2 ^ 23 < g.spoff.toNat + g.count.toNat * elBytes g

/-- A bit cleared in a register. -/
def unmark {n : Nat} (x : BitVec n) (i : Nat) : BitVec n := x &&& ~~~(BitVec.ofNat n (2 ^ i))

/-- A station whose stream k leaves to a final state: DONE, FAULT with a code and an address, or STOPPED. -/
def streamTo (st : Station) (k : Nat) (g : GStream) (state fcode : Nat) (faddr : Word) : Station :=
  { st with
    ge := st.ge.set k { g with state := state, fcode := fcode, ends := none },
    geDone := if state = 2 then mark st.geDone k else st.geDone,
    geFault := if state = 3 then mark st.geFault k else st.geFault,
    geFaddr := if state = 3 then st.geFaddr.set k faddr else st.geFaddr }

/-- A stream with an element to issue. -/
def issues (g : GStream) : Prop := g.state = 1 ∧ g.ends = none ∧ g.pos < g.count.toNat

/-- Stream k of a station is the next in round-robin order (R336). -/
def Turn (st : Station) (k : Nat) : Prop :=
  issues (st.stream k) ∧ ∃ j, j < 64 ∧ k = (st.geLast + 1 + j) % 64 ∧ ∀ i, i < j → ¬ issues (st.stream ((st.geLast + 1 + i) % 64))

/-! ### Reductions (R418 to R424) -/

/-- Bytes of an element in memory, and elements of a chunk (R423). -/
def elSize (fmt : Nat) : Nat := if fmt = 3 ∨ fmt = 8 then 8 else if fmt = 11 then 2 else 4
def perChunk (i : RedInst) : Nat :=
  match i.wire with
  | 0 => if i.fmt = 3 ∨ i.fmt = 8 then 28 else 56
  | 1 => 112
  | 4 => 192
  | _ => 208

/-- The elements of chunk c below COUNT. -/
def inChunk (i : RedInst) (c : Nat) : Nat := min (perChunk i) (i.count - c * perChunk i)

/-- The address of byte b of chunk c, from SRC or DST. -/
def chunkAt (i : RedInst) (base c b : Nat) : Word := w ((base : Int).bmod (2 ^ 48) + (c * perChunk i * elSize i.fmt + b : Nat))

/-- A group of the junction replaced. -/
def withGrp (d : Dev) (g : Nat) (x : RedGrp) : Dev := { d with jn := { d.jn with groups := d.jn.groups.set g x } }

/-- A RED flit of an instance (R423), to the partner of a link. -/
def redTo (d : Dev) (l g : Nat) (i : RedInst) (dir chunk status : Nat) (payload : List Byte) : Flit :=
  flitTo d 7 2 (d.link l).peer false (bytes 1 g ++ bytes 1 dir ++ bytes 2 0 ++ bytes 4 i.seq ++ bytes 4 chunk ++ bytes 1 i.op ++
    bytes 1 i.fmt ++ bytes 1 i.wire ++ bytes 1 status ++ payload)

/-- Two operands of integers, or of FP32 under SUM, combined (R420, R421). -/
def combined (op fmt a b : Nat) : Nat :=
  let m := 2 ^ (8 * elSize fmt)
  let i (x : Nat) : Int := (x : Int).bmod m
  if fmt = 9 then fp32Add a b else if op = 0 then (a + b) % m else if op = 1 then (if i a < i b then b else a) else if i b < i a then b else a

/-- Every scratchpad is ON. -/
def AllOn (d : Dev) : Prop := ∀ k, (d.stn k).spState = 0

/-! ### The ledger (R449 to R466) -/

/-- The ledger logic of a device replaced; a queue of it replaced. -/
def withLd (d : Dev) (l : Ledger) : Dev := { d with host := { d.host with ld := l } }
def withSq (d : Dev) (q : Nat) (z : Sq) : Dev := withLd d { d.host.ld with sqs := d.host.ld.sqs.set q z }

/-- The addresses of a sequence number's entry and body record (R457). -/
def entryAt (z : Sq) (seq : Nat) : Nat := z.winBase + 64 * (seq % 2 ^ z.log2n)
def bodyAt (z : Sq) (seq : Nat) : Nat := z.winBase + 64 * 2 ^ z.log2n + 256 * (seq % 2 ^ z.log2n)

/-- The 64 bytes of an entry, with its CRC (R458). -/
def entryBytes (seq state attempt status ctl consist tag acc end_ devid ncmd nabsent : Nat) : List Byte :=
  let b := bytes 8 seq ++ bytes 1 state ++ bytes 1 attempt ++ bytes 1 status ++ bytes 1 ctl ++ bytes 1 1 ++ bytes 1 0 ++ bytes 2 consist ++
    bytes 8 tag ++ bytes 8 acc ++ bytes 8 end_ ++ bytes 2 devid ++ bytes 2 ncmd ++ bytes 4 nabsent ++ bytes 12 0
  b ++ bytes 4 (crc32c b)

/-- A field of a number. -/
def part (x hi lo : Nat) : Nat := x / 2 ^ lo % 2 ^ (hi + 1 - lo)

/-- An entry rewritten with a new state, attempt, status, output selection, end tick and count of absent commands. -/
def rewritten (x state attempt status outsel end_ nabsent : Nat) : List Byte :=
  entryBytes (part x 63 0) state attempt status (part x 91 88 + 16 * outsel) (part x 123 112) (part x 191 128) (part x 255 192) end_
    (part x 335 320) (part x 351 336) nabsent

/-- The reply record of a queue: its bytes (R456). -/
def replyOf (z : Sq) (q seq kind state status outsel tag : Nat) : List Byte :=
  bytes 8 seq ++ bytes 1 kind ++ bytes 1 state ++ bytes 1 status ++ bytes 1 q ++ bytes 1 outsel ++ bytes 3 0 ++ bytes 8 tag ++
    bytes 4 z.rseq ++ bytes 4 0

/-- A reply written to a queue's ring, which lies in a host window that is on. -/
def replied (d : Dev) (q seq kind state status outsel tag : Nat) : Dev :=
  let z := d.host.ld.sqs.getD q Sq.reset
  let pos := z.rplBase + 32 * (z.rpos % 2 ^ z.log2r) - 0x40000000000
  let win := pos / 2 ^ 32
  let p := d.host.port (win / 64)
  let b := p.winb.getD (win % 64) 0
  let d1 := withSq d q { z with rseq := if z.rseq = 0xFFFFFFFF then 1 else z.rseq + 1, rpos := z.rpos + 1 }
  { d1 with out := d.out ++ [.rdmaWrite (win / 64) (fl b 41 32) (fl b 31 0) (p.wina.getD (win % 64) 0 + nat (pos % 2 ^ 32))
    (replyOf z q seq kind state status outsel tag)] }

/-- The reply ring of a queue lies in a host window that is on. -/
def RingOn (d : Dev) (q : Nat) : Prop :=
  let z := d.host.ld.sqs.getD q Sq.reset
  ∃ off, region (z.rplBase + 32 * (z.rpos % 2 ^ z.log2r)) = .host off ∧ d.host.windowOk off = true

/-- Queue q is locked, with an entry in the recorder (R454). -/
def Locked (d x : Dev) (q : Nat) : Prop := x = { withLd d { d.host.ld with locked := mark d.host.ld.locked q } with rc := x.rc }

/-- A flush is issued (R459). -/
def flushing (d : Dev) (q seq : Nat) (what : FlushFor) : Dev :=
  withLd d { d.host.ld with flushes := d.host.ld.flushes ++ [⟨q, nat seq, what, d.now, 0⟩] }

/-- The ledger write of bytes at an address, followed by a flush. -/
def Flushed (d x : Dev) (q at_ seq : Nat) (bs : List Byte) (what : FlushFor) : Prop := ∃ m, d.ldWrite at_ bs = some m ∧ x = flushing m q seq what

/-- The outcome of the first check of R453 that applies to a waybill in queue q: rejected with a reason, a duplicate, or accepted. -/
def outcome (d : Dev) (q x : Nat) (r : Verdict) : Prop :=
  let z := d.host.ld.sqs.getD q Sq.reset
  let seq := part x 127 64
  let next := z.next.toNat
  if part x 7 0 ≠ 1 ∨ part x 15 8 ≠ q ∨ seq = 0 ∨ 2 ≤ part x 63 32 ∨ part x 255 224 ≠ 0 ∨ part x 447 416 ≠ 0 ∨ 0x2000000 < part x 415 384 then
    r = .reject 1
  else if z.en = false ∨ z.winEn = false ∨ d.host.ld.locked.getLsbD q = true then r = .reject 8
  else if next < seq then r = .reject 3
  else (d.ldRead (entryAt z seq) 64 = none → r = .reject 8) ∧ ∀ e, d.ldRead (entryAt z seq) 64 = some e →
    if seq < next then (if part e 63 0 = seq then r = .dup (.ofNat e) else r = .reject 4)
    else if part x 223 192 < part x 31 16 * 32 then r = .reject 2
    else if (0 < part x 223 192 ∧ d.durable (part x 191 128) (part x 223 192) false = false) ∨ (0 < part x 415 384 ∧
      (d.durable (part x 319 256) (part x 415 384) true = false ∨ d.durable (part x 383 320) (part x 415 384) true = false)) then r = .reject 6
    else if part e 71 64 = 0 ∨ ((part e 71 64 = 4 ∨ part e 71 64 = 5) ∧ part e 63 0 < z.retire.toNat) then r = .accept
    else r = .reject 5

/-- The device is powered and has met no device-fatal error. -/
def Powered (d : Dev) : Prop := (d.pw.state = .boot ∨ d.pw.state = .running) ∧ d.dfatal = false

/-- A message out. -/
def emits (d : Dev) (o : Out) : Dev := { d with out := d.out ++ [o] }

/-- The checks of BIND in order, and the reason of the first that fails (R476). -/
def bindReason (d : Dev) (digest : List Byte) : Nat :=
  let r := d.dict.staged
  let stns := BitVec.ofNat 128 (bytesAt r 32 16)
  if ¬ recFormatOk r = true then 1
  else if Config.sha3 r ≠ digest then 2
  else if ∃ n : Fin 128, stns.getLsbD n = true ∧ ¬ (d.made.getLsbD n = true ∧ d.retStn.getLsbD n = false) then 3
  else if d.mem.retired ≠ [] then 4
  else if bytesAt r 12 1 = 0 then 5
  else if d.linkClash r = true then 6
  else if d.dfatal = true ∨ recUnwrap r = none then 7
  else if d.bd.state = 1 ∨ d.bd.state = 3 ∨ d.bd.owed = true then 8
  else 0

/-- A snapshot of the accounting (R481, R482). -/
def sealOf (d : Dev) (cause : Nat) : Seal :=
  let b := d.bd
  let held : Nat := match b.heldFrom with
    | some t => d.now - t
    | none => 0
  { cause := cause, consist := d.consist, devid := d.jn.devid,
    nstn := ((List.range 128).filter (fun n => (d.listed.getD 0).getLsbD n)).length, sseq := (b.sseq + 1) % 2 ^ 32, halts := b.halts,
    bindTick := b.bindTick, endTick := d.tt.tick, boundNs := if b.counting then (d.now - b.boundFrom) / 17 else b.lastNs,
    heldNs := if b.counting then (b.held + held) / 17 else b.lastHeld, late := b.late, digest := b.digest, phases := b.phases,
    at_ := d.now }

end Sys2Proof.Cert
end

