-- ==== Sys2Proof/Certificates/Slice0/Terms/Admin.lean ====
section
/-! DEFINITION. Terms of the statements about boot, the dictionary, power, reset and the test access port. -/

namespace Sys2Proof.Cert

open Sys2Proof.Machine

/-- The number in n bytes at an offset of a list. -/
def num (bs : List Byte) (off n : Nat) : Nat := natLE ((bs.drop off).take n)

/-- A station at its reset values (R545, R557), but for the scratchpad's power; of the engine's ballast the level is left, and only falls. -/
def cleared (st : Station) (off : Bool) : Station :=
  { Station.reset with
    eng := { Engine.reset with level := st.eng.level, falling := decide (0 < st.eng.level) },
    spState := if off then 2 else 0, spTarget := if off then 2 else 0 }

/-- A station that starts at an address in ring 0; a station held in reset. -/
def started (st : Station) (pc : Word) : Station := (cleared st false).updThr 0 (fun t => { t with pc := pc })
def heldAt (st : Station) (off : Bool) : Station := { cleared st off with held := true }

/-! ### Images (R504 to R506) -/

/-- Check 1 of an image, on its header. -/
abbrev headOk (h : List Byte) : Prop :=
  num h 0 4 = 0x4C454F4B ∧ num h 4 1 = 1 ∧ num h 5 1 ≤ 128 ∧ num h 7 1 < 4 ∧ (∀ b, b < 8192 → 7315 ≤ b → h.getD b 0 = 0) ∧
  1 ≤ num h 8 4 ∧ num h 8 4 ≤ 8388608 ∧ num h 12 4 < num h 8 4 ∧ num h 24 8 < num h 8 4 ∧ num h 12 4 % 4 = 0 ∧ num h 24 8 % 4 = 0 ∧
  num h 16 8 % 4096 = 0 ∧ num h 16 8 + num h 8 4 ≤ 0x3000000000

/-- The code of the first check of R505 that an image fails, 0 if it passes all. -/
def imageCode (z : Sec) (h body : List Byte) : Nat :=
  let key := (h.drop 96).take 2592
  if headOk h then
    if num h 6 1 < 4 ∧ z.revoked.getLsbD (num h 6 1) = false ∧ Config.sha3 key = Config.keyHash (num h 6 1) then
      if Config.dsaVerify key [0x4B, 0x4F, 0x2D, 0x45, 0x4C, 0x2D, 0x49, 0x4D, 0x47] (h.take 2688) ((h.drop 2688).take 4627) = true then
        if Config.sha3 body = (h.drop 32).take 64 then if num h 5 1 < z.counter then 6 else 0
        else 5
      else 4
    else 3
  else 2

/-! ### Dictionary messages (R502, R518 to R527) -/

/-- The signal box serves a message from p, which an agent makes (R502, R527, R541). -/
def From (d : Dev) (p : Peer) (a : Agent) : Prop :=
  d.dict.restarting = false ∧ ((d.pw.state = .running ∧ match p with
      | .t1s _ _ => a = .bc
      | .box => a = .sb
      | .qp port n => (d.host.port port).up = true ∧ ((n = 0 ∧ a = .ha ∧ (d.dict.adm.getD port ⟨0, 0, 2, false⟩).en = true) ∨
          (n ≠ 0 ∧ a = .hj ∧ ∃ x ∈ d.host.qps, x.port = port.val ∧ x.qpn = n))) ∨
    (d.pw.state = .boot ∧ match p with
      | .t1s _ _ => a = .bc ∧ d.sec.strap.toNat % 4 = 0
      | .box => False
      | .qp port n => n = 0 ∧ a = .ha ∧ d.sec.strap.toNat % 4 = 1 ∧ d.sec.strap.toNat / 4 = port.val ∧ d.sec.cm ≠ none ∧ (d.host.port port).up = true))

/-- A response to a message; an ABORT with a code. -/
def replies (d : Dev) (p : Peer) (m : DMsg) (typ flags arg : Nat) (data : List Byte) : Dev :=
  emits d (.dict p typ m.tid.toNat m.index.toNat m.sub.toNat flags arg data)
def aborts (d : Dev) (p : Peer) (m : DMsg) (code : Nat) : Dev := replies d p m 0x86 0 code []

/-- A busy abort (R539). -/
def busy (d : Dev) (p : Peer) (m : DMsg) : Dev := aborts { d with dict := { d.dict with busy := true } } p m 0x08010001

/-- The format of a message (R521, R522). -/
def good (m : DMsg) : Prop :=
  m.ver = 1 ∧ m.flags.toNat < 2 ∧ 1 ≤ m.typ.toNat ∧ m.typ.toNat ≤ 6 ∧ m.len.toNat ≤ 1024 ∧ m.len.toNat = m.data.length ∧ (m.typ.toNat < 3 → m.arg = 0)

/-- The row of a message type 1 to 5. -/
def IsRow (k : Nat) (p : Peer) (m : DMsg) (serve : Bool) (i : Instr) : Prop :=
  (k = 1 ∧ i = .dictRead p m serve) ∨ (k = 2 ∧ i = .dictWrite p m serve) ∨ (k = 3 ∧ i = .readInit p m serve) ∨
  (k = 4 ∧ i = .writeInit p m serve) ∨ (k = 5 ∧ i = .seg p m serve)

/-- A message of a type, well formed and meant for this device, from an agent, that finds the queue empty: it is served at once. -/
def Asked (d : Dev) (p : Peer) (a : Agent) (m : DMsg) (typ : Nat) : Prop :=
  From d p a ∧ d.dict.queue = [] ∧ good m ∧ m.typ.toNat = typ ∧ (m.devid = 0xFFFF ∨ m.devid.toNat = d.jn.devid)

/-- An agent may reach an index now: a host job of a bound device only, and at boot the boot profile only (R502, R528). -/
def Open (d : Dev) (a : Agent) (idx : Nat) : Prop :=
  (a = .hj → d.bd.state = 2) ∧ (d.pw.state = .boot → (0x1000 ≤ idx ∧ idx < 0x1100) ∨ (0x7000 ≤ idx ∧ idx < 0x7100) ∨ idx = 0x7100 ∨ idx = 0x7101)

/-- The ring from which an agent reaches mirrored registers (R527). -/
def ringOf (a : Agent) : Nat :=
  match a with
  | .ha => 1
  | .hj => 3
  | _ => 0

/-- The entry of an index and subindex that mirrors the register at an offset of a unit (R531). -/
def Mirrors (idx sub : Nat) (u : Unit_) (off : Nat) : Prop :=
  (∃ k, (k ≤ 0x0A ∨ (0x10 ≤ k ∧ k ≤ 0x16 ∧ k ≠ 0x13)) ∧ idx = 0x2000 + k ∧ sub = 0 ∧ u = .tt ∧ off = 8 * k) ∨
  (∃ n j, n < 64 ∧ j < 2 ∧ idx = 0x2100 + n ∧ sub = j + 1 ∧ u = .tt ∧ off = 0x400 + 16 * n + 8 * j) ∨
  (∃ j, j < 3 ∧ idx = 0x1011 ∧ sub = j + 1 ∧ u = .feat ∧ off = 8 * j) ∨
  (∃ k, k < 3 ∧ idx = 0x3003 + k ∧ sub = 0 ∧ u = .bd ∧ off = 8 * k) ∨
  (∃ k, (k ≤ 0x0D ∨ (0x11 ≤ k ∧ k ≤ 0x15)) ∧ idx = 0x4000 + k ∧ sub = 0 ∧ u = .rc ∧ off = 8 * k) ∨
  (∃ k, k < 4 ∧ idx = 0x5000 + k ∧ sub = 0 ∧ u = .pm ∧ off = 8 * k) ∨
  (∃ l j, l < 24 ∧ j < 4 ∧ idx = 0x6000 + l ∧ sub = j + 1 ∧ u = .lk l ∧ off = 8 * j) ∨
  (∃ k, k < 4 ∧ idx = 0x6100 + k ∧ sub = 0 ∧ u = .jn ∧ off = 8 * k) ∨
  (∃ k, k < 2 ∧ idx = 0x7101 + k ∧ sub = 0 ∧ u = .sec ∧ off = 8 * k)

/-- The value of a small entry that is no mirror (R532), which every agent reads, or every agent but a host job. -/
def valueOf (d : Dev) (idx sub : Nat) (job : Bool) (v : List Byte) : Prop :=
  (idx = 0x1000 ∧ sub = 0 ∧ job = true ∧ v = bytes 4 1) ∨ (idx = 0x1002 ∧ sub = 0 ∧ job = true ∧ v = bytes 8 Config.serial) ∨
  (idx = 0x1003 ∧ sub = 0 ∧ job = false ∧ v = bytes 6 Config.mac) ∨
  (idx = 0x1004 ∧ sub = 0 ∧ job = true ∧ v = [Config.stepping]) ∨ (idx = 0x1005 ∧ sub = 0 ∧ job = false ∧ v = bytes 8 d.dict.bootId) ∨
  (idx = 0x1006 ∧ 1 ≤ sub ∧ sub ≤ 4 ∧ job = true ∧ v = bytes 2 0x100) ∨ (idx = 0x1020 ∧ sub = 1 ∧ job = false ∧ v = bytes 1 d.dict.plcaId) ∨
  (idx = 0x1020 ∧ sub = 2 ∧ job = false ∧ v = bytes 1 d.dict.plcaCount) ∨ (idx = 0x1F01 ∧ sub = 0 ∧ job = false ∧ v = bytes 8 d.dict.ordseq) ∨
  (idx = 0x5010 ∧ sub = 0 ∧ job = false ∧ v = bytes 4 d.dict.period) ∨
  (∃ h : Fin 4, idx = 0x1030 + h ∧ job = false ∧ let q := d.dict.adm.getD h ⟨0, 0, 2, false⟩
    (sub = 2 ∧ v = bytes 4 q.rqpn) ∨ (sub = 3 ∧ v = bytes 1 q.pmtu) ∨ (sub = 4 ∧ v = bytes 1 (if q.en = true then 1 else 0)))

/-- The value of a large entry or DOMAIN (R532), which every agent but a host job reads. -/
def domainOf (d : Dev) (idx sub : Nat) (v : List Byte) : Prop :=
  sub = 0 ∧ ((idx = 0x3001 ∧ v = d.dict.staged) ∨ (idx = 0x3002 ∧ v = d.dict.digest) ∨ (∃ k, k < 4 ∧ idx = 0x3010 + k ∧ v = d.bd.seals.getD k []) ∨
    (idx = 0x5020 ∧ v = d.dict.telem.flatMap (fun r => bytes 32 r.toNat)) ∨
    (idx = 0x6200 ∧ v = (List.range 65536).map (fun i => byteOf (d.jn.routes.getD i 0x1F) 0)) ∨
    (idx = 0x7020 ∧ v = d.sec.dkkCert) ∨ (idx = 0x7021 ∧ v = Config.certChain))

/-! ### The recorder (R497 to R500) -/

/-- An event detected now. -/
def evOf (d : Dev) (src code cls inst data : Nat) (trig : Bool) : RecEv :=
  { tick := d.tt.tick, ns := (d.now - d.tt.lastB) / 17, src := src, code := code, cls := cls, boots := d.rc.boots, consist := d.consist,
    inst := inst, data := data, trig := trig }

/-- An event of class 0, 3, 4 or 5 counted, and in the input queue, which has room for it (R484, R498). -/
def Recorded (d x : Dev) (src code cls inst data : Nat) (trig : Bool) : Prop :=
  d.rc.queue.length < (if cls = 4 ∨ cls = 5 then 64 else 56) → x.rc = { d.rc with
    cnt := if cls = 0 then d.rc.cnt else d.rc.cnt.set cls ((d.rc.cnt.getD cls 0 + 1) % 2 ^ 64),
    queue := d.rc.queue ++ [evOf d src code cls inst data trig] }

/-- The 32 bytes of an entry (R497). -/
def entryOf (e : RecEv) (froze : Bool) (rseq : Nat) : BitVec 256 :=
  BitVec.ofNat 256 (natLE (bytes 8 e.tick ++ bytes 4 e.ns ++ bytes 2 e.src ++ bytes 1 e.code ++
    bytes 1 (e.cls % 8 + (if froze then 8 else 0) + e.boots % 16 * 16) ++ bytes 2 (e.consist % 4096) ++ bytes 2 e.inst ++ bytes 8 e.data ++ bytes 4 rseq))

/-- The recorder after an entry is written at HEAD. -/
def put (r : Rec) (e : RecEv) (froze : Bool) : Rec :=
  { r with
    ring := r.ring.set r.head (entryOf e froze r.nextSeq), head := (r.head + 1) % 65536, full := r.full || decide (r.head = 65535),
    nextSeq := if r.nextSeq = 0xFFFFFFFF then 1 else r.nextSeq + 1 }

/-- The recorder frozen by an entry, or with the RSEQ of the last entry written. -/
def frozenBy (r : Rec) (rseq : Nat) : Rec := { r with frozen := true, frz := rseq, since := 0, postDone := decide (r.post = 0) }
def lastWritten (r : Rec) : Nat := if 1 < r.nextSeq then r.nextSeq - 1 else if r.ring.entries = [] then 0 else 0xFFFFFFFF

/-- The recorder after an event leaves the input queue (R499). -/
def wrote (r : Rec) (now : Nat) (e : RecEv) : Rec :=
  if r.frozen = false then
    if e.trig = true then { frozenBy (put r e true) r.nextSeq with trigAt := some now } else put r e false
  else if r.postDone = true ∨ r.post ≤ r.since then { r with postDone := true, lost := min 0xFFFFFFFF (r.lost + 1) }
  else { put r e false with since := r.since + 1, postDone := decide (r.post ≤ r.since + 1) }

/-- What FREEZE, CLEAR and UNFREEZE do to the recorder (R499, R500). -/
def freezes (r : Rec) : Rec := if r.frozen = true then r else frozenBy r (lastWritten r)
def clears (d : Dev) (r : Rec) : Rec :=
  if r.frozen = false then r else put { r with ring := ⟨[]⟩, head := 0, full := false } { evOf d 0x0E 1 0 0 0 false with boots := r.boots } false
def unfreezes (now : Nat) (r : Rec) : Rec :=
  if r.frozen = false then { r with lost := 0, postDone := false }
  else if r.trigAt = some now then frozenBy { r with lost := 0 } r.frz
  else { r with lost := 0, postDone := false, frozen := false, since := 0 }

/-- The recorder after a write of RC_CTRL. -/
def ctrlWrite (d : Dev) (v : Word) : Rec :=
  let r0 : Rec := { d.rc with post := fl v 31 16 }
  let r1 := if v.getLsbD 0 = true then freezes r0 else r0
  let r2 := if v.getLsbD 2 = true then clears d r1 else r1
  if v.getLsbD 1 = true then unfreezes d.now r2 else r2

/-! ### Stops, supplies and resets (R480, R483, R490, R496, R542 to R557, R566) -/

/-- A station that a device-fatal error stops. -/
def Dead (a b : Station) : Prop :=
  b = { a with
    held := true, running := none, tops := [], ge := b.ge, eng := { a.eng with queue := [], blk := none, falling := decide (0 < a.eng.level) } } ∧
  ∀ k, b.stream k = if (a.stream k).active = true then { a.stream k with state := 4, ends := none } else a.stream k

/-- A device-fatal error with a code: the recorder's entry, every station that has been released stopped, the channels and reductions ended, the keys gone; the
links as they were, or all DOWN (R490). -/
def Fatal (d x : Dev) (src code inst data : Nat) (junction : Bool) : Prop :=
  x = { d with
    rc := x.rc, dfatal := true, stns := x.stns, sh := { d.sh with chans := x.sh.chans }, jn := { d.jn with groups := x.jn.groups },
    links := x.links, mem := { d.mem with key0 := none, key1 := none, key2 := none }, bd := { d.bd with new := none } } ∧
  Recorded d x src code 5 inst data true ∧ (∀ n, Dead (d.stn n) (x.stn n) ∨ (d.stn n = Station.cold ∧ x.stn n = Station.cold)) ∧
  (∀ k, x.sh.chans.getD k Chan.reset = { d.sh.chans.getD k Chan.reset with mode := 0, req := none }) ∧
  (∀ g, x.jn.grp g = { d.jn.grp g with inst := none }) ∧
  ∀ l, x.link l = if junction = true ∧ l < 24 then { fresh (d.link l) with en := false } else d.link l

/-- Binding and accounting of a device that has lost its binding to a reset (R480, R483): a running accounting is snapshot with CAUSE 4. -/
def unbound (d : Dev) : Binding :=
  let b := d.bd
  let z := sealOf d 4
  { Binding.reset with
    lastNs := if b.counting then z.boundNs else b.lastNs, lastHeld := if b.counting then z.heldNs else b.lastHeld, bindTick := b.bindTick,
    halts := b.halts, late := b.late, phases := b.phases, sseq := if b.counting then z.sseq else b.sseq,
    unsigned := b.unsigned ++ (if b.counting then [z] else []), owed := b.counting || decide (b.unsigned ≠ []) }

/-- A device whose rails of VIN_12V are off: what standby power and the fuses keep, and the far tier's contents (R496, R542). -/
def dark (d : Dev) (p : Power) : Dev :=
  { Dev.reset with
    now := d.now, made := d.made, out := d.out, free := d.free, rc := d.rc, bd := unbound d,
    sec := { Sec.reset with counter := d.sec.counter, revoked := d.sec.revoked },
    mem := { MemSys.reset with far := d.mem.far, key0 := none, nextKey := d.mem.nextKey }, pw := { Pwr.reset with state := p, lock := 0 } }

/-- A device in BOOT after a cold or warm reset, but for its stations and what the two resets treat differently. The boot identifier is a
free value; the GDDR7 key is new. -/
def booted (d : Dev) (cause : Nat) (strap : BitVec 4) : Dev :=
  { Dev.reset with
    now := d.now, made := d.made, out := d.out, free := d.free + 1, tap := d.tap, bd := unbound d,
    mem := { MemSys.reset with far := d.mem.far, retired := d.mem.retired, key0 := some (2 * d.mem.nextKey), nextKey := d.mem.nextKey + 1 },
    tt := { Tt.reset with tick := d.tt.tick, lastB := d.tt.lastB, curPeriod := d.tt.curPeriod }, rc := { d.rc with boots := (d.rc.boots + 1) % 256 },
    host := { HostIf.reset with ports := if strap.toNat % 4 = 1 then HostIf.reset.ports.set (strap.toNat / 4) { HiPort.reset with en := true } else HostIf.reset.ports },
    sec := { Sec.reset with strap := strap, counter := d.sec.counter, revoked := d.sec.revoked, code := if 2 ≤ strap.toNat % 4 then 8 else 0, tryAt := d.now },
    dict := { Dict.reset with bootId := Config.freeValue d.free % 2 ^ 64, sampled := d.now },
    pw := { d.pw with state := .boot, pin := 0, tj := 0, throt := false, floor := false, capped := false, cause := cause } }

/-- A cold reset, with the rails coming up or not, and the GDDR7 channels that fail their test. -/
def Cold (d x : Dev) (cause : Nat) (strap : BitVec 4) (bad : List (Fin 96)) (rails : Bool) : Prop :=
  let y := booted d cause strap
  x = { y with
    mem := { y.mem with retired := x.mem.retired }, tap := Tap.reset, tt := if rails then { Tt.reset with lastB := d.now } else y.tt,
    pw := if rails then { Pwr.reset with cause := cause } else { y.pw with lock := 0x8F } } ∧
  ∀ c, c ∈ x.mem.retired ↔ ∃ b ∈ bad, b.val = c

/-- A warm reset: links that are UP, routes, JN_DEVID, retirements and what is under way at the junction stay. -/
def Warm (d x : Dev) (cause : Nat) (strap : BitVec 4) : Prop :=
  x = { booted d cause strap with
    links := x.links, stns := x.stns, retStn := d.retStn, retPend := d.retPend,
    jn := { Junction.reset with devid := d.jn.devid, routes := d.jn.routes, inq := d.jn.inq, oid := d.jn.oid } } ∧
  (∀ l, x.link l = if (d.link l).state = 4 then d.link l else trains d.now (fresh (d.link l))) ∧ ∀ n, x.stn n = heldAt (d.stn n) false

/-- VIN_12V is applied. -/
def Lit (d : Dev) : Prop := d.pw.state = .boot ∨ d.pw.state = .running

end Sys2Proof.Cert
end

