-- ==== Sys2Proof/Certificates/Slice0/Obligations.lean ====
section
/-! DEFINITION. The statements for the provers. -/

open Sys2Proof Sys2Proof.Machine

/-! ### The block -/

/-- For every command c and state s whose queue is c followed by r, a step of s is c's effect on s with the queue r. -/
def Obligations.StepRunsFrontCommand : Prop :=
  ∀ (c : Instr) (r : List Instr) (s : State), s.pending = c :: r → step s = exec c { s with pending := r }

/-- If the queue starts with the commands cs, as many steps as cs has commands answer a next state; its queue is the rest, and
its device is what the effects of cs leave when they run one after the other in the order of the queue. -/
def Obligations.CommandsRunInOrder : Prop :=
  ∀ (cs r : List Instr) (s : State), s.pending = cs ++ r →
    ∃ t, runN cs.length s = some t ∧ t.pending = r ∧
      ∀ q, cs.foldl (fun o c => match o with
        | some x => (match exec c x with
          | .next y => some y
          | _ => none)
        | none => none) (some { s with pending := q }) = some { t with pending := q }

/-- From every state whose memories outside the stations (GDDR7, the far tier and the boot window) are in the canonical form
(addresses strictly rising, no entry equal to what an unlisted address reads as), a step that answers a next state answers one
in which they are in the canonical form. -/
def Obligations.EveryStepKeepsMemoryForm : Prop :=
  ∀ (s t : State), s.memWf → step s = .next t → t.memWf

/-- R20, R29, R46, R55, R84, R326, R330, R344, R401, R411, R419, R444, R496, R500, R542, R546, R549, R555: The state after reset
has the canonical memory form, an empty queue, the device in BOOT, unbound, with every station held and every scratchpad empty;
the listed unit registers and control registers read the reset values of their descriptions. (RC_STAT.BOOTS, which counts the
reset, and LOCK follow the model's choice of the instant: log entry 16.) -/
def Obligations.ResetLeaves : Prop :=
  State.reset.memWf ∧ State.reset.pending = [] ∧ let d := State.reset.dev
    d.pw.state = .boot ∧ d.bd.state = 0 ∧ d.listed = none ∧ d.tt.state = 0 ∧ d.cfatal = false ∧ d.dfatal = false ∧ d.capL = 8 ∧ d.tap.ir = 2 ∧
    (∀ n : Fin 128, (d.stn n).held = true ∧ (d.stn n).sp = Mem.empty) ∧
    (∀ r ∈ ([(.tt, 0x00, 0), (.tt, 0x08, 0), (.tt, 0x10, 0xF4240), (.tt, 0x18, 0), (.tt, 0x20, 0), (.tt, 0x28, 0), (.tt, 0x38, 500),
        (.tt, 0x40, 0), (.tt, 0x48, 0x100000000), (.tt, 0x50, 0), (.tt, 0x80, 0x1F), (.tt, 0x88, 0xC80000), (.tt, 0x90, 0xFFFFFFFFFFFFFFFF),
        (.tt, 0xA0, 0xFFFF000000000000), (.tt, 0xA8, 0), (.tt, 0xB0, 0), (.tt, 0x400, 0), (.tt, 0x7F8, 0), (.ca, 0x00, 0xFFFFFFFF),
        (.ca, 0x78, 0xFFFFFFFF), (.ca, 0x80, 0xF), (.ft, 0x00, 0), (.sh 15, 0x00, 0), (.sh 15, 0x08, 0), (.sh 15, 0x10, 0),
        (.sh 15, 0x18, 0x4010), (.sh 15, 0x4C0, 6), (.sh 15, 0x4D8, 0), (.sh 15, 0x4F0, 0), (.lk 23, 0x00, 2), (.lk 23, 0x08, 0),
        (.lk 23, 0x10, 0), (.lk 23, 0x18, 0), (.jn, 0x00, 0), (.jn, 0x08, 0), (.jn, 0x10, 0x1F), (.jn, 0x18, 0), (.jn, 0x100, 0x1FFFFFFFFFFF),
        (.ld, 0x00, 0x4032000), (.ld, 0x10, 0), (.bd, 0x00, 0), (.bd, 0x08, 0), (.bd, 0x10, 0), (.rc, 0x00, 0x4000000), (.rc, 0x48, 0),
        (.rc, 0x50, 0), (.rc, 0x60, 0), (.pm, 0x00, 0x6400000DAC), (.pm, 0x10, 0x6E64), (.pm, 0x18, 0), (.sec, 0x08, 0),
        (.stSp 5, 0, 0), (.stGe 5, 0x08, 0), (.stGe 5, 0x10, 0), (.stMm 5, 0, 0)] : List (Unit_ × Nat × Word)),
      (d.unitRead r.1 r.2.1).2 = r.2.2) ∧
    ∀ (n : Fin 128) (t : Fin 4), ∀ r ∈ ([(0x010, 0), (0x011, 2), (0x012, 1), (0x102, 0), (0x112, 0), (0x143, 0x4000), (0x200, 0x30000), (0x201, 0),
        (0x203, 1), (0x204, 0x12000), (0x205, 0xFF), (0x300, 0), (0x32A, 1), (0x358, 0x8000840), (0x359, 0x40000404008)] : List (Nat × Word)),
      d.cr ⟨n, t⟩ r.1 = some r.2

/-! ### The station core -/

/-- R60, R61: Every integer register operation, immediate operation, shift, LI and LIH, with its fields as required, writes to
rd the value the rules give (integer arithmetic wraps modulo 2^64, W forms sign-extend 32 bits), advances the PC and takes one
cycle; nothing else changes. -/
def Obligations.IntegerResults : Prop :=
  ∀ (i : Instr) (s : State) (d1 : Dev) (h : Hart) (len : Nat) (rd : Fin 32) (v : Thread → Word),
    Cert.intRule i = some (h, len, rd, v) → Cert.Issues s.dev h len d1 →
    Cert.Runs i s d1 h 1 (((d1.thr h).setG rd (v (d1.thr h))).done len)

/-- R71, R73: A multiply or MTMQ queues its product for its mq register, to land four cycles after issue; MFMQ takes one cycle;
a divide writes quotient or remainder to rd and takes 36 cycles; a division by zero gives all ones and rs1, and the signed
overflow case its quotient and remainder, with no exception. Nothing else changes. -/
def Obligations.MultiplyAndDivideResults : Prop :=
  (∀ (i : Instr) (s : State) (d1 : Dev) (h : Hart) (rd : Fin 32) (v : Thread → Word),
     Cert.mqRule i = some (h, rd, v) → Cert.Issues s.dev h 4 d1 →
     Cert.Runs i s d1 h 1
       (Thread.done 4 { d1.thr h with mqPend := (d1.thr h).mqPend ++ [((d1.stn h.stn).cycle + 4, (rd : Nat), v (d1.thr h))] })) ∧
  (∀ (i : Instr) (s : State) (d1 : Dev) (h : Hart) (c : Nat) (rd : Fin 32) (v : Thread → Word),
     Cert.mdRule i = some (h, c, rd, v) → Cert.Issues s.dev h 4 d1 →
     Cert.Runs i s d1 h c (((d1.thr h).setG rd (v (d1.thr h))).done 4))

/-- R74 to R78: QMAC, QMSU, QMUL, QADD, QSUB, QRND, QCLR and the ma moves write the exact value, placed, rounded by QRM and
saturated, with FXCSR.SAT, FXCSR.OV and the QLFSR steps of a stochastic rounding; nothing else changes. -/
def Obligations.FixedPointResults : Prop :=
  ∀ (i : Instr) (s : State) (d1 : Dev) (h : Hart) (f : Thread → Thread),
    Cert.qRule i = some (h, f) → Cert.Issues s.dev h 4 d1 → Cert.Runs i s d1 h 1 ((f (d1.thr h)).done 4)

/-- R62 to R64, R82: A compare-and-branch goes to PC + 4 × OFF where its condition holds and otherwise to the next instruction;
J, CALL and JR go to their targets, CALL and JR with the return address written after rs1 is read; a JR target that is not a
multiple of four takes ALIGN with no register changed. A branch or plain jump abandons the loops it leaves, a call or a return
none; a transfer takes two cycles. -/
def Obligations.BranchAndJumpResults : Prop :=
  (∀ (i : Instr) (s : State) (d1 : Dev) (h : Hart) (o : Int) (c : Thread → Bool),
     Cert.branchRule i = some (h, o, c) → Cert.Issues s.dev h 4 d1 →
     (c (d1.thr h) = true → Cert.Goes i s d1 h (Cert.jumped (d1.thr h) ((d1.thr h).pc + Cert.w (4 * o)))) ∧
     (c (d1.thr h) = false → Cert.Runs i s d1 h 1 ((d1.thr h).done 4))) ∧
  (∀ (s : State) (d1 : Dev) (h : Hart), Cert.Issues s.dev h 4 d1 →
     (∀ o, Cert.Goes (.j h o) s d1 h (Cert.jumped (d1.thr h) ((d1.thr h).pc + Cert.w (4 * o.toInt)))) ∧
     (∀ o, Cert.Goes (.call h o) s d1 h (fun u =>
       u = Cert.called ((d1.thr h).setG 30 ((d1.thr h).pc + 4)) ((d1.thr h).pc + Cert.w (4 * o.toInt)))) ∧
     ∀ (rd a : Fin 32) (i : BitVec 15),
       let p := (d1.thr h).gr a + Cert.w i.toInt
       (p.toNat % 4 = 0 → (rd = 0 ∧ ¬ (a = 30 ∧ i = 0) → Cert.Goes (.jr h rd a i) s d1 h (Cert.jumped (d1.thr h) p)) ∧
         (rd ≠ 0 ∨ (a = 30 ∧ i = 0) → Cert.Goes (.jr h rd a i) s d1 h (fun u =>
           u = Cert.called ((d1.thr h).setG rd ((d1.thr h).pc + 4)) p))) ∧
       (p.toNat % 4 ≠ 0 → Cert.Traps (.jr h rd a i) s d1 h 3 p 0))

/-- R64, R79 to R81: LOOP and LOOPI whose LTAIL word can be fetched enter their loop, or with a count of 0 continue after the
instruction at LTAIL as a taken branch; a fault on LTAIL is taken on them with the address of LTAIL. An instruction that
completes at LTAIL of an active loop decrements LREM and continues at LHEAD while LREM > 1, else sets LREM to 0, clears ACTN and
falls through; where both loops end there, the inner one is checked first and the outer one only if the inner falls through. -/
def Obligations.LoopResults : Prop :=
  (∀ (i : Instr) (s : State) (d1 : Dev) (h : Hart) (n len : Nat) (o : Int) (c : Option (BitVec 24)),
     Cert.loopRule i = some (h, n, len, o, c) → Cert.Issues s.dev h len d1 →
     let tail := (d1.thr h).pc + Cert.w o
     let t := Cert.counted n c (d1.thr h)
     (∀ code, d1.translate h.stn (d1.thr h).ring .fetch (.core 4) tail.toNat = .fault code → Cert.Traps i s d1 h code tail 0) ∧
     ∀ pa e, d1.translate h.stn (d1.thr h).ring .fetch (.core 4) tail.toNat = .ok pa e →
       let d2 := d1.install h.stn (.ok pa e)
       (t.lc.getD n 0 ≠ 0 → ∃ u, Cert.looped n ((d1.thr h).pc + Cert.w len) tail t u ∧ Cert.Runs i s d2 h 1 (u.done len)) ∧
       (t.lc.getD n 0 = 0 → Cert.Close d1 pa 1 →
         Cert.Goes i s d2 h (Cert.jumped t (tail + if (d1.mem.gddr.get pa).getLsbD 0 then 8 else 4)))) ∧
  (∀ (t : Thread) (len : Nat),
     let ends (n : Nat) : Prop := t.act n = true ∧ t.ltail.getD n 0 = t.pc
     let again (n : Nat) (u : Thread) : Thread := { u with lrem := u.lrem.set n (t.lrem.getD n 0 - 1), pc := t.lhead.getD n 0 }
     let exceeds (n : Nat) (u : Thread) : Prop := u.lrem.getD n 0 = 0 ∧ u.act n = false
     (¬ ends 0 → ¬ ends 1 → t.done len = { t with pc := t.pc + Cert.w len, instret := t.instret + 1 }) ∧
     (∀ n, n < 2 → ends n → (¬ ends (1 - n) ∨ t.lflags.getLsbD 2 = decide (n = 1)) →
       (1 < (t.lrem.getD n 0).toNat → t.done len = { again n t with instret := t.instret + 1 }) ∧
       ((t.lrem.getD n 0).toNat ≤ 1 → exceeds n (t.done len) ∧
         (¬ ends (1 - n) → (t.done len).pc = t.pc + Cert.w len ∧ (t.done len).act (1 - n) = t.act (1 - n) ∧
           (t.done len).lrem.getD (1 - n) 0 = t.lrem.getD (1 - n) 0) ∧
         (ends (1 - n) → (1 < (t.lrem.getD (1 - n) 0).toNat →
             (t.done len).pc = t.lhead.getD (1 - n) 0 ∧ (t.done len).lrem.getD (1 - n) 0 = t.lrem.getD (1 - n) 0 - 1) ∧
           ((t.lrem.getD (1 - n) 0).toNat ≤ 1 → exceeds (1 - n) (t.done len) ∧ (t.done len).pc = t.pc + Cert.w len)))))

/-- R58, R93, R95, R99: For the listed instructions of the core, a field that must be zero and is not, or that holds a reserved
value, takes ILLEGAL with the instruction word as the fault address, and no other effect. -/
def Obligations.ReservedFieldsAreIllegal : Prop :=
  ∀ (i : Instr) (s : State) (d1 : Dev) (h : Hart) (len : Nat) (b : Word),
    Cert.illRule i = some (h, len, b) → Cert.Issues s.dev h len d1 → Cert.Traps i s d1 h 1 b 0

/-! ### Memory access -/

/-- R49, R52, R65: A load that needs no walk writes its bytes, sign- or zero-extended, to rd where they lie in the own
scratchpad, or in close memory with a hit; one that misses takes a request slot, waits and leaves its registers and PC; a
misaligned one takes ALIGN, and one whose translation faults takes that fault. -/
def Obligations.LoadResults : Prop :=
  ∀ (i : Instr) (s : State) (d1 : Dev) (h : Hart) (rd a : Fin 32) (o : Int) (n : Nat) (sg hit : Bool) (op : MemOp),
    Cert.ldRule i = some (h, rd, a, o, n, sg, hit, op) → Cert.Issues s.dev h 4 d1 →
    let va := (d1.thr h).gr a + Cert.w o
    (va.toNat % n ≠ 0 → Cert.Traps i s d1 h 3 va 0) ∧
    (va.toNat % n = 0 → d1.needsWalk h.stn va.toNat = false → ∀ c, d1.translate h.stn (d1.thr h).ring .load (.core n) va.toNat = .fault c →
      Cert.Traps i s d1 h c va 0) ∧
    ∀ pa e, va.toNat % n = 0 → Cert.At d1 h .load (.core n) va pa e →
      let d2 := d1.install h.stn (.ok pa e)
      (∀ off, Cert.Scratch d1 h.stn pa off n →
        Cert.Runs i s d2 h 1 (((d1.thr h).setG rd (Cert.loaded n sg (Cert.le (d1.stn h.stn).sp off n))).done 4)) ∧
      (Cert.Close d1 pa n → e.dev = false → hit = true →
        Cert.Runs i s d2 h 1 (((d1.thr h).setG rd (Cert.loaded n sg (Cert.le d1.mem.gddr pa n))).done 4)) ∧
      (region pa = .gddr → e.dev = false → hit = false → (d1.stn h.stn).slots < 64 →
        ∃ t, exec i s = .next t ∧ t.pending = s.pending ∧ Cert.Waits t.dev h (.reply op [(pa, e)]) ∧
          (t.dev.stn h.stn).slots = (d1.stn h.stn).slots + 1 ∧ (t.dev.thr h).g = (d1.thr h).g ∧ (t.dev.thr h).pc = (d1.thr h).pc ∧
          t.dev.mem = d1.mem)

/-- R65, R66, R321: A store that needs no walk writes exactly its bytes to the own scratchpad, or to close memory, where it is
posted with a request slot and an acknowledgement owed; every byte outside them reads as before. A misaligned one takes ALIGN,
and one whose translation faults takes that fault. -/
def Obligations.StoreResults : Prop :=
  ∀ (i : Instr) (s : State) (d1 : Dev) (h : Hart) (rd a : Fin 32) (o : Int) (n : Nat),
    Cert.stRule i = some (h, rd, a, o, n) → Cert.Issues s.dev h 4 d1 →
    let va := (d1.thr h).gr a + Cert.w o
    let x := ((d1.thr h).gr rd).toNat
    (va.toNat % n ≠ 0 → Cert.Traps i s d1 h 3 va 0) ∧
    (va.toNat % n = 0 → d1.needsWalk h.stn va.toNat = false → ∀ c, d1.translate h.stn (d1.thr h).ring .store (.core n) va.toNat = .fault c →
      Cert.Traps i s d1 h c va 0) ∧
    ∀ pa e, va.toNat % n = 0 → Cert.At d1 h .store (.core n) va pa e →
      let d2 := d1.install h.stn (.ok pa e)
      (∀ off, region pa = .scratch h.stn off → (d1.stn h.stn).spState = 0 →
        ∃ t, exec i s = .next t ∧ t.pending = s.pending ∧ t.dev = { d2 with stns := t.dev.stns } ∧
          (∀ k : Nat, k ≠ h.stn → t.dev.stn k = d2.stn k) ∧
          t.dev.stn h.stn = { d2.stn h.stn with
            th := (t.dev.stn h.stn).th, cycle := (d2.stn h.stn).cycle + 1, sp := (t.dev.stn h.stn).sp,
            spPoison := (t.dev.stn h.stn).spPoison } ∧
          t.dev.thr h = Thread.land ((d2.stn h.stn).cycle + 1) ((d1.thr h).done 4) ∧
          Cert.Stored (d1.stn h.stn).sp (t.dev.stn h.stn).sp off n x) ∧
      (region pa = .gddr → d1.mem.key0.isSome = true → channelOf pa ∉ d1.mem.retired → (d1.stn h.stn).slots < 64 →
        ∃ t, exec i s = .next t ∧ t.pending = s.pending ∧
          t.dev = { d2 with stns := t.dev.stns, mem := { d2.mem with gddr := t.dev.mem.gddr, poison := t.dev.mem.poison } } ∧
          (∀ k : Nat, k ≠ h.stn → t.dev.stn k = d2.stn k) ∧
          (t.dev.stn h.stn).slots = (d1.stn h.stn).slots + 1 ∧ (t.dev.stn h.stn).sp = (d1.stn h.stn).sp ∧
          t.dev.thr h = Thread.land ((d2.stn h.stn).cycle + 1) (Thread.done 4 { d1.thr h with acks := (d1.thr h).acks + 1 }) ∧
          Cert.Stored d1.mem.gddr t.dev.mem.gddr pa n x)

/-- R66, R67, R321: An atomic on the own scratchpad writes the old word to rd and the combined word to memory, every other byte
as before; a misaligned one takes ALIGN, one whose translation faults takes that fault, and an untranslated address in GDDR7
takes ST_ACC. PREF changes no result, FENCE.I completes, and FENCE completes with no store outstanding and waits otherwise.
(AADD.F in the reproducible mode is not spoken of.) -/
def Obligations.AtomicAndFenceResults : Prop :=
  (∀ (i : Instr) (s : State) (d1 : Dev) (h : Hart) (rd a b : Fin 32) (n : Nat) (f : Nat → Nat → Nat),
     Cert.amoRule i = some (h, rd, a, b, n, f) → Cert.Issues s.dev h 4 d1 → (d1.repro = false ∨ i ≠ .aaddF h rd a b) →
     let va := (d1.thr h).gr a
     (va.toNat % n ≠ 0 → Cert.Traps i s d1 h 3 va 0) ∧
     (va.toNat % n = 0 → d1.needsWalk h.stn va.toNat = false → ∀ c, d1.translate h.stn (d1.thr h).ring .store .amo va.toNat = .fault c →
       Cert.Traps i s d1 h c va 0) ∧
     (va.toNat % n = 0 → region va.toNat = .gddr → (d1.stn h.stn).mmEn = false → (d1.stn h.stn).tlb = [] → Cert.Traps i s d1 h 0x0A va 0) ∧
     ∀ pa e off, va.toNat % n = 0 → Cert.At d1 h .store .amo va pa e → Cert.Scratch d1 h.stn pa off n →
       let d2 := d1.install h.stn (.ok pa e)
       let old := Cert.le (d1.stn h.stn).sp off n
       ∃ t, exec i s = .next t ∧ t.pending = s.pending ∧ t.dev = { d2 with stns := t.dev.stns } ∧
         (∀ k : Nat, k ≠ h.stn → t.dev.stn k = d2.stn k) ∧
         t.dev.stn h.stn = { d2.stn h.stn with
           th := (t.dev.stn h.stn).th, cycle := (d2.stn h.stn).cycle + 1, sp := (t.dev.stn h.stn).sp,
           spPoison := (t.dev.stn h.stn).spPoison } ∧
         t.dev.thr h = Thread.land ((d2.stn h.stn).cycle + 1) (((d1.thr h).setG rd (Cert.loaded n (n == 4) old)).done 4) ∧
         Cert.Stored (d1.stn h.stn).sp (t.dev.stn h.stn).sp off n (f old ((d1.thr h).gr b).toNat)) ∧
  (∀ (s : State) (d1 : Dev) (h : Hart), Cert.Issues s.dev h 4 d1 →
     (∀ a i, Cert.Runs (.pref h 0 a i) s d1 h 1 ((d1.thr h).done 4)) ∧
     Cert.Runs (.fenceI h 0 0 0) s d1 h 1 ((d1.thr h).done 4) ∧
     ((d1.thr h).acks = 0 → Cert.Runs (.fence h 0 0 0) s d1 h 1 ((d1.thr h).done 4)) ∧
     ((d1.thr h).acks ≠ 0 → ∃ t, exec (.fence h 0 0 0) s = .next t ∧ t.pending = s.pending ∧ Cert.Waits t.dev h .fence ∧
       (t.dev.thr h).g = (d1.thr h).g ∧ (t.dev.thr h).pc = (d1.thr h).pc ∧ t.dev.mem = d1.mem))

/-- R68 to R70, R82: CALLM and CALLMR store the return address and the registers of the mask, set sp and lr and go to their
target without abandoning a loop; RETM loads the registers of the mask and the return address, sets sp and goes there. A
misaligned sp takes ALIGN. (Masks with bit 0 or bit 31 clear.) -/
def Obligations.CallFrameResults : Prop :=
  (∀ (i : Instr) (s : State) (d1 : Dev) (h : Hart) (m : BitVec 32) (p : Word), m.getLsbD 0 = false → m.getLsbD 31 = false →
     (∃ hit, (∃ o, i = .callm h o m hit ∧ p = (d1.thr h).pc + Cert.w (4 * o.toInt)) ∨ ∃ a, i = .callmr h 0 a 0 0 m hit ∧ p = (d1.thr h).gr a) →
     Cert.Issues s.dev h 8 d1 →
     let sp := (d1.thr h).gr 31
     let base := sp - Cert.w (Cert.frameOf m)
     let ra := (d1.thr h).pc + 8
     let vals := ra :: (Cert.masked m).map (fun r => (d1.thr h).gr r)
     (sp.toNat % 16 ≠ 0 → Cert.Traps i s d1 h 3 sp 0) ∧
     ∀ d2 locs offs, sp.toNat % 16 = 0 → p.toNat % 4 = 0 → Cert.FrameIn d1 d2 h .store (Cert.frameAt base m) locs offs →
       ∃ t, exec i s = .next t ∧ t.pending = s.pending ∧ t.dev = { d2 with stns := t.dev.stns } ∧
         (∀ k : Nat, k ≠ h.stn → t.dev.stn k = d2.stn k) ∧
         t.dev.thr h = Thread.land ((d2.stn h.stn).cycle + 1) (Cert.called (((d1.thr h).setG 31 base).setG 30 ra) p) ∧
         (t.dev.stn h.stn).sp = (offs.zip vals).foldl (fun mm q => mm.writeBytes q.1 ((List.range 8).map (Cert.byteOf q.2.toNat)))
           (d1.stn h.stn).sp) ∧
  (∀ (s : State) (d1 : Dev) (h : Hart) (m : BitVec 32) (hit : Bool), m.getLsbD 0 = false → m.getLsbD 31 = false →
     Cert.Issues s.dev h 8 d1 →
     let i := Instr.retm h 0 0 0 0 m hit
     let sp := (d1.thr h).gr 31
     (sp.toNat % 16 ≠ 0 → Cert.Traps i s d1 h 3 sp 0) ∧
     ∀ d2 locs o offs, sp.toNat % 16 = 0 → Cert.FrameIn d1 d2 h .load (Cert.frameAt sp m) locs (o :: offs) →
       let ra := Cert.w (Cert.le (d1.stn h.stn).sp o 8)
       ra.toNat % 4 = 0 →
       Cert.Runs i s d2 h 1 (Cert.called
         ((((Cert.masked m).zip offs).foldl (fun t q => t.setG q.1 (Cert.w (Cert.le (d1.stn h.stn).sp q.2 8))) (d1.thr h)).setG 31
           (sp + Cert.w (Cert.frameOf m))) ra))

/-- R52, R54, R66, R321: The reply to a waiting load from close memory, or the end of its walk, completes it: rd, PC, the slot
given back. An acknowledgement counts one store of the thread off and gives back its slot; the last one lets a FENCE that waits
complete. -/
def Obligations.RepliesAndAcknowledgements : Prop :=
  (∀ (i : Instr) (s : State) (h : Hart) (rd a : Fin 32) (o : Int) (n : Nat) (sg hit : Bool) (op : MemOp) (pa : Nat) (e : TlbE) (v : Word),
     Cert.ldRule i = some (h, rd, a, o, n, sg, hit, op) → (s.dev.stn h.stn).live = true →
     (s.dev.thr h).wait = .reply op [(pa, e)] → Cert.Close s.dev pa n →
     ∃ t, exec (.missReply h v false 0) s = .next t ∧ t.pending = s.pending ∧
       t.dev.thr h = { ((s.dev.thr h).setG rd (Cert.loaded n sg (Cert.le s.dev.mem.gddr pa n))).done 4 with
         wait := .ready, mq := (t.dev.thr h).mq, mqPend := (t.dev.thr h).mqPend } ∧
       (t.dev.stn h.stn).slots = (s.dev.stn h.stn).slots - 1 ∧ t.dev.mem = s.dev.mem) ∧
  (∀ (i : Instr) (s : State) (h : Hart) (rd a : Fin 32) (o : Int) (n : Nat) (sg hit : Bool) (op : MemOp) (pa : Nat) (e : TlbE) (off : Nat),
     Cert.ldRule i = some (h, rd, a, o, n, sg, hit, op) → (s.dev.stn h.stn).live = true → (s.dev.thr h).wait = .walk op →
     let va := (s.dev.thr h).gr a + Cert.w o
     va.toNat % n = 0 → s.dev.translate h.stn (s.dev.thr h).ring .load (.core n) va.toNat = .ok pa e →
     Cert.Scratch s.dev h.stn pa off n →
     ∃ t, exec (.translationWalkEnd h) s = .next t ∧ t.pending = s.pending ∧
       t.dev.thr h = { ((s.dev.thr h).setG rd (Cert.loaded n sg (Cert.le (s.dev.stn h.stn).sp off n))).done 4 with
         wait := .ready, mq := (t.dev.thr h).mq, mqPend := (t.dev.thr h).mqPend } ∧ t.dev.mem = s.dev.mem) ∧
  (∀ (s : State) (h : Hart), (s.dev.thr h).acks ≠ 0 →
     ∃ t, exec (.storeAcknowledge h) s = .next t ∧ t.pending = s.pending ∧ (t.dev.thr h).acks = (s.dev.thr h).acks - 1 ∧
       (t.dev.stn h.stn).slots = (s.dev.stn h.stn).slots - 1 ∧ t.dev.mem = s.dev.mem ∧
       ((s.dev.thr h).acks = 1 → (s.dev.thr h).wait = .fence → (s.dev.stn h.stn).live = true → (t.dev.thr h).wait = .ready))

/-! ### Loops, control registers, gates, threads -/

/-- R50, R84, R87, R285: MFC writes to rd the value of each assigned control register (those of the list have the listed
values); a number that is not assigned takes ILLEGAL, a register of a more privileged ring PRIV. Loop state of the command block
read while a block runs is some value that nothing constrains (log entry 5). -/
def Obligations.ControlRegisterReads : Prop :=
  ∀ (s : State) (d1 : Dev) (h : Hart) (rd : Fin 32) (n : BitVec 15), Cert.Issues s.dev h 4 d1 → n.toNat < 4096 →
    let i := Instr.mfc h rd 0 n
    let ring := (d1.thr h).ring
    (∀ v, (n.toNat, v) ∈ Cert.crTable d1 h → d1.cr h n.toNat = some v) ∧
    (d1.cr h n.toNat = none → Cert.Traps i s d1 h 1 (Cert.wordI 0x27 rd 0 n) 0) ∧
    ∀ v, d1.cr h n.toNat = some v →
      (Cert.mayRead ring n.toNat →
        (¬ (0x348 ≤ n.toNat ∧ n.toNat < 0x34C ∧ (d1.stn h.stn).eng.blk.isSome = true) →
          Cert.Runs i s d1 h 1 (((d1.thr h).setG rd v).done 4)) ∧
        (0x348 ≤ n.toNat ∧ n.toNat < 0x34C ∧ (d1.stn h.stn).eng.blk.isSome = true →
          ∃ x, Cert.Runs i s { d1 with free := d1.free + 1 } h 1 (((d1.thr h).setG rd x).done 4))) ∧
      (¬ Cert.mayRead ring n.toNat → Cert.Traps i s d1 h 2 (Cert.wordI 0x27 rd 0 n) 0)

/-- R50, R84, R87, R160, R162, R282: A write in a ring that may write leaves in each register what its description says and
changes nothing else; a read-only or unassigned register takes ILLEGAL, a register of a more privileged ring PRIV, ME_SRSEED by
a thread that is not the owner TILE_OWN. FREL releases ownership, and CB_CTL.ABORT stops a running block. -/
def Obligations.ControlRegisterWrites : Prop :=
  ∀ (i : Instr) (s : State) (d1 : Dev) (h : Hart) (a : Fin 32) (n : Nat),
    Cert.mtcRule i = some (h, a, n) → Cert.Issues s.dev h 4 d1 →
    let st := d1.stn h.stn
    let t := d1.thr h
    let v := t.gr a
    let bad := Cert.wordI 0x28 0 a (BitVec.ofNat 15 n)
    (n ∈ Cert.readOnly → Cert.Traps i s d1 h 1 bad 0) ∧
    (d1.cr h n = none → Cert.Traps i s d1 h 1 bad 0) ∧
    (n ∉ Cert.readOnly → d1.cr h n ≠ none → ¬ Cert.mayWrite t.ring n → Cert.Traps i s d1 h 2 bad 0) ∧
    (n = 0x32A → st.owns h.thr = false → Cert.Traps i s d1 h 0x0F 0 0) ∧
    (Cert.mayWrite t.ring n → (Cert.needsOwner n → st.owns h.thr = true) → st.crWait h.thr n v = false →
      (∀ st2, (n, st2) ∈ Cert.crStores st h.thr v → Cert.StnIs i s d1 h.stn (Cert.after h.thr 4 1 st2)) ∧
      (n = 0x140 → ∃ x, Cert.statusAfter t v x.status ∧ x = { t with status := x.status, nointFrom := x.nointFrom } ∧
        (x.nointFrom = if t.ie = true ∧ x.status.getLsbD 2 = false then st.cycle else t.nointFrom) ∧
        Cert.StnIs i s d1 h.stn (Cert.after h.thr 4 1 (st.setThr h.thr x))) ∧
      (n = 0x147 → ∃ x, x = { t with status := x.status } ∧
        (∀ b, b < 16 → x.status.getLsbD b =
          (t.status.getLsbD b && !(decide (12 ≤ b ∧ t.ring ≤ b - 12) && v.getLsbD (b - 12)))) ∧
        Cert.StnIs i s d1 h.stn (Cert.after h.thr 4 1 (st.setThr h.thr x))) ∧
      (n = 0x32A → ∃ e, e = { st.eng with srseed := e.srseed, lfsr := e.lfsr } ∧
        (e.srseed = if Cert.low 32 v = 0 then 1 else BitVec.ofNat 32 (Cert.low 32 v)) ∧
        (∀ c, c < 128 → e.lfsr.getD c 0 = seedCol e.srseed.toNat c) ∧
        Cert.StnIs i s d1 h.stn (Cert.after h.thr 4 1 { st with eng := e })) ∧
      (n = 0x308 → v.getLsbD 7 = true → st.engIdle = true → (∀ k : Fin 4, st.inTacq k = false) →
        Cert.StnIs i s d1 h.stn (Cert.after h.thr 4 1 { st with owner := if st.ownPend then st.owner else none })) ∧
      (n = 0x308 → v.getLsbD 7 = true → st.engIdle = false → st.owner ≠ none →
        Cert.StnIs i s d1 h.stn (Cert.after h.thr 4 1 { st with ownPend := true })) ∧
      (n = 0x341 → v.getLsbD 1 = true → ∀ b, st.eng.blk = some b → b.stop = none → b.exit = false → b.next < b.cmds.length →
        Cert.StnIs i s d1 h.stn (Cert.after h.thr 4 1 { st with
          eng := { st.eng with cbResume := v.getLsbD 0, blk := some (b.halt 5 0 0) } })))

/-- R84, R95, R97, R98, R103: GATE through an enabled gate that allows the ring and leads to no less privileged ring enters its
target ring with the completion of the GATE as the saved PC, at the gate's entry; any other GATE takes GATE_FAULT with its
number. XRET gives back PC, sp, STATUS and the loop flags its ring saved, clears the occupied bit and takes three cycles; a
saved ring more privileged than the current one takes PRIV. -/
def Obligations.GateAndReturnResults : Prop :=
  (∀ (s : State) (d1 : Dev) (h : Hart) (n : BitVec 15), Cert.Issues s.dev h 4 d1 → n.toNat < 256 →
     let i := Instr.gate h 0 0 n
     let g := Cert.bits ((d1.stn h.stn).gtab.getD (n.toNat / 8) 0) (8 * (n.toNat % 8) + 7) (8 * (n.toNat % 8))
     let c := (d1.thr h).ring
     let T := g / 16 % 4
     let t := (d1.thr h).done 4
     (g / 128 = 1 ∧ g / 2 ^ c % 2 = 1 ∧ T ≤ c → ∃ x, exec i s = .next x ∧ x.pending = s.pending ∧
       if (d1.thr h).status.getLsbD (12 + T) then Cert.LockedUp d1 x.dev h
       else Cert.OnlyHart d1 x.dev h ∧
         Cert.Entered t (x.dev.thr h) T (Cert.w (n.toNat * 256 + 0x1F : Nat)) 0 t.pc
           ((d1.stn h.stn).gatePc.getD T 0 + Cert.w (64 * n.toNat : Nat))) ∧
     (¬ (g / 128 = 1 ∧ g / 2 ^ c % 2 = 1 ∧ T ≤ c) → Cert.Traps i s d1 h 0x0C 0 n.toNat)) ∧
  (∀ (s : State) (d1 : Dev) (h : Hart), Cert.Issues s.dev h 4 d1 →
     let i := Instr.xret h 0 0 0
     let t := d1.thr h
     let c := t.ring
     let x := t.xst.getD c 0
     (x.toNat % 4 < c → Cert.Traps i s d1 h 2 (Cert.wordA 0x3E 0x021 0 0 0) 0) ∧
     (c ≤ x.toNat % 4 → ∃ u, u = { t.setG 31 (t.xsp.getD c 0) with
         pc := t.xpc.getD c 0, lflags := u.lflags, status := u.status, nointFrom := u.nointFrom, instret := t.instret + 1 } ∧
       (∀ b, b < 3 → u.lflags.getLsbD b = x.getLsbD (16 + b)) ∧
       (∀ b, b < 16 → u.status.getLsbD b = if b < 12 then x.getLsbD b else if b = 12 + c then false else t.status.getLsbD b) ∧
       Cert.Runs i s d1 h 3 u))

/-- R52, R53, R55, R84: NOP has no effect; YIELD switches to the next ready thread; WFI waits unless an unmasked interrupt
pends; TSTART in rings 0 and 1 makes a stopped thread ready at its PC in the caller's ring and does nothing to an enabled one,
and takes PRIV in rings 2 and 3; TSTOP stops the thread, and by thread 0 takes ILLEGAL. -/
def Obligations.ThreadControl : Prop :=
  ∀ (s : State) (d1 : Dev) (h : Hart), Cert.Issues s.dev h 4 d1 →
    let st := d1.stn h.stn
    let t := d1.thr h
    let fin := Cert.after h.thr 4 1 st
    Cert.Runs (.nop h 0 0 0) s d1 h 1 (t.done 4) ∧
    (∃ st2, Cert.StnIs (.yield h 0 0 0) s d1 h.stn st2 ∧ Cert.switched fin h.thr st2) ∧
    (∃ st2, Cert.StnIs (.wfi h 0 0 0) s d1 h.stn st2 ∧
      Cert.switched (if t.ipend &&& t.imask = 0 then fin.updThr h.thr (fun u => { u with wait := .wfi }) else fin) h.thr st2) ∧
    (∀ a b : Fin 32, t.ring < 2 →
      let k := (t.gr a).toNat % 4
      Cert.StnIs (.tstart h 0 a b) s d1 h.stn (Cert.after h.thr 4 1
        (st.updThr k (fun u => if u.enabled then u else { u with
          enabled := true, wait := .ready, pc := Cert.nat ((t.gr b).toNat / 4 * 4),
          status := BitVec.ofNat 16 (u.status.toNat / 4 * 4 + t.ring) })))) ∧
    (∀ a b : Fin 32, 2 ≤ t.ring → Cert.Traps (.tstart h 0 a b) s d1 h 2 (Cert.wordA 0x3E 0x004 0 a b) 0) ∧
    (t.ring < 2 → h.thr ≠ 0 → st.owner ≠ some h.thr →
      ∃ st2, Cert.StnIs (.tstop h 0 0 0) s d1 h.stn st2 ∧
        Cert.switched (Cert.after h.thr 4 1 (st.updThr h.thr (fun u => { u with enabled := false }))) h.thr st2) ∧
    (h.thr = 0 → Cert.Traps (.tstop h 0 0 0) s d1 h 1 (Cert.wordA 0x3E 0x005 0 0 0) 0)

/-- R99, R104, R105, R107, R112: At a boundary MCHK is delivered first, then an imprecise exception, then the lowest deliverable
interrupt, each to its target ring with its cause and the PC of the next instruction. Once interrupts have been off for
NOINT_MAX cycles, NOINT_CNT expires, and STATUS.IE and STATUS.NOINT are set. -/
def Obligations.BoundaryEntries : Prop :=
  ∀ (s : State) (h : Hart), s.dev.canIssue h = true →
    let d := s.dev
    let st := d.stn h.stn
    let t := d.thr h
    let entry (i : Instr) (t1 : Thread) (T : Nat) (cause : Nat) (code : Nat) (xaddr : Word) : Prop :=
      t.status.getLsbD (12 + T) = false → ∃ x, exec i s = .next x ∧ x.pending = s.pending ∧ Cert.OnlyHart d x.dev h ∧
        Cert.Entered t1 { x.dev.thr h with vfault := t1.vfault } T (Cert.nat cause) xaddr t.pc
          (st.xvec.getD T 0 + Cert.nat (64 * code))
    (∀ p, t.mchk = some p → p.target < 4 → p.detail < 256 →
      entry (.mchkDelivery h) { t with mchk := none } p.target (2 ^ 62 + p.multi.toNat * 2 ^ 61 + p.detail * 256 + 0x12) 0x12 p.xaddr) ∧
    (t.mchk = none → t.parith = none → ∀ p, p.target < 4 → p.detail < 256 →
      (t.arith = some p → t.mecmd = none →
        entry (.impreciseDelivery h) { t with arith := none } p.target (2 ^ 62 + p.multi.toNat * 2 ^ 61 + p.detail * 256 + 0x10) 0x10
          p.xaddr) ∧
      (t.mecmd = some p → t.arith = none →
        entry (.impreciseDelivery h) { t with mecmd := none } p.target (2 ^ 62 + p.multi.toNat * 2 ^ 61 + p.detail * 256 + 0x11) 0x11
          p.xaddr)) ∧
    (t.mchk = none → t.parith = none → t.arith = none → t.mecmd = none → ∀ k : Fin 4,
      (t.ipend &&& t.imask).getLsbD k = true → (∀ j : Fin 4, j < k → (t.ipend &&& t.imask).getLsbD j = false) →
      let T := Cert.bits st.xdel1 (2 * k + 1) (2 * k)
      T < t.ring ∨ (T = t.ring ∧ t.ie = true) →
      entry (.interruptEntry h) t T (2 ^ 63 + 32 + k) (32 + k) 0) ∧
    (t.ie = false → st.nointMax.toNat ≤ min 0xFFFF (st.cycle - t.nointFrom) →
      ∃ x, exec (.nointExpiry h) s = .next x ∧ x.pending = s.pending ∧
        Cert.OnlyStation d x.dev h.stn (st.updThr h.thr (fun u => { u with status := (x.dev.thr h).status })) ∧
        ∀ b, b < 16 → (x.dev.thr h).status.getLsbD b = (t.status.getLsbD b || decide (b = 2 ∨ b = 11)))

/-! ### The vector unit -/

/-- R114, R115, R119, R120, R142, R145: SETVL sets VL to at most the elements of its width that a register holds, sets SEW and
writes VL to rd. An integer vector instruction gives each active element its result, wrapping; masked elements keep their value
or become zero, elements past VL stay, and no other register changes; with VL = 0 nothing changes. -/
def Obligations.VectorIntegerResults : Prop :=
  (∀ (s : State) (d1 : Dev) (h : Hart) (rd a : Fin 32) (sew : BitVec 2), Cert.Issues s.dev h 8 d1 →
     let n := min ((d1.thr h).gr a).toNat (16384 / (8 * 2 ^ sew.toNat))
     Cert.Runs (.setvl h { vs3 := 0, km := 0, zm := false, et := 0, rm := 0, sx := false, imm := sew.setWidth 13, vd := rd, vs1 := a, vs2 := 0 })
       s d1 h 1 ((Thread.setG { d1.thr h with vl := BitVec.ofNat 16 n, sew := sew } rd (Cert.nat n)).done 8)) ∧
  (∀ (i : Instr) (s : State) (d1 : Dev) (h : Hart) (f : VF) (g : Nat → Nat → Nat → Nat),
     Cert.viRule i = some (h, f, g) → f.et.toNat ≤ 7 ∧ f.vs3 = 0 ∧ f.rm = 0 ∧ f.imm = 0 → Cert.Issues s.dev h 8 d1 →
     let wd := etWidth f.et.toNat
     let t := d1.thr h
     (t.vl = 0 → Cert.Runs i s d1 h 1 (t.done 8)) ∧
     (Cert.VReady d1 h wd → Cert.VIssues i s d1 h (fun u flags => flags = 0 ∧
       Cert.Elems t u f.vd wd (Cert.each t f (fun j => g wd (Cert.elem t f.vs1 wd j) (Cert.src2 t f wd j))))))

/-- R76, R77, R127 to R129, R145: Each active element is the exact result rounded by QRM and saturated, with FX raised where one
saturates; VSLFSR steps once per active element of a stochastic rounding; everything else stays. -/
def Obligations.VectorFixedPointResults : Prop :=
  ∀ (i : Instr) (s : State) (d1 : Dev) (h : Hart) (f : VF) (g : Int → Int → Int) (n : Nat),
    Cert.vqRule i = some (h, f, g, n) → 14 ≤ f.et.toNat ∧ f.et.toNat ≤ 16 ∧ f.vs3 = 0 ∧ f.rm = 0 ∧ f.imm = 0 → Cert.Issues s.dev h 8 d1 →
    let wd := etWidth f.et.toNat
    let t := d1.thr h
    let x (j : Nat) : Int := Cert.vqAt t f g n j
    Cert.VReady d1 h wd → Cert.VIssues i s d1 h (fun u flags =>
      (∀ b, flags.getLsbD b = (decide (b = 5) && (Cert.ons t f.km).any (fun j => decide (Cert.clampTo wd (x j) ≠ x j)))) ∧
      u.vslfsr = (if t.qrm = 3 ∧ 0 < n then Cert.times Cert.lfsr (Cert.ons t f.km).length t.vslfsr else t.vslfsr) ∧
      Cert.Elems t { u with vslfsr := t.vslfsr } f.vd wd (Cert.each t f (fun j => Cert.mods wd (Cert.clampTo wd (x j)))))

/-- R115, R120, R127, R128, R144: Each active element is the result of its operation in the format of ET, rounded in the
direction of RM, and the flags raised are those of the active elements; everything else stays, and with VL = 0 nothing changes.
-/
def Obligations.VectorFloatResults : Prop :=
  ∀ (i : Instr) (s : State) (d1 : Dev) (h : Hart) (f : VF) (unary rounds : Bool) (g : Fmt → Rnd → Nat → Nat → Nat → Nat × Ev),
    Cert.vfRule i = some (h, f, unary, rounds, g) →
    8 ≤ f.et.toNat ∧ f.et.toNat ≤ 11 ∧ f.vs3 = 0 ∧ f.imm = 0 ∧ Cert.rmLegal rounds f.rm ∧ (unary = true → f.vs2 = 0 ∧ f.sx = false) →
    Cert.Issues s.dev h 8 d1 →
    let F := Cert.floatOf f.et
    let t := d1.thr h
    let x (j : Nat) : Nat × Ev :=
      g F (Cert.dir t f.rm) (Cert.elem t f.vs1 F.w j) (Cert.src2 t f F.w j) (Cert.elem t f.vd F.w j)
    (t.vl = 0 → Cert.Runs i s d1 h 1 (t.done 8)) ∧
    (Cert.VReady d1 h F.w → Cert.VIssues i s d1 h (fun u flags =>
      Cert.Raised flags (Cert.ons t f.km) (fun j => (x j).2) ∧
      Cert.Elems t u f.vd F.w (Cert.each t f (fun j => (x j).1))))

/-- R205, R215: In each of nine floating-point formats and every rounding direction, rounding the finite value of an encoding
gives that encoding, with no event. -/
def Obligations.RepresentableValuesRoundToThemselves : Prop :=
  ∀ (F : Fmt), F ∈ [fp64, fp32, fp16, bf16, e5m2, e4m3, e3m2, e2m3, e2m1] → ∀ (r : Rnd) (x : Nat) (n : Bool) (y : Dy),
    x < 2 ^ F.w → F.decode x = .fin n y → F.fromVal r false (.fin n y, Ev.none) = (x, Ev.none)

/-- R115, R120, R146, R147: VCMP, the predicate operations, KPOPC, KFIRST and VSEL give each predicate bit, count or element as
the rules say; so do the slides, VPERM, VCOMPRESS and VIOTA; everything else stays. -/
def Obligations.VectorPredicateAndPermuteResults : Prop :=
  (∀ (s : State) (d1 : Dev) (h : Hart) (f : VF), Cert.Issues s.dev h 8 d1 →
     let t := d1.thr h
     let wd := etWidth f.et.toNat
     (f.et.toNat ≤ 11 → f.imm.toNat ≤ 5 → f.vs3 = 0 → f.rm = 0 → 0 < f.vd.val → f.vd.val < 16 → Cert.VReady d1 h wd →
       let a (j : Nat) : Nat := Cert.elem t f.vs1 wd j
       let b (j : Nat) : Nat := Cert.src2 t f wd j
       let F := Cert.floatOf f.et
       let nan (j : Nat) : Bool := decide (8 ≤ f.et.toNat) && ((F.decode (a j)).isNan || (F.decode (b j)).isNan)
       let sig (j : Nat) : Bool := (F.decode (a j)).isSnan || (F.decode (b j)).isSnan
       Cert.VIssues (.vcmp h f) s d1 h (fun u flags =>
         (∀ k, flags.getLsbD k = (decide (k = 0) && (Cert.ons t f.km).any (fun j => nan j && (decide (2 ≤ f.imm.toNat) || sig j)))) ∧
         Cert.Preds t u f.vd (fun j => if Cert.on t f.km j then
             some (if nan j then decide (f.imm = 1)
               else if f.et.toNat < 8 then Cert.cond f.imm.toNat (Cert.less f.et.toNat wd (a j) (b j)) (a j == b j)
               else Cert.cond f.imm.toNat ((F.decode (a j)).ltNum (F.decode (b j))) ((F.decode (a j)).eqNum (F.decode (b j))))
           else if f.zm ∧ j < t.vl.toNat then some false else none))) ∧
     (∀ i u1 g, Cert.kRule i = some (h, f, u1, g) → Cert.kFields f → 0 < f.vd.val → f.vd.val < 16 → f.vs1.val < 16 → f.vs2.val < 16 →
       (u1 = true → f.vs2 = 0) → Cert.VReady d1 h 1 → Cert.VIssues i s d1 h (fun u flags => flags = 0 ∧
         Cert.Preds t u f.vd (fun j => if j < t.vl.toNat then some (g (Cert.pbit t f.vs1 j) (Cert.pbit t f.vs2 j)) else none))) ∧
     (Cert.kFields f → f.vs1.val < 16 → f.vs2 = 0 → Cert.VReady d1 h 1 →
       Cert.VIssues (.kpopc h f) s d1 h (fun u flags => flags = 0 ∧
         u = t.setG f.vd (Cert.nat ((List.range t.vl.toNat).countP (fun j => Cert.pbit t f.vs1 j)))) ∧
       Cert.VIssues (.kfirst h f) s d1 h (fun u flags => flags = 0 ∧
         u = t.setG f.vd (match (List.range t.vl.toNat).find? (fun j => Cert.pbit t f.vs1 j) with
           | some j => Cert.nat j
           | none => Cert.w (-1)))) ∧
     (wd ≠ 0 → f.vs3 = 0 → f.rm = 0 → f.imm = 0 → f.zm = false → Cert.VReady d1 h wd →
       Cert.VIssues (.vsel h f) s d1 h (fun u flags => flags = 0 ∧
         Cert.Elems t u f.vd wd (fun j => if j < t.vl.toNat then
           some (if Cert.pbit t f.km j then Cert.elem t f.vs1 wd j else Cert.src2 t f wd j) else none)))) ∧
  (∀ (s : State) (d1 : Dev) (h : Hart) (f : VF), Cert.Issues s.dev h 8 d1 →
     let t := d1.thr h
     let wd := etWidth f.et.toNat
     let k := (t.gr f.vs2).toNat
     let does (i : Instr) (g : Nat → Option Nat) : Prop := Cert.VIssues i s d1 h (fun u flags => flags = 0 ∧ Cert.Elems t u f.vd wd g)
     wd ≠ 0 → f.vs3 = 0 → f.rm = 0 → f.imm = 0 → Cert.VReady d1 h wd →
     (f.sx = false → does (.vslideup h f) (fun j =>
       if Cert.on t f.km j then (if k ≤ j then some (Cert.elem t f.vs1 wd (j - k)) else none)
       else if f.zm ∧ j < t.vl.toNat then some 0 else none)) ∧
     (f.sx = false → does (.vslidedn h f) (Cert.each t f (fun j => if j + k < t.vl.toNat then Cert.elem t f.vs1 wd (j + k) else 0))) ∧
     does (.vperm h f) (Cert.each t f (fun j =>
       if Cert.src2 t f wd j < t.vl.toNat then Cert.elem t f.vs1 wd (Cert.src2 t f wd j) else 0)) ∧
     (f.sx = false → f.vs2 = 0 → f.zm = false → does (.vcompress h f) (fun j => (Cert.ons t f.km)[j]?.map (Cert.elem t f.vs1 wd))) ∧
     (f.sx = false → f.vs2 = 0 → f.vs1 = 0 → f.et.toNat ≤ 7 → does (.viota h f) (Cert.each t f (fun j => j % 2 ^ wd))))

/-- R116, R127, R135, R136, R138, R139: A reduction gives each segment the value of the fixed pairwise tree over its active
elements, with the events of its operations. VTOPK and VTOPKM put the k first candidates, by value and then by index, in rank
order into vd and their indices into vs3, and fill the rest as the rules say. -/
def Obligations.VectorReductionResults : Prop :=
  (∀ (i : Instr) (s : State) (d1 : Dev) (h : Hart) (f : VF) (rounds : Bool) (wo : Nat) (op : Thread → Nat → Nat → Nat × Ev) (ident : Nat)
     (term : Thread → Nat → Nat → Nat × Ev), Cert.redRule i = some (h, f, rounds, wo, op, ident, term) →
     8 ≤ f.et.toNat ∧ f.et.toNat ≤ 11 ∧ f.imm = 0 ∧ f.zm = false ∧ f.sx = false ∧ Cert.rmLegal rounds f.rm ∧
       ((∀ g, i ≠ .vrsexp2 h g) → f.vs3 = 0) → Cert.Issues s.dev h 8 d1 →
     let t := d1.thr h
     let S := (t.gr f.vs2).toNat
     let x (j : Nat) : Nat × Ev := Cert.segment t f S (op t) ident (term t) j
     Cert.VReady d1 h (Cert.floatOf f.et).w → Cert.segs t S * wo ≤ 16384 → Cert.VIssues i s d1 h (fun u flags =>
       Cert.Raised flags (List.range (Cert.segs t S)) (fun j => (x j).2) ∧
       Cert.Elems t u f.vd wo (fun j => if j < Cert.segs t S then some (x j).1 else none))) ∧
  (∀ (s : State) (d1 : Dev) (h : Hart) (f : VF) (merge : Bool), Cert.Issues s.dev h 8 d1 →
     f.et = 2 ∨ f.et = 9 ∨ f.et = 10 ∨ f.et = 11 → f.rm = 0 → f.sx = false → f.zm = false → f.imm.toNat < 32 →
     let t := d1.thr h
     let wd := etWidth f.et.toNat
     let k := min (t.gr f.vs2).toNat 256
     let l := Cert.cands t f merge k
     Cert.VReady d1 h wd → Cert.VIssues (if merge then .vtopkm h f else .vtopk h f) s d1 h (fun u flags => flags = 0 ∧
       u = { t with v := u.v } ∧ (∀ r : Nat, r ≠ f.vd → r ≠ f.vs3 → u.v.getD r 0 = t.v.getD r 0) ∧
       (∀ p, p < l.length → Cert.rank f.et l p < k → Cert.elem u f.vs3 32 (Cert.rank f.et l p) = (l.getD p (0, 0)).2) ∧
       (∀ j, l.length ≤ j → j < k → Cert.elem u f.vs3 32 j = 0xFFFFFFFF) ∧
       (f.vd ≠ f.vs3 →
         (∀ p, p < l.length → Cert.rank f.et l p < k → Cert.elem u f.vd wd (Cert.rank f.et l p) = (l.getD p (0, 0)).1) ∧
         (∀ j, l.length ≤ j → j < k → Cert.elem u f.vd wd j = if f.et = 2 then 2 ^ 31 else (Cert.floatOf f.et).infBits true) ∧
         (∀ j, k ≤ j → wd * j + wd ≤ 16384 → Cert.elem u f.vd wd j = Cert.elem t f.vd wd j) ∧
         (∀ j, k ≤ j → 32 * j + 32 ≤ 16384 → Cert.elem u f.vs3 32 j = Cert.elem t f.vs3 32 j))))

/-- R129, R137, R141, R148: VCVT gives each active element its value rounded to the destination format; VEXP2 and VLOG2 the
function's value, with the exact and special cases in FP32 as the rule says; VBCAST, VMVGV and VMVVG move as described. Flags
are those of the active elements; everything else stays. -/
def Obligations.VectorConversionResults : Prop :=
  (∀ (s : State) (d1 : Dev) (h : Hart) (f : VF), Cert.Issues s.dev h 8 d1 →
     let t := d1.thr h
     let et := f.et.toNat
     let wd := etWidth et
     let src := f.imm.toNat
     (wd ≠ 0 → etWidth src ≠ 0 → src < 32 → f.vs3 = 0 → f.vs2 = 0 → f.sx = false → f.rm.toNat ≤ 5 →
       Cert.VReady d1 h (max wd (etWidth src)) →
       let x (j : Nat) : Nat × Ev := convElem (if f.rm = 5 then .sto (Cert.drawAt t f.km j).toNat else Cert.dir t f.rm) et
         (etVal src (Cert.elem t f.vs1 (etWidth src) j))
       Cert.VIssues (.vcvt h f) s d1 h (fun u flags => Cert.Raised flags (Cert.ons t f.km) (fun j => (x j).2) ∧
         u.vslfsr = (if f.rm = 5 then Cert.times Cert.lfsr (Cert.ons t f.km).length t.vslfsr else t.vslfsr) ∧
         Cert.Elems t { u with vslfsr := t.vslfsr } f.vd wd (Cert.each t f (fun j => (x j).1)))) ∧
     (9 ≤ et → et ≤ 11 → f.rm = 0 → f.vs3 = 0 → f.vs2 = 0 → f.sx = false → f.imm = 0 → Cert.VReady d1 h wd →
       Cert.VIssues (.vexp2 h f) s d1 h (fun u flags =>
         Cert.Raised flags (Cert.ons t f.km) (fun j => (exp2Elem et (Cert.elem t f.vs1 wd j)).2) ∧
         Cert.Elems t u f.vd wd (Cert.each t f (fun j => (exp2Elem et (Cert.elem t f.vs1 wd j)).1))) ∧
       Cert.VIssues (.vlog2 h f) s d1 h (fun u flags =>
         Cert.Raised flags (Cert.ons t f.km) (fun j => (log2Elem et (Cert.elem t f.vs1 wd j)).2) ∧
         Cert.Elems t u f.vd wd (Cert.each t f (fun j => (log2Elem et (Cert.elem t f.vs1 wd j)).1)))) ∧
     (wd ≠ 0 → f.vs3 = 0 → f.vs2 = 0 → f.sx = false → f.rm = 0 → f.imm = 0 →
       (Cert.VReady d1 h wd → Cert.VIssues (.vbcast h f) s d1 h (fun u flags => flags = 0 ∧
         Cert.Elems t u f.vd wd (Cert.each t f (fun _ => (t.gr f.vs1).toNat % 2 ^ wd)))) ∧
       (f.km = 0 → f.zm = false → (d1.stn h.stn).vq.length < 16 → t.status.getLsbD 4 = false →
         Cert.VIssues (.vmvgv h f) s d1 h (fun u flags => flags = 0 ∧
           Cert.Elems t u f.vd wd (fun j => if j = 0 then some ((t.gr f.vs1).toNat % 2 ^ wd) else none)) ∧
         Cert.VIssues (.vmvvg h f) s d1 h (fun u flags => flags = 0 ∧
           u = t.setG f.vd (if et ≤ 3 then Cert.w (Cert.sv wd (Cert.elem t f.vs1 wd 0)) else Cert.nat (Cert.elem t f.vs1 wd 0)))))) ∧
  ((∀ z, z = 0x00000000 ∨ z = 0x80000000 → exp2Elem 9 z = (0x3F800000, Ev.none)) ∧
   exp2Elem 9 0xFF800000 = (0, Ev.none) ∧ exp2Elem 9 0x7F800000 = (0x7F800000, Ev.none) ∧
   (∀ x, 0x43000000 ≤ x → x < 0x7F800000 → exp2Elem 9 x = (0x7F800000, { Ev.none with of := true, nx := true })) ∧
   (∀ n, 1 ≤ n → n < 255 → log2Elem 9 (n * 2 ^ 23) = (fp32.ofVal (.fin (decide (n < 127)) ⟨(n : Int) - 127, 0⟩), Ev.none)) ∧
   (∀ z, z = 0x00000000 ∨ z = 0x80000000 → log2Elem 9 z = (0xFF800000, { Ev.none with dz := true })) ∧
   (∀ x, 0x80000001 ≤ x → x ≤ 0xFF800000 → log2Elem 9 x = (0x7FC00000, Ev.inv)) ∧ log2Elem 9 0x7F800000 = (0x7F800000, Ev.none) ∧
   ∀ x, (0x7F800000 < x ∧ x < 0x80000000) ∨ (0xFF800000 < x ∧ x < 0x100000000) →
     let e := if x / 2 ^ 22 % 2 = 0 then Ev.inv else Ev.none
     exp2Elem 9 x = (0x7FC00000, e) ∧ log2Elem 9 x = (0x7FC00000, e))

/-- R129, R140, R210, R211, R213: VBQ gives each block its scale and each active element its value divided by the scale and
rounded; VBD gives back element times scale, rounded. The source and destination types that IMM13 selects are the model's
Config.blockType, which nothing constrains (log entry 11). -/
def Obligations.BlockScaleResults : Prop :=
  ∀ (s : State) (d1 : Dev) (h : Hart) (f : VF), Cert.Issues s.dev h 8 d1 → f.vs2 = 0 → f.sx = false →
    let t := d1.thr h
    let et := f.et.toNat
    let b := if f.imm.getLsbD 0 then 32 else 16
    (et = 12 ∨ et = 13 ∨ et = 0 ∨ et = 4 → f.zm = false → f.rm.toNat ≤ 5 →
      let ws := etWidth (vbqSrc f)
      let val (j : Nat) : FV := etVal (vbqSrc f) (Cert.elem t f.vs1 ws j)
      let scale (n : Nat) : Nat := blockScale (blkFmt et) (((Cert.ons t f.km).filter (fun j => j / b = n)).map val)
      let x (j : Nat) : Nat × Ev :=
        blockElem (if f.rm = 5 then .sto (Cert.drawAt t f.km j).toNat else Cert.dir t f.rm) (blkFmt et) (scale (j / b)) (val j)
      f.vd ≠ f.vs3 → Cert.VReady d1 h ws → Cert.VIssues (.vbq h f) s d1 h (fun u flags =>
        Cert.Raised flags (Cert.ons t f.km) (fun j => (x j).2) ∧
        u.vslfsr = (if f.rm = 5 then Cert.times Cert.lfsr (Cert.ons t f.km).length t.vslfsr else t.vslfsr) ∧
        u = { t with v := u.v, vslfsr := u.vslfsr } ∧ (∀ r : Nat, r ≠ f.vd → r ≠ f.vs3 → u.v.getD r 0 = t.v.getD r 0) ∧
        (∀ j, j < 2048 → Cert.elem u f.vd 8 j =
          if Cert.on t f.km j then (x j).1 else if j < t.vl.toNat then 0 else Cert.elem t f.vd 8 j) ∧
        ∀ n, n < 2048 → Cert.elem u f.vs3 8 n = if n * b < t.vl.toNat then scale n else Cert.elem t f.vs3 8 n)) ∧
    (et = 9 ∨ et = 11 → f.rm.toNat ≤ 4 → Cert.VReady d1 h (etWidth et) →
      let x (j : Nat) : Nat × Ev :=
        let v := blockVal (blkFmt (vbdSrc f)) (Cert.elem t f.vs3 8 (j / b)) (Cert.elem t f.vs1 8 j)
        (Cert.floatOf f.et).fromVal (Cert.dir t f.rm) false (v, Cert.snan v)
      Cert.VIssues (.vbd h f) s d1 h (fun u flags => Cert.Raised flags (Cert.ons t f.km) (fun j => (x j).2) ∧
        Cert.Elems t u f.vd (etWidth et) (Cert.each t f (fun j => (x j).1))))

/-- R93, R115, R120, R130 to R134: A vector load from the own scratchpad (unit, strided, indexed, or a whole register) puts each
active element's bytes into it, masked elements as ZM says, the rest as before. A load or store with a misaligned active element
takes ALIGN for the lowest such element, which VU_FAULT_ELEM names. -/
def Obligations.VectorLoadResults : Prop :=
  (∀ (i : Instr) (s : State) (d1 d2 : Dev) (h : Hart) (f : VmF) (hit : Bool) (form : VmForm) (locs : List (Nat × TlbE)) (offs : List Nat),
     Cert.vmRule i = some (h, f, hit, form, false) → Cert.vmLegal form false f → Cert.Issues s.dev h 8 d1 →
     (d1.stn h.stn).vq.length < 16 →
     let t := d1.thr h
     let sp := (d1.stn h.stn).sp
     let n := etWidth f.et.toNat / 8
     (form ≠ .wholeV → form ≠ .wholeK → 0 < t.vl.toNat → t.vl.toNat * Cert.vmWide form f ≤ 16384 →
       (∀ j, Cert.on t f.km j = true → (Cert.elemAddr t form f j).toNat % n = 0) →
       Cert.Placed d1 d2 h .load .bulk ((Cert.ons t f.km).map (fun j => ⟨(Cert.elemAddr t form f j).toNat, n, j⟩)) locs offs →
       Cert.VMoves i s d2 h (fun u => Cert.Elems t u f.vd (8 * n) (fun j =>
         if Cert.on t f.km j then (((Cert.ons t f.km).zip offs).lookup j).map (fun o => Cert.le sp o n)
         else if f.zm ∧ j < t.vl.toNat then some 0 else none))) ∧
     (form = .wholeV ∨ form = .wholeK →
       let a := (t.gr f.rs1 + Cert.w f.imm.toInt).toNat
       a % 64 = 0 → Cert.Placed d1 d2 h .load .bulk (Cert.whole a (Cert.wholeSize form)) locs offs →
       let bs := ((Cert.whole a (Cert.wholeSize form)).zip offs).flatMap (fun p => (List.range p.1.size).map (fun j => sp.get (p.2 + j)))
       Cert.VMoves i s d2 h (fun u =>
         (form = .wholeV → u = { t with v := u.v } ∧ (∀ r : Nat, r ≠ f.vd → u.v.getD r 0 = t.v.getD r 0) ∧
           ∀ j, j < 2048 → Cert.elem u f.vd 8 j = (bs.getD j 0).toNat) ∧
         (form = .wholeK → u = { t with k := u.k } ∧ (∀ r : Nat, r ≠ f.vd → u.k.getD r 0 = t.k.getD r 0) ∧
           ∀ j, j < 2048 → (u.k.getD f.vd 0).getLsbD j = (bs.getD (j / 8) 0).getLsbD (j % 8))))) ∧
  (∀ (i : Instr) (s : State) (d1 : Dev) (h : Hart) (f : VmF) (hit st : Bool) (form : VmForm) (j : Nat),
     Cert.vmRule i = some (h, f, hit, form, st) → Cert.vmLegal form st f → Cert.Issues s.dev h 8 d1 →
     (d1.stn h.stn).vq.length < 16 →
     let t := d1.thr h
     let n := etWidth f.et.toNat / 8
     form ≠ .wholeV → form ≠ .wholeK → 0 < t.vl.toNat → t.vl.toNat * Cert.vmWide form f ≤ 16384 →
     Cert.on t f.km j = true → (Cert.elemAddr t form f j).toNat % n ≠ 0 →
     (∀ m, m < j → Cert.on t f.km m = true → (Cert.elemAddr t form f m).toNat % n = 0) →
     Cert.VTraps i s d1 h 3 (Cert.elemAddr t form f j) j)

/-- R115, R120, R130 to R134: A vector store to the own scratchpad writes the bytes of its active elements, or of its whole
register, at the addresses of its form in ascending order of elements; every other byte, register and unit stays. -/
def Obligations.VectorStoreResults : Prop :=
  ∀ (i : Instr) (s : State) (d1 d2 : Dev) (h : Hart) (f : VmF) (hit : Bool) (form : VmForm) (locs : List (Nat × TlbE)) (offs : List Nat),
    Cert.vmRule i = some (h, f, hit, form, true) → Cert.vmLegal form true f → Cert.Issues s.dev h 8 d1 →
    (d1.stn h.stn).vq.length < 16 →
    let t := d1.thr h
    let sp := (d1.stn h.stn).sp
    let n := etWidth f.et.toNat / 8
    let bytes (x m : Nat) : List Byte := (List.range m).map (Cert.byteOf x)
    let stores (l : List (Nat × List Byte)) : Prop :=
      ∃ y st, exec i s = .next y ∧ y.pending = s.pending ∧ Cert.OnlyStation d2 y.dev h.stn st ∧
        st.sp = l.foldl (fun m q => m.writeBytes q.1 q.2) sp ∧ st.thr h.thr = Thread.land ((d2.stn h.stn).cycle + 1) (t.done 8) ∧
        st.vq.length = (d2.stn h.stn).vq.length + 1 ∧ st.tiles = (d2.stn h.stn).tiles ∧ st.eng = (d2.stn h.stn).eng
    (form ≠ .wholeV → form ≠ .wholeK → 0 < t.vl.toNat → t.vl.toNat * Cert.vmWide form f ≤ 16384 →
      (∀ j, Cert.on t f.km j = true → (Cert.elemAddr t form f j).toNat % n = 0) →
      Cert.Placed d1 d2 h .store .bulk ((Cert.ons t f.km).map (fun j => ⟨(Cert.elemAddr t form f j).toNat, n, j⟩)) locs offs →
      stores ((offs.zip (Cert.ons t f.km)).map (fun p => (p.1, bytes (Cert.elem t f.vd (8 * n) p.2) n)))) ∧
    (form = .wholeV ∨ form = .wholeK →
      let a := (t.gr f.rs1 + Cert.w f.imm.toInt).toNat
      let x := if form = .wholeV then (t.v.getD f.vd 0).toNat else if f.vd = 0 then 2 ^ 2048 - 1 else (t.k.getD f.vd 0).toNat
      let l := Cert.whole a (Cert.wholeSize form)
      a % 64 = 0 → Cert.Placed d1 d2 h .store .bulk l locs offs →
      stores ((offs.zip l).zipIdx.map (fun p =>
        (p.1.1, bytes (if p.2 = 0 then x else x / 2 ^ (8 * (l.headD ⟨0, 0, 0⟩).size)) p.1.2.size))))

/-- R92, R108, R110, R124 to R126, R128: When the oldest vector instruction completes its flags become sticky, an enabled event
makes ARITH pend with the instruction's address, and a thread that waited for it in precise mode goes on. In precise mode an
integer vector instruction writes its result and its thread waits. A lane group idle for VU_PGCTL.IDLE cycles that no queued
instruction needs is gated. -/
def Obligations.VectorCompletion : Prop :=
  (∀ (s : State) (n : Fin 128) (k : Fin 4) (e : VqEntry) (r : List VqEntry),
     let st := s.dev.stn n
     let t := st.thr k
     st.vq = e :: r → e.thr = k → st.locked = false → st.held = false →
     let i := Instr.vectorInstructionComplete n
     let flagged (u : Thread) : Thread := { u with vflags := u.vflags ||| e.ev.vuBits }
     let p : PendX := { xaddr := e.addr, detail := (e.ev.enabled e.axen).toNat,
                        target := min e.ring (Cert.bits st.xdel0 33 32), multi := false, order := st.xorder, elem := e.elem }
     (e.ev.enabled e.axen = 0 → t.wait = .ready → Cert.StnIs i s s.dev n ({ st with vq := r }.updThr k flagged)) ∧
     (e.ev.enabled e.axen ≠ 0 → e.precise = false → t.wait = .ready →
       Cert.StnIs i s s.dev n ({ st with vq := r, xorder := st.xorder + 1 }.updThr k (fun u =>
         { flagged u with arith := some (match u.arith with
             | some q => { q with multi := true }
             | none => p) }))) ∧
     (e.ev.enabled e.axen = 0 → e.precise = true → t.wait = .precise → t.enabled = true → st.running = none →
       ∃ x, exec i s = .next x ∧ x.pending = s.pending ∧ x.dev = { s.dev with stns := x.dev.stns } ∧
         (x.dev.stn n).running = some k ∧ (x.dev.stn n).vq = r ∧
         ((x.dev.stn n).thr k).wait = .ready ∧ ((x.dev.stn n).thr k).vflags = t.vflags ||| e.ev.vuBits ∧
         ((x.dev.stn n).thr k).pc = t.pc ∧ ((x.dev.stn n).thr k).v = t.v)) ∧
  (∀ (i : Instr) (s : State) (d1 : Dev) (h : Hart) (f : VF) (g : Nat → Nat → Nat → Nat),
     Cert.viRule i = some (h, f, g) → f.et.toNat ≤ 7 ∧ f.vs3 = 0 ∧ f.rm = 0 ∧ f.imm = 0 → Cert.Issues s.dev h 8 d1 →
     let wd := etWidth f.et.toNat
     let t := d1.thr h
     0 < t.vl.toNat → t.vl.toNat * wd ≤ 16384 → (d1.stn h.stn).vq.length < 16 → t.status.getLsbD 4 = true →
     ∃ x u e, exec i s = .next x ∧ x.pending = s.pending ∧ Cert.Waits x.dev h .precise ∧ (x.dev.stn h.stn).vq = (d1.stn h.stn).vq ++ [e] ∧
       e.precise = true ∧ (x.dev.thr h).v = u.v ∧ (x.dev.thr h).pc = (t.done 8).pc ∧
       Cert.Elems t u f.vd wd (Cert.each t f (fun j => g wd (Cert.elem t f.vs1 wd j) (Cert.src2 t f wd j)))) ∧
  (∀ (s : State) (n : Fin 128) (g : Fin 8), let st := s.dev.stn n
     st.locked = false → st.held = false → st.pgEn = true → st.pgOn.getLsbD g = true → (∀ e ∈ st.vq, e.groups ≤ g) →
     st.pgIdle.toNat ≤ st.cycle - st.pgLast.getD g 0 →
     ∃ x, exec (.laneGroupGate n g) s = .next x ∧ x.pending = s.pending ∧
       Cert.OnlyStation s.dev x.dev n { st with pgOn := (x.dev.stn n).pgOn } ∧
       ∀ b, (x.dev.stn n).pgOn.getLsbD b = (st.pgOn.getLsbD b && decide (b ≠ g.val)))

/-! ### Tile registers -/

/-- R149 to R160, R165 to R168: TSHAPE sets a legal shape at once or waits for the tile, and faults on an illegal one; TFILL and
TDUMP move a tile's rows between it and the own scratchpad, TBLANK zeroes it, TWV and TRV move one row, and an unshaped tile or
a row outside it takes TILE_SHAPE with TC_FAULT; every other tile, byte and register stays. -/
def Obligations.TileResults : Prop :=
  ∀ (s : State) (d1 : Dev) (h : Hart) (f : TF), Cert.Issues s.dev h 8 d1 → (d1.stn h.stn).owns h.thr = true →
    (d1.thr h).status.getLsbD 4 = false →
    let t := d1.thr h
    let st := d1.stn h.stn
    let n : Nat := f.tn
    let cfg := (st.tcfg.getD n 0).toNat
    let free := st.eng.hasBlock = false ∧ st.tileUsed n = false
    let size := Cert.cfRows cfg * Cert.cfRow cfg
    let v := (t.gr f.rs1).toNat % 2 ^ 32 ||| f.imm.toNat
    let row := (t.gr f.rs1).toNat
    let issued (i : Instr) (wr : Bool) (g : Nat → Byte) : Prop := ∃ st2, Cert.TileIs st st2 n (st.tops ++ [⟨n, wr, none, false⟩]) g ∧
      Cert.StnIs i s d1 h.stn (Cert.after h.thr 8 1 st2)
    (f.rd = 0 → f.rs2 = 0 →
      (Cert.cfLegal v → v = cfg → Cert.Runs (.tshape h f) s d1 h 1 (t.done 8)) ∧
      (Cert.cfLegal v → v ≠ cfg → free → ∃ st2, st2 = { st with tcfg := st.tcfg.set n (BitVec.ofNat 32 v), tgen := st2.tgen } ∧
        Cert.StnIs (.tshape h f) s d1 h.stn (Cert.after h.thr 8 1 st2)) ∧
      (Cert.cfLegal v → v ≠ cfg → ¬ free → ∃ x, exec (.tshape h f) s = .next x ∧ x.pending = s.pending ∧
        Cert.Waits x.dev h (.shape f) ∧ (x.dev.stn h.stn).tcfg = st.tcfg) ∧
      (¬ Cert.cfLegal v → Cert.TileTraps (.tshape h f) s d1 h 0x0E
        (Cert.tcFaultIs n cfg (Cert.cfRows v) (Cert.cfRow v / 16) (Cert.cfFmt v) 1))) ∧
    (f.rd = 0 → (t.gr f.rs1 + Cert.w f.imm.toInt).toNat % 16 = 0 → (t.gr f.rs2).toNat % 16 = 0 →
      (cfg = 0 → Cert.TileTraps (.tfill h f) s d1 h 0x0D (Cert.tcFaultIs n 0 0 0 0 2) ∧
        Cert.TileTraps (.tdump h f) s d1 h 0x0D (Cert.tcFaultIs n 0 0 0 0 3)) ∧
      (cfg ≠ 0 → free → ∀ d2 locs offs,
        let l := Cert.rowsAt t f cfg
        (Cert.Placed d1 d2 h .load .bulk l locs offs →
          let bs := (l.zip offs).flatMap (fun p => (List.range p.1.size).map (fun j => st.sp.get (p.2 + j)))
          ∃ st2, Cert.TileIs (d2.stn h.stn) st2 n (st.tops ++ [⟨n, true, none, false⟩])
              (fun b => if b < size then bs.getD b 0 else Cert.tbyte st n b) ∧
            Cert.StnIs (.tfill h f) s d2 h.stn (Cert.after h.thr 8 1 st2)) ∧
        (Cert.Placed d1 d2 h .store .bulk l locs offs →
          ∃ st2, st2 = { d2.stn h.stn with tops := st.tops ++ [⟨n, false, none, false⟩], spPoison := st2.spPoison, sp :=
              (offs.zip (List.range l.length)).foldl (fun m p => m.writeBytes p.1
                ((List.range (l.getD p.2 ⟨0, 0, 0⟩).size).map (fun j => Cert.tbyte st n (Cert.before l p.2 + j)))) st.sp } ∧
            Cert.StnIs (.tdump h f) s d2 h.stn (Cert.after h.thr 8 1 st2)))) ∧
    (f.rd = 0 → f.rs1 = 0 → f.rs2 = 0 → f.imm = 0 → cfg ≠ 0 → free →
      issued (.tblank h f) true (fun b => if b < size then 0 else Cert.tbyte st n b)) ∧
    (f.rs2 = 0 → f.imm = 0 →
      (Cert.cfRows cfg ≤ row → Cert.TileTraps (.trv h f) s d1 h 0x0D (Cert.tcFaultIs n cfg (min (row + 1) 0x7FF) 0 0 5)) ∧
      (row < Cert.cfRows cfg → free →
        issued (.twv h f) true (fun b =>
          if row * Cert.cfRow cfg ≤ b ∧ b < (row + 1) * Cert.cfRow cfg then BitVec.ofNat 8 (Cert.elem t f.rd 8 (b - row * Cert.cfRow cfg))
          else Cert.tbyte st n b) ∧
        ∃ u, Cert.Elems t u f.rd 8 (fun b => if b < Cert.cfRow cfg then some (Cert.tbyte st n (row * Cert.cfRow cfg + b)).toNat else none) ∧
          Cert.StnIs (.trv h f) s d1 h.stn
            ((Station.updThr { st with tops := st.tops ++ [⟨n, false, none, false⟩] } h.thr (fun _ => u.done 8)).pass 1)))

/-- R153, R157, R160 to R163: TACQ takes a free engine, or writes 0 or waits where another thread owns it; TREL releases it at
once or leaves the release pending while operations run; a pending release ends with the ownership going to the first waiting
thread after the releasing one. The oldest tile operation retires, and a TSHAPE that waited for its tile takes effect. -/
def Obligations.OwnershipResults : Prop :=
  ((∀ (s : State) (d1 : Dev) (h : Hart) (rd : Fin 32) (b : BitVec 32), Cert.Issues s.dev h 8 d1 → b.toNat < 2 →
     let st := d1.stn h.stn
     let f : TF := ⟨rd, 0, 0, 0, b⟩
     (st.owner = none → Cert.StnIs (.tacq h f) s d1 h.stn
       ((({ st with owner := some h.thr }).updThr h.thr (fun t => (t.setG rd 1).done 8)).pass 1)) ∧
     (∀ k, st.owner = some k → (k ≠ h.thr ∨ st.ownPend = true) →
       (b = 1 → Cert.Runs (.tacq h f) s d1 h 1 (((d1.thr h).setG rd 0).done 8)) ∧
       (b = 0 → ∃ x, exec (.tacq h f) s = .next x ∧ x.pending = s.pending ∧ Cert.Waits x.dev h (.tacq rd) ∧
         (x.dev.stn h.stn).owner = some k)) ∧
     (let i := Instr.trel h ⟨0, 0, 0, 0, 0⟩
      (st.owns h.thr = false → Cert.Runs i s d1 h 1 ((d1.thr h).done 8)) ∧
      (st.owns h.thr = true → st.engIdle = false → Cert.StnIs i s d1 h.stn { Cert.after h.thr 8 1 st with ownPend := true }) ∧
      (st.owns h.thr = true → st.engIdle = true → (∀ k : Fin 4, st.inTacq k = false) →
        Cert.StnIs i s d1 h.stn { Cert.after h.thr 8 1 st with owner := none, ownPend := false }))) ∧
   ∀ (s : State) (n : Fin 128) (k : Fin 4), let st := s.dev.stn n
     Cert.Live st → st.owner = some k → st.ownPend = true → st.engIdle = true →
     ((∀ j : Fin 4, st.inTacq j = false) → Cert.StnIs (.ownershipFree n) s s.dev n { st with owner := none, ownPend := false }) ∧
     ∀ (j : Fin 4) rd, (st.thr j).wait = .tacq rd → (st.thr j).enabled = true →
       (∀ m : Nat, 1 ≤ m → (∀ q : Nat, 1 ≤ q → q ≤ m → (k.val + q) % 4 ≠ j.val) → ∀ i : Fin 4, i.val = (k.val + m) % 4 → st.inTacq i = false) →
       ∃ x, exec (.ownershipFree n) s = .next x ∧ x.pending = s.pending ∧ (x.dev.stn n).owner = some j ∧ (x.dev.stn n).ownPend = false ∧
         ((x.dev.stn n).thr j).wait = .ready ∧ ((x.dev.stn n).thr j).gr rd = (if rd = 0 then 0 else 1) ∧
         ((x.dev.stn n).thr j).pc = ((st.thr j).done 8).pc) ∧
  (∀ (s : State) (n : Fin 128) (o : TileOp) (r : List TileOp), let st := s.dev.stn n
     Cert.Live st → st.tops = o :: r →
     (Cert.NoWaiter st → o.prec = none → Cert.StnIs (.tileOperationRetire n) s s.dev n { st with tops := r }) ∧
     (∀ (k : Fin 4) f, (st.thr k).wait = .shape f → (st.thr k).enabled = true → (∀ j : Fin 4, j ≠ k → (st.thr j).wait = .ready) →
       o.prec = none → st.eng.hasBlock = false → (∀ x ∈ r, x.tile ≠ f.tn) → st.eng.queue = [] →
       ∃ x, exec (.tileOperationRetire n) s = .next x ∧ x.pending = s.pending ∧ ((x.dev.stn n).thr k).wait = .ready ∧
         (x.dev.stn n).tcfg = st.tcfg.set f.tn (BitVec.ofNat 32 (((st.thr k).gr f.rs1).toNat % 2 ^ 32 ||| f.imm.toNat)) ∧
         (x.dev.stn n).tops = r ∧ ((x.dev.stn n).thr k).pc = ((st.thr k).done 8).pc))

/-! ### The matrix engine -/

/-- R164, R176 to R190, R195, R240 to R246, R259: With no command block queued, a free entry and its checks passed, MEB, MEA,
MEACC, MEST, MEGO and MERUN put their operation into the engine's queue with the latched settings; MEB reuses a buffer that
already holds its tile. MESYNC waits for the entries before it. A full queue makes the thread wait; a thread that does not own
takes TILE_OWN. -/
def Obligations.EngineInstructionResults : Prop :=
  ∀ (s : State) (d1 : Dev) (h : Hart), Cert.Issues s.dev h 8 d1 →
    let t := d1.thr h
    let st := d1.stn h.stn
    let e := st.eng
    let ceil := d1.capL
    let into (i : Instr) (st2 : Station) : Prop := Cert.StnIs i s d1 h.stn (Cert.after h.thr 8 1 st2)
    let touched : Engine := { e with gap := 0, rising := e.rising || decide (e.level < ceil) }
    (e.queue = [] → Cert.Runs (.mesync h ⟨0, 0, 0, 0, 0⟩) s d1 h 1 (t.done 8)) ∧
    (e.queue ≠ [] → ∃ x, exec (.mesync h ⟨0, 0, 0, 0, 0⟩) s = .next x ∧ x.pending = s.pending ∧ Cert.Waits x.dev h (.sync e.nextId)) ∧
    (st.owns h.thr = true → t.status.getLsbD 4 = false → e.hasBlock = false → e.count < 8 →
      (∀ (tn : Fin 8) (c : BitVec 32), let f : TF := ⟨0, 0, 0, tn, c⟩
        let ent := Cert.moveOf tn c.toNat
        let tr := c.getLsbD 8
        let b := match e.lastUsed with
          | some x => 1 - x
          | none => 0
        (ctlOk false tn c.toNat = true → st.shapeErr .meb tn (bShape ent.fmt tr) = none →
          (ent.bs ≠ 0 → st.shapeErr .meb ent.stile (bScaleShape ent.fmt ent.bs tr) = none) →
          (st.reuse? ent tr = none →
            into (.meb h f) { st with eng := { Cert.queued e ceil (.meb ent tr b false) false with sbuf := b, bInfo := some ent } }) ∧
          (∀ x, st.reuse? ent tr = some x →
            into (.meb h f) { st with reuseStat := st.reuseStat + 1, eng := { touched with sbuf := x, bInfo := some ent } })) ∧
        (∀ wd, ctlOk false tn c.toNat = true → st.shapeErr .meb tn (bShape ent.fmt tr) = some wd →
          Cert.TileTraps (.meb h f) s d1 h 0x0D wd) ∧
        (let l := if e.aNew then [] else e.alist
         ctlOk true tn c.toNat = true → st.aShapeErr .mea ent = none → l.length < 2 →
           st.aRows l + Cert.cfRows (st.cfg tn) ≤ aCap ent.fmt →
           into (.mea h f) { st with eng := { touched with alist := l ++ [ent], aNew := false } }) ∧
        (let cfg := st.cfg tn
         let per := if Cert.cfFmt cfg = 1 then 2 else 1
         let row0 := c.toNat % 256
         c.toNat < 256 → (Cert.cfFmt cfg = 1 ∧ row0 % 2 = 0 ∧ Cert.cfRow cfg = 1024) ∨
             ((Cert.cfFmt cfg = 2 ∨ Cert.cfFmt cfg = 12) ∧ Cert.cfRow cfg = 512) → row0 + per * Cert.cfRows cfg ≤ 256 →
           into (.meacc h f) { st with eng := Cert.queued e ceil (.meacc false tn row0) false })) ∧
      into (.meacc h ⟨0, 0, 0, 0, 256⟩) { st with eng := Cert.queued e ceil (.meacc true 0 0) false } ∧
      (∀ a : Fin 32, let desc := t.gr a
        let d : Drn := { desc := desc, rm := e.rm, ovm := e.ovm, daddr := e.daddr, spaddr := e.spaddr, wseq := e.wseq,
                         by_ := Cert.raiserOf d1 h, auto := false, started := false, swapped := !desc.getLsbD 4, next := 0, ev := Ev.none }
        drnOk desc = true → e.areasOk desc = true → (∀ p ∈ drnShapes desc, st.shapeErr .mest p.1 p.2 = none) →
        into (.mest h ⟨0, a, 0, 0, 0⟩) { st with eng := { Cert.queued e ceil (.mest d) false with
          spctl := if desc.getLsbD 4 then Cert.nat (e.spctl.toNat % 2 ^ 47) else e.spctl } }) ∧
      (∀ (a : Fin 32) b0 a0 rest, let desc := t.gr a
        let row0 := desc.toNat / 2 ^ 16 % 256
        let l := a0 :: rest
        let f64 := fmtGroup b0.fmt = 7
        let swap := desc.getLsbD 1
        let op : EngOp :=
          { acc := desc.getLsbD 0, swap := swap, tag := desc.toNat / 2 ^ 8 % 256, row0 := row0, rows := st.aRows l, buf := e.sbuf,
            alist := l, kstep := e.kstep, wseq := e.wseq, ovm := e.ovm, by_ := Cert.raiserOf d1 h, started := false,
            swapped := !swap, next := 0, failed := false, retried := false, ev := Ev.none }
        let n := min (if swap then 1 else e.spctl.toNat / 2 ^ 47 + 1) 0x1FFFF
        desc.toNat / 2 ^ 24 = 1 → desc.toNat / 2 ^ 2 % 64 = 0 → e.bInfo = some b0 → e.alist = l →
        (∀ x ∈ l, st.aShapeErr .mego x = none ∧ fmtGroup x.fmt = fmtGroup b0.fmt ∧ x.bs = b0.bs) → (f64 → row0 % 2 = 0) →
        row0 + (if f64 then 2 else 1) * st.aRows l ≤ 256 → e.spctl.getLsbD 41 = false →
        into (.mego h ⟨0, a, 0, 0, 0⟩) { st with eng := { Cert.queued e ceil (.mego op) true with
          kstep := e.kstep + 1, lastUsed := some e.sbuf, aNew := true, spctl := Cert.nat (e.spctl.toNat % 2 ^ 47 + n * 2 ^ 47) } }) ∧
      ∀ (a : Fin 32) (c : BitVec 32), into (.merun h ⟨0, a, 0, 0, c⟩) { st with eng := { Cert.queued e ceil
        (.merun (t.gr a + Cert.w c.toInt) (Cert.raiserOf d1 h) false) false with aNew := true } }) ∧
    (st.owns h.thr = true → 8 ≤ e.count → ∀ a c, ∃ x, exec (.merun h ⟨0, a, 0, 0, c⟩) s = .next x ∧ x.pending = s.pending ∧
      Cert.Waits x.dev h .score ∧ (x.dev.stn h.stn).eng = e) ∧
    (st.owns h.thr = false → ∀ a c, Cert.Traps (.merun h ⟨0, a, 0, 0, c⟩) s d1 h 0x0F 0 0)

/-- R179, R182, R186 to R188, R195, R238, R239: A stationary load reads its tile into its buffer and ends, an operation starts
when what precedes it allows, a swap exchanges the sets, a MEACC zeroes or loads rows of the active set and ends, and a ballast
step moves the engine's level towards what its work asks for, at most to the cap. -/
def Obligations.EngineStepResults : Prop :=
  ∀ (s : State) (n : Fin 128) (pre post : List QEntry) (q : QEntry), let st := s.dev.stn n
    let e := st.eng
    let into (i : Instr) (e2 : Engine) : Prop := Cert.StnIs i s s.dev n { st with eng := e2 }
    ((Cert.Live st → e.queue = pre ++ q :: post →
      (∀ ent tr b, q.kind = .meb ent tr b false → (∀ x ∈ pre, ∀ y tr2 b2 z, x.kind ≠ .meb y tr2 b2 z) → b < 2 →
        (∀ x ∈ pre, ∀ o, x.kind = .mego o → o.buf ≠ b) → qWrites pre ent.tiles = false → st.topWrites ent.tiles = false →
        Cert.passes pre q →
        let sb : SBuf := { ent := ent, tr := tr, data := st.tiles.getD ent.tile Mem.empty,
                           scale := if ent.bs = 0 then Mem.empty else st.tiles.getD ent.stile Mem.empty,
                           gen := st.tgen.getD ent.tile 0, sgen := st.tgen.getD ent.stile 0 }
        into (.stationaryLoad n) { e with
          queue := Cert.withKind e.queue q (.meb ent tr b true), latch := some b,
          sbuf0 := if b = 0 then some sb else e.sbuf0, sbuf1 := if b = 1 then some sb else e.sbuf1 }) ∧
      (∀ ent tr b, q.kind = .meb ent tr b true → (∀ x ∈ pre, ∀ y tr2 b2, x.kind ≠ .meb y tr2 b2 true) → q.setp = none → q.prec = none →
        Cert.NoWaiter st → into (.stationaryLoadEnd n) { e with queue := Cert.without e.queue q }) ∧
      (∀ o, q.kind = .mego o → o.started = false → (∀ x ∈ pre, ∀ p, x.kind = .mego p → p.started = true) →
        (∀ x ∈ pre, x.isAcc = false ∧ ∀ y tr b z, x.kind = .meb y tr b z → b ≠ o.buf) →
        qWrites pre (o.alist.flatMap AEnt.tiles) = false → st.topWrites (o.alist.flatMap AEnt.tiles) = false → s.dev.capL ≤ e.level →
        Cert.passes pre q →
        into (.operationStart n) { e with queue := Cert.withKind e.queue q (.mego { o with started := true }), gap := 0 }) ∧
      (∀ o, q.kind = .mego o → o.started = true → o.swapped = false →
        (∀ x ∈ pre, x.unswapped = false ∧ x.isGo = false ∧ x.isAcc = false ∧ x.reading = false) →
        into (.swap n) { e with queue := Cert.withKind e.queue q (.mego { o with swapped := true }), aset := 1 - e.aset }) ∧
      (∀ zero tile row0, q.kind = .meacc zero tile row0 → (∀ x ∈ pre, x.isAcc = false ∧ x.isGo = false ∧ x.unswapped = false) →
        Cert.passes pre q → q.setp = none → q.prec = none → Cert.NoWaiter st →
        (zero = true → into (.meaccEnd n) { e with
          queue := Cert.without e.queue q, acc0 := if e.aset = 0 then AccSet.zero else e.acc0,
          acc1 := if e.aset = 0 then e.acc1 else AccSet.zero }) ∧
        (zero = false → Cert.cfFmt (st.cfg tile) = 2 → Cert.cfRow (st.cfg tile) = 512 → qWrites pre [tile] = false →
          st.topWrites [tile] = false → ∃ e2, into (.meaccEnd n) e2 ∧
          e2 = { e with queue := Cert.without e.queue q, acc0 := e2.acc0, acc1 := e2.acc1 } ∧ e2.shadow = e.shadow ∧
          ∀ row c, c < 128 → e2.active.get row c =
            if row0 ≤ row ∧ row < row0 + Cert.cfRows (st.cfg tile)
            then Cert.nat (Cert.le (st.tiles.getD tile Mem.empty) ((row - row0) * 512 + 4 * c) 4) else e.active.get row c)))) ∧
    ∃ e2, into (.ballastStep n) e2 ∧ e2 = { e with level := Cert.levelAfter e s.dev.capL, gap := e2.gap, rising := e2.rising, falling := e2.falling }

/-- R172, R183, R197 to R200, R215 to R218, R225: A row of the first running operation that checks is committed: the row of the
active set becomes the rounded sum of its exact contributions with the old value, with its flags; a row that does not check is
streamed again and changes no set; its second mismatch commits poison, counts it and makes MCHK pend. -/
def Obligations.RowCommitResults : Prop :=
  ∀ (s : State) (n : Fin 128) (q : QEntry) (post : List QEntry) (o : EngOp) (a : AEnt) (r : Nat) (b : SBuf) (mis : Bool),
    let st := s.dev.stn n
    let e := st.eng
    Cert.Live st → e.queue = q :: post → q.kind = .mego o → o.started = true → o.swapped = true → o.next + 1 < o.rows →
    st.rowOf o.alist o.next = some (a, r) → e.buf o.buf = some b →
    let av (k : Nat) : FV := st.aElem a r k
    let ps := (List.range 128).map (fun c => passOf (fmtK a.fmt) av (fun k => b.elem k c))
    let chk := rowCheck a (fmtK a.fmt) av b.elem ps
    let row := if fmtGroup a.fmt = 7 then o.row0 + 2 * o.next else o.row0 + o.next
    let res := commitRow o a e.active row ps
    let bad := chk ≠ .skip ∧ (mis = true ∨ chk = .fail)
    let i := Instr.rowCommit n mis
    (¬ bad → o.failed = false → ∃ x, exec i s = .next x ∧ x.pending = s.pending ∧ x.dev = { s.dev with stns := x.dev.stns } ∧
      let e2 := (x.dev.stn n).eng
      e2.queue = Cert.withKind e.queue q (.mego { o with next := o.next + 1, ev := o.ev.or res.ev }) ∧ e2.shadow = e.shadow ∧
      e2.flags = e.flags ||| res.ev.meBits ∧ (x.dev.stn n).phFlags = st.phFlags ||| res.ev.phaseBits ∧
      e2.skipped = (if chk = .skip then e.skipped + 1 else e.skipped) ∧ e2.fails = e.fails ∧ e2.retries = e.retries ∧
      ∀ m c, c < 128 → e2.active.get m c =
        if m = row then res.lo.getD c 0
        else match res.hi with
          | some hi => if m = row + 1 then hi.getD c 0 else e.active.get m c
          | none => e.active.get m c) ∧
    (bad → o.failed = false → ∃ x, exec i s = .next x ∧ x.pending = s.pending ∧
      let e2 := (x.dev.stn n).eng
      e2.queue = Cert.withKind e.queue q (.mego { o with failed := true, retried := true }) ∧ e2.acc0 = e.acc0 ∧ e2.acc1 = e.acc1 ∧
      e2.flags = e.flags ∧ e2.fails = e.fails) ∧
    (bad → o.failed = true → o.by_.thr < 4 → ∃ x, exec i s = .next x ∧ x.pending = s.pending ∧
      let e2 := (x.dev.stn n).eng
      (e.fails ≠ 0xFFFF → e2.fails = e.fails + 1) ∧ e2.retreq = true ∧ e2.shadow = e.shadow ∧
      ((x.dev.stn n).thr o.by_.thr).mchk.isSome = true ∧
      ∀ c, c < 128 → e2.active.get row c =
        if exactGroup a then 0x8000000000000000 else if fmtGroup a.fmt = 7 then 0x7FF8000000000000 else 0x7FC00000)

/-- R239, R243, R246, R247: A drain starts once what precedes it is done, swapping the sets; each of its rows of FP32 entries is
converted and written to its row of the destination tile, every other byte as before, and the set's row is cleared where asked;
when all rows are out it retires. -/
def Obligations.DrainResults : Prop :=
  ∀ (s : State) (n : Fin 128) (pre post : List QEntry) (q : QEntry) (d : Drn), let st := s.dev.stn n
    let e := st.eng
    Cert.Live st → e.queue = pre ++ q :: post → q.kind = .mest d → (∀ x ∈ pre, x.isDrn = false) →
    (d.started = false → (∀ x ∈ pre, x.unswapped = false) →
      (d.swapped = false → ∀ x ∈ pre, x.isGo = false ∧ x.isAcc = false ∧ x.reading = false) →
      (∀ m ∈ q.kind.writes, (∀ o ∈ st.tops, o.tile ≠ m) ∧ ∀ x ∈ pre, m ∉ x.kind.reads) → st.topWrites q.kind.reads = false →
      (drnScratch d.desc = true → st.spState = 0) →
      Cert.StnIs (.drainStart n) s s.dev n { st with eng := { e with
        queue := Cert.withKind e.queue q (.mest { d with started := true, swapped := true }),
        aset := if d.swapped then e.aset else 1 - e.aset } }) ∧
    (d.started = true → d.next < drnOut d.desc → drnMode d.desc = 0 → drnGrp d.desc = 0 → drnMerge d.desc = false →
      drnBs d.desc = 0 → drnStats d.desc = false → drnCausal d.desc = false → d.desc.toNat / 2 ^ 43 % 8 = 0 →
      drnFmt d.desc = 2 → d.rm ≠ 4 → Cert.cfRow (st.cfg (d.desc.toNat / 2 ^ 32 % 8)) = 512 → drnDseg d.desc = 0 →
      ∃ x, exec (.drainRow n) s = .next x ∧ x.pending = s.pending ∧ x.dev = { s.dev with stns := x.dev.stns } ∧
        let st2 := x.dev.stn n
        let row := drnRow0 d.desc + d.next
        let tile := d.desc.toNat / 2 ^ 32 % 8
        let y (c : Nat) : Nat × Ev :=
          let v := (e.shadow.get row c).toNat
          let p := FV.add (drnRnd d.rm 0) (fp32.decode (v % 2 ^ 32)) (fp32.decode (v / 2 ^ 32))
          let p2 : FV × Ev := (p.1, (Cert.snan (fp32.decode (v % 2 ^ 32))).or p.2)
          fp32.fromVal (drnRnd d.rm 0) d.ovm p2
        (∀ c, c < 128 → Cert.le (st2.tiles.getD tile Mem.empty) (d.next * 512 + 4 * c) 4 = (y c).1) ∧
        (∀ a, (a < d.next * 512 ∨ d.next * 512 + 512 ≤ a) → Cert.tbyte st2 tile a = Cert.tbyte st tile a) ∧
        (∀ m a, m ≠ tile → Cert.tbyte st2 m a = Cert.tbyte st m a) ∧
        (∃ ev, st2.eng.queue = Cert.withKind e.queue q (.mest { d with next := d.next + 1, ev := ev })) ∧ st2.eng.active = e.active ∧
        st2.sp = st.sp ∧ ∀ m c, c < 128 → st2.eng.shadow.get m c = if m = row ∧ drnClr d.desc then 0 else e.shadow.get m c) ∧
    (d.started = true → drnOut d.desc ≤ d.next → q.setp = none → q.prec = none → Cert.NoWaiter st → d.ev.enabled d.by_.axen = 0 →
      Cert.StnIs (.drainRetire n) s s.dev n { st with eng := { e with queue := Cert.without e.queue q } })

/-! ### Command blocks -/

/-- R261 to R284: A block whose header, slots and commands can be read and pass the checks starts with them and its predicates;
each unpredicated command has its effect and the block moves on; loops repeat or are skipped; at the end the block's status is
cleared and IPEND.ENGINE set. Commands that carry SETP, and resumed blocks, are not spoken of. -/
def Obligations.CommandBlockResults : Prop :=
  ∀ (s : State) (n : Fin 128), let d := s.dev
    let st := d.stn n
    let e := st.eng
    (∀ q addr by_ d1 d2 hd bs, Cert.Live st → e.nextRun = some (q, addr, by_) → e.cbResume = false →
      d.seqRead (blkHart n by_) by_.ring 16 addr.toNat 16 = (d1, .ok hd) →
      let x := natLE hd
      let ns := x / 2 ^ 8 % 256
      let nc := x / 2 ^ 16 % 2 ^ 16
      x % 256 = 1 → ns ≤ 8 → 1 ≤ nc → nc ≤ 1024 → x / 2 ^ 48 = 0 → x < 2 ^ 128 →
      d1.seqRead (blkHart n by_) by_.ring 16 (addr + 16).toNat (32 * ns + 16 * nc) = (d2, .ok bs) →
      let slots := chunks 32 ns bs
      let cmds := chunks 16 nc (bs.drop (32 * ns))
      (∀ v ∈ slots, v < 2 ^ 192) → firstBad ns cmds = none →
      let e2 := (d2.stn n).eng
      Cert.StnIs (.blockStart n) s d2 n { d2.stn n with eng := { e2 with
        queue := Cert.withKind e2.queue q (.merun addr by_ true),
        blk := some { addr := addr, by_ := by_, slots := slots, cmds := cmds, next := 0, loops := [], stop := none, exit := false, ariths := [] },
        cbResume := false, cbStatus := 1, cbLv := .empty,
        cbPred := BitVec.ofNat 8 ((e2.cbPred.toNat &&& (255 - x / 2 ^ 32 % 256)) ||| (x / 2 ^ 40 % 256 &&& x / 2 ^ 32 % 256)) } }) ∧
    (∀ b c, (Cert.Next d n 0x00 b c →
        (Cert.NoLoopEnd b → Cert.Steps (.cbNop n) s n b st) ∧
        (∀ l r, b.loops = l :: r → l.cmd + l.body = b.next → l.iter + 1 < l.count →
          Cert.StnIs (.cbNop n) s d n { st with eng := { e with blk := some { b with
            loops := { l with iter := l.iter + 1 } :: r, next := l.cmd + 1 } } })) ∧
      (Cert.Next d n 0x01 b c →
        let m := if c / 2 ^ 56 % 2 = 1 then (e.cbCnt.getD (c / 2 ^ 57 % 4) 0).toNat else c / 2 ^ 32 % 2 ^ 24
        let body := c / 2 ^ 64 % 2 ^ 10
        (0 < m → Cert.StnIs (.cbLoop n) s d n { st with eng := { e with blk := some { b with
          loops := ⟨b.next, body, m, 0⟩ :: b.loops, next := b.next + 1 } } }) ∧
        (m = 0 → b.loops = [] → Cert.StnIs (.cbLoop n) s d n { st with eng := { e with blk := some { b with next := b.next + body + 1 } } })) ∧
      (Cert.NoLoopEnd b →
        (Cert.Next d n 0x04 b c → Cert.cfLegal (Cert.cArg c) →
          (Cert.cArg c = (st.tcfg.getD (Cert.cTn c) 0).toNat → Cert.Steps (.cbShape n) s n b st) ∧
          (Cert.cArg c ≠ (st.tcfg.getD (Cert.cTn c) 0).toNat → st.tileUsed (Cert.cTn c) = false →
            ∃ st2, st2 = { st with tcfg := st.tcfg.set (Cert.cTn c) (BitVec.ofNat 32 (Cert.cArg c)), tgen := st2.tgen } ∧
              Cert.Steps (.cbShape n) s n b st2)) ∧
        (Cert.Next d n 0x05 b c → let cfg := (st.tcfg.getD (Cert.cTn c) 0).toNat
          cfg ≠ 0 → st.tileUsed (Cert.cTn c) = false →
          ∃ st2, Cert.TileIs st st2 (Cert.cTn c) (st.tops ++ [⟨Cert.cTn c, true, none, true⟩])
              (fun x => if x < Cert.cfRows cfg * Cert.cfRow cfg then 0 else Cert.tbyte st (Cert.cTn c) x) ∧ Cert.Steps (.cbBlank n) s n b st2) ∧
        (∀ (i : Instr) (op : Nat) (port : Station → Src → EIssue) st2 x,
          (i, op) ∈ [(Instr.cbMb n, 0x08), (.cbMa n, 0x09), (.cbMacc n, 0x0A), (.cbGo n, 0x0B), (.cbSt n, 0x0C)] → Cert.Next d n op b c →
          port = (if op = 0x08 then fun y r => y.meb r (Cert.cTn c) (Cert.cArg c)
            else if op = 0x09 then fun y r => y.mea r (Cert.cTn c) (Cert.cArg c)
            else if op = 0x0A then fun y r => y.meacc r (Cert.cTn c) (Cert.cArg c)
            else if op = 0x0B then fun y r => y.mego r (Cert.cDesc c)
            else fun y r => y.mest r (Cert.cDesc c)) →
          port st { by_ := b.by_, inBlk := true, prec := none, setp := none, ceil := d.capL } = .ok st2 x →
          Cert.Steps i s n b st2) ∧
        (Cert.Next d n 0x10 b c → Cert.Steps (.pset n) s n b { st with eng := { e with
            cbPred := BitVec.ofNat 8 ((e.cbPred.toNat &&& (255 - c / 2 ^ 40 % 256)) ||| c / 2 ^ 32 % 256) } }) ∧
        (Cert.Next d n 0x11 b c → ∃ e2, e2 = { e with cbPred := e2.cbPred } ∧ Cert.Steps (.ploop n) s n b { st with eng := e2 } ∧
          ∀ p, p < 8 → e2.cbPred.getLsbD p = if p = c / 2 ^ 40 % 8 then
            (match b.loops.reverse[c / 2 ^ 32 % 4]? with
             | some l => if c / 2 ^ 34 % 2 = 1 then decide (l.iter + 1 = l.count) else decide (l.iter = 0)
             | none => false) else e.cbPred.getLsbD p) ∧
        (Cert.Next d n 0x12 b c → (∀ q ∈ e.queue, q.inBlk = false) → (∀ o ∈ st.tops, o.inBlk = false) → ∀ d1 bs,
          d.seqRead (blkHart n b.by_) b.by_.ring 8 (b.slotAddr (c / 2 ^ 28 % 8)).toNat 8 = (d1, .ok bs) →
          (d1.stn n).eng = e → ∃ e2 : Engine, e2 = { e with cbPred := e2.cbPred } ∧
          Cert.StnIs (.ptest n) s d1 n { d1.stn n with eng := { e2 with blk := some (Cert.stepped b) } } ∧
          ∀ p, p < 8 → e2.cbPred.getLsbD p = if p = c / 2 ^ 32 % 8 then decide (natLE bs ≠ 0) else e.cbPred.getLsbD p) ∧
        (Cert.Next d n 0x1E b c → (∀ q ∈ e.queue, q.inBlk = false) → (∀ o ∈ st.tops, o.inBlk = false) → Cert.Steps (.cbSync n) s n b st) ∧
        (Cert.Next d n 0x1F b c → Cert.StnIs (.exit n) s d n { st with eng := { e with blk := some { Cert.stepped b with exit := true } } }) ∧
        (∀ cfg base, Cert.Next d n 0x02 b c ∨ Cert.Next d n 0x03 b c → cfg = (st.tcfg.getD (Cert.cTn c) 0).toNat → cfg ≠ 0 →
          base = b.slotAddr (c / 2 ^ 28 % 8) → base.toNat % 16 = 0 → c / 2 ^ 32 % 16 = 0 → st.tileUsed (Cert.cTn c) = false →
          let l := (List.range (Cert.cfRows cfg)).flatMap (fun (r : Nat) =>
            Cert.rowAt (base + Cert.w (r : Int) * Cert.w ((Cert.cArg c : Int).bmod (2 ^ 32))).toNat (Cert.cfRow cfg) r)
          ∀ d2 locs offs, locs.map (fun x => region x.1) = offs.map (fun o => .scratch n o) → (d.stn n).spState = 0 → (d.stn n).spPoison = [] →
          let k := Cert.cTn c
          (Cert.Next d n 0x02 b c → Dev.checkAccs (blkHart n b.by_) b.by_.ring .load .bulk l d [] = (d2, .ok locs) → d2.stn n = st →
            let bs := (l.zip offs).flatMap (fun p => (List.range p.1.size).map (fun j => st.sp.get (p.2 + j)))
            ∃ st2, Cert.TileIs st st2 k (st.tops ++ [⟨k, true, none, true⟩])
                (fun x => if x < Cert.cfRows cfg * Cert.cfRow cfg then bs.getD x 0 else Cert.tbyte st k x) ∧
              Cert.StnIs (.cbFill n) s d2 n { st2 with eng := { st2.eng with blk := some (Cert.stepped b) } }) ∧
          (Cert.Next d n 0x03 b c → Dev.checkAccs (blkHart n b.by_) b.by_.ring .store .bulk l d [] = (d2, .ok locs) → d2.stn n = st →
            Cert.StnIs (.cbDump n) s d2 n { st with
              tops := st.tops ++ [⟨k, false, none, true⟩], eng := { e with blk := some (Cert.stepped b) },
              sp := (offs.zip (List.range l.length)).foldl (fun m p => m.writeBytes p.1
                ((List.range (l.getD p.2 ⟨0, 0, 0⟩).size).map (fun j => Cert.tbyte st k (Cert.before l p.2 + j)))) st.sp })))) ∧
    (∀ (b : Blk) (q : QEntry) (k : Fin 4), Cert.Live st → e.blk = some b → b.stop = none → b.cmds.length ≤ b.next ∨ b.exit = true →
      e.queue = [q] → q.running = true → q.inBlk = false → q.setp = none → q.prec = none → (∀ o ∈ st.tops, o.inBlk = false) →
      Cert.NoWaiter st → b.ariths = [] → b.by_.thr = k → (st.thr k).wait = .ready →
      Cert.StnIs (.blockEnd n) s d n (({ st with eng := { e with
          queue := [], blk := none, cbStatus := 0, cbFcode := 0, cbRsm := false, cbDepth := 0, cbCmd := 0x7FF, cbLv := .empty } }).updThr k
        (fun t => { t with ipend := t.ipend ||| 2 })))

/-! ### The timetable -/

/-- R27, R32, R33, R35, R36, R38, R547: A boundary takes TICK and the next period, applies the cap level and the power
registers, and starts a cycle, leaves a phase due, ends the cycle or goes IDLE as the phase table and ENABLE say. -/
def Obligations.BoundaryResults : Prop :=
  ∀ (s : State) (p tj : BitVec 16) (mj : Nat), let d := s.dev
    let t := d.tt
    let n := t.tick + 1
    let at_ := t.lastB + t.curPeriod * 17
    let i := Instr.tickBoundary p tj mj
    let taken (x : Dev) : Prop := x = { d with
        now := max d.now at_, tt := x.tt, rc := { d.rc with seen := [] }, capL := Cert.capAfter d.pw d.capL p.toNat tj.toInt,
        pw := Cert.powerAfter d.pw d.capL p tj mj } ∧
      x.tt = { t with tick := n, lastB := at_, curPeriod := t.period, sched := x.tt.sched, cycnum := x.tt.cycnum,
                      startDue := x.tt.startDue, cur := x.tt.cur, state := x.tt.state }
    d.pw.state = .boot ∨ d.pw.state = .running → Cert.Settled d → t.role = 0 → t.halt = none →
    (t.sched.active = false → t.sched.running = false → (t.state = 5 → t.resume ≠ some n) →
      Cert.Ends i s (fun x => taken x ∧ x.tt.sched = t.sched ∧ x.tt.cycnum = t.cycnum ∧ x.tt.startDue = t.startDue ∧
        x.tt.state = t.state ∧ x.tt.cur = none)) ∧
    (t.state = 1 → t.sched.active = true → t.sched.running = false → d.dfatal = false → 1 ≤ t.nphase → 0 < Cert.deadTick t 0 →
      (t.sched.first = true → t.enable = true → Cert.Ends i s (fun x => taken x ∧ x.tt.state = 1 ∧
        x.tt.cycnum = (t.sched.cyc + 1) % 2 ^ 64 ∧ x.tt.startDue = (if Cert.startTick t 0 = 0 then some 0 else none) ∧
        x.tt.sched.active = true ∧ x.tt.sched.first = false ∧ x.tt.sched.base = n ∧ x.tt.sched.k = 0)) ∧
      (t.sched.first = false → ∀ k, t.sched.k = k → k < t.nphase → ¬ (Cert.kind t k = 5 ∧ t.sched.base + Cert.deadTick t k ≤ n) →
        Cert.Ends i s (fun x => taken x ∧ x.tt.state = 1 ∧ x.tt.cycnum = t.cycnum ∧ x.tt.sched = t.sched ∧
          x.tt.startDue = if t.sched.base + Cert.startTick t k ≤ n ∧ t.sched.prevEnd ≤ n then some k else none)) ∧
      (t.sched.first = false → t.nphase ≤ t.sched.k → t.sched.base + t.len ≤ n → t.sched.prevEnd ≤ n →
        (t.enable = true → Cert.Ends i s (fun x => taken x ∧ x.tt.state = 1 ∧ x.tt.cycnum = (t.sched.cyc + 1) % 2 ^ 64 ∧
          x.tt.startDue = (if Cert.startTick t 0 = 0 then some 0 else none) ∧ x.tt.sched.base = n ∧ x.tt.sched.k = 0)) ∧
        (t.enable = false → Cert.Ends i s (fun x => taken x ∧ x.tt.state = 0 ∧ x.tt.cycnum = t.cycnum ∧ x.tt.startDue = none ∧
          x.tt.sched.active = false))))

/-- R29, R32, R34, R35, R37, R302: The start of a due phase, its deadline and its end change the timetable as the rules say and
give the stations IPEND.PHASE; the logs of a reproducible phase are applied in their order; stores to TT_PERIOD, TT_DONE and
TT_CTRL.ENABLE are accepted or recorded in TT_ERR. -/
def Obligations.PhaseResults : Prop :=
  ∀ (s : State), let d := s.dev
    let t := d.tt
    let err (i : Instr) (b : Nat) : Prop := Cert.Makes i s { d with tt := { t with err := Cert.mark t.err b } }
    (∀ k hosts, t.startDue = some k → d.dfatal = false → Cert.fl (t.phases.getD (2 * k + 1) 0) 31 16 = 0 →
      ¬ (Cert.kind t k = 5 ∧ t.sched.base + Cert.deadTick t k ≤ t.tick) →
      Cert.Ends (.phaseStart hosts) s (fun x => x = { d with host := x.host, tt := x.tt, stns := x.stns } ∧ x.host.ld.dl = [] ∧
        x.tt = { t with absent := false, startDue := none, state := 2, phase := BitVec.ofNat 6 k, inPhase := true, done := false,
                        ended := none, endSent := false, startAt := t.lastB, cur := none,
                        sched := { t.sched with running := true, start := t.tick, k := k } } ∧
        ∀ n, d.present n = true → (x.stn n).phFlags = 0 ∧ (x.stn n).phRetries = 0 ∧
          (Cert.Live (d.stn n) → ((x.stn n).thr 0).ipend = (((d.stn n).thr 0).ipend ||| 1)))) ∧
    (t.inPhase = true → Cert.kind t t.phase.toNat ≠ 5 → t.state = 2 → t.sched.base + Cert.deadTick t t.phase.toNat ≤ t.tick →
      Cert.Makes .phaseDeadline s { d.event 4 1 0 t.phase.toNat t.cycnum false with
        tt := { t with err := Cert.mark t.err 0, state := 3 } }) ∧
    (t.inPhase = true → Cert.kind t t.phase.toNat ≠ 5 → t.ended = none → t.state = 2 ∨ t.state = 3 → Cert.Quiet d →
      (t.role = 0 → Cert.fl (t.phases.getD (2 * t.phase.toNat + 1) 0) 8 8 = 0 → t.recEn = false → d.bd.counting = false →
        d.now < t.lastB + t.curPeriod * 17 → t.halt = none →
        Cert.Makes .phaseEnd s { d with tt := { t with
          state := 1, inPhase := false, done := false, ended := none,
          sched := { t.sched with running := false, prevEnd := t.tick + 1, k := t.sched.k + 1 } } }) ∧
      (Cert.fl (t.phases.getD (2 * t.phase.toNat + 1) 0) 8 8 = 1 → ∀ (n : Fin 128) b l, (d.stn n).logs = ⟨[(b, l)]⟩ →
        (d.stn n).spPoison = [] → ∃ l', Cert.LogOrder l l' ∧ Cert.StnIs (.reproLogApply n) s d n { d.stn n with
          logs := ⟨[]⟩, sp := l'.foldl (fun m e => m.writeBytes e.off
            ((List.range 4).map (Cert.byteOf (fp32Add (m.readN e.off 4) e.addend)))) (d.stn n).sp })) ∧
    (∀ (h : Hart) (v : Word),
      (Cert.Reaches d h .tt 0x30 →
        (t.inPhase = true ∧ t.ended = none ∧ Cert.fl v 5 0 = t.phase.toNat → Cert.Makes (.ttDone h v) s { d with tt := { t with done := true } }) ∧
        (¬ (t.inPhase = true ∧ t.ended = none ∧ Cert.fl v 5 0 = t.phase.toNat) → err (.ttDone h v) 6)) ∧
      (Cert.Reaches d h .tt 0x10 →
        (t.state = 0 ∨ t.state = 5 → 100000 ≤ Cert.fl v 29 0 → Cert.fl v 29 0 ≤ 1000000000 →
          Cert.Makes (.ttPeriodWrite h v) s { d with tt := { t with period := Cert.fl v 29 0 } }) ∧
        (t.state = 0 ∨ t.state = 5 → ¬ (100000 ≤ Cert.fl v 29 0 ∧ Cert.fl v 29 0 ≤ 1000000000) → err (.ttPeriodWrite h v) 4) ∧
        (¬ (t.state = 0 ∨ t.state = 5) → err (.ttPeriodWrite h v) 3)) ∧
      (Cert.Reaches d h .tt 0 → v.getLsbD 6 = false → v.getLsbD 7 = false →
        let t1 : Tt := { t with lateAlert := v.getLsbD 1 }
        (v.getLsbD 0 = t.enable → Cert.Makes (.enable h v) s { d with tt := t1 }) ∧
        (v.getLsbD 0 = false → Cert.Makes (.enable h v) s { d with tt := { t1 with enable := false } }) ∧
        (v.getLsbD 0 = true → t.enable = false →
          (t.state ≠ 0 → Cert.Makes (.enable h v) s { d with tt := { t1 with enable := true } }) ∧
          (t.state = 0 → Cert.tableOk t →
            let c := { t.sched with active := true, first := true, running := false, cyc := t.cycnum }
            Cert.Makes (.enable h v) s { d with tt := { t1 with enable := true, state := 1, sched := c, plan := c } }) ∧
          (t.state = 0 → ¬ Cert.tableOk t → ∃ k, Cert.Makes (.enable h v) s { d with tt := { t1 with
              err := Cert.mark t.err 5, errIdx := k } } ∧
            (1 ≤ t.nphase → t.nphase ≤ 64 → (∃ j, j < t.nphase ∧ ¬ Cert.entryOk t j) →
              k < t.nphase ∧ ¬ Cert.entryOk t k ∧ ∀ j, j < k → Cert.entryOk t j) ∧
            (t.nphase < 1 ∨ 64 < t.nphase ∨ (∀ j, j < t.nphase → Cert.entryOk t j) → k = 63)))))

/-- R40 to R46, R465, R481, R489: A halt request places a halt tick once; the halt tick stops threads, engines, streams and
channels and keeps memory; its completion enters HELD and starts the monitor where an image is loaded; a resume boundary clears
the reason, counts the time held, and starts the cycle again or goes IDLE. -/
def Obligations.HaltAndResumeResults : Prop :=
  ∀ (s : State), let d := s.dev
    let t := d.tt
    (∀ (h : Hart) (v : Word), Cert.Reaches d h .tt 0 → v.getLsbD 0 = t.enable →
      let t1 : Tt := { t with lateAlert := v.getLsbD 1 }
      (v.getLsbD 7 = false → t.role ≠ 2 →
        (t.halt = none → t.ann = [] → Cert.Makes (.halt h v) s { d with tt := { t1 with halt := Cert.haltPlaced d 6 } }) ∧
        (t.halt ≠ none → Cert.Makes (.halt h v) s { d with tt := t1 })) ∧
      (v.getLsbD 6 = false → t.state = 5 → t.role = 0 → d.cfatal = false →
        let n := t.tick + max 1 ((d.now + t.lead * 17000 - t.lastB + t.curPeriod * 17 - 1) / (t.curPeriod * 17))
        Cert.Makes (.resume h v) s { d with tt := { t1 with resume := some n } })) ∧
    (d.pw.state = .running → d.dfatal = false → t.role ≠ 2 → t.halt = none → t.ann = [] →
      Cert.Makes .haltN s { d with tt := { t with halt := Cert.haltPlaced d 2 } }) ∧
    (∀ num at_ why, t.role = 0 → t.halt = some (num, at_, why) → t.ann = [] → Cert.Settled d → d.dfatal = false → t.inPhase = false →
      Cert.Ends .haltTick s (fun x => x.now = max d.now at_ ∧
        x.tt = { t with tick := num, lastB := at_, curPeriod := t.period, state := 4, reason := 0, why := why, sched := Sched.idle,
                        plan := Sched.idle, startDue := none, cur := none, resumeDue := false, resume := none, halt := none,
                        parting := false, inPhase := false, done := false, ended := none, hold := t.hold && decide (why ≠ 5) } ∧
        x.host.ld.halted = true ∧ x.host.ld.commits = [] ∧ x.mem = d.mem ∧
        (∀ k, ((x.jn.grp k).inst.isSome = true → ∃ f, (x.jn.grp k).inst.bind (·.fin) = some f)) ∧
        ∀ n, Cert.Live (d.stn n) → let a := d.stn n
          let b := x.stn n
          b.running = none ∧ b.vq = [] ∧ b.tops = [] ∧ b.owner = none ∧ b.ownPend = false ∧ b.eng.queue = [] ∧ b.eng.blk = none ∧
          b.eng.flags = a.eng.flags ∧ b.sp = a.sp ∧ b.logs = ⟨[]⟩ ∧ b.slots = 0 ∧ b.tcfg = a.tcfg ∧
          (∀ k, k < 64 → (b.stream k).active = false) ∧ ∀ k, k < 4 → Cert.Stopped (a.thr k) (b.thr k))) ∧
    (t.state = 4 → (∀ p ∈ d.sh.chans.entries, p.2.mode = 0) → (∀ p ∈ d.jn.groups.entries, p.2.inst = none) →
      d.host.ld.flushes = [] → d.listed = none ∨ (∀ p ∈ d.links.entries, p.2.unacked = []) → t.why ≠ 4 →
      Cert.Ends .haltComplete s (fun x =>
        x.tt = { t with state := 5, reason := BitVec.ofNat 4 t.why } ∧ x.rc = (d.event 4 3 0 t.phase.toNat t.why false).rc ∧
        (d.bd.counting = true → x.bd = { d.bd with halts := d.bd.halts + 1, heldFrom := some d.now }) ∧
        ∀ img n, d.sec.image = some img → d.present n = true → Cert.Live (d.stn n) → let b := x.stn n
          b.running = some 0 ∧ b.mmEn = false ∧ b.tlb = [] ∧ (b.thr 0).enabled = true ∧ (b.thr 0).wait = .ready ∧
          (b.thr 0).pc = Cert.nat (img.load + img.entry) ∧ (b.thr 0).status.toNat % 4 = 0 ∧
          ∀ k, 1 ≤ k → k < 4 → (b.thr k).enabled = false)) ∧
    (∀ m, t.resumeDue = true → t.cur = some m →
      Cert.Ends .resumeBoundary s (fun x => x.tt.reason = 0 ∧ x.tt.resume = none ∧ x.tt.resumeDue = false ∧ x.host.ld.halted = false ∧
        (∀ t0, d.bd.heldFrom = some t0 → x.bd = { d.bd with held := d.bd.held + (t.lastB - t0), heldFrom := none }) ∧
        (t.enable = true → Cert.tableOk t → x.tt.cycnum = m.cyc ∧ x.tt.state = 1 ∧ x.tt.sched.active = true ∧
          x.tt.sched.base = t.tick ∧ x.tt.sched.k = 0 ∧ (m.start = true → x.tt.startDue = some 0)) ∧
        (t.enable = false → x.tt.state = 0 ∧ x.tt.sched = Sched.idle)))

/-! ### The coupling, orders and binding -/

/-- R41, R428, R429, R431, R432, R435 to R439: The master sends the TICK of the next boundary; a follower accepts one that
passes the checks and otherwise records why; TICKs to a master mean a second or newer staff; a boundary whose TICK is missing is
taken alone, the third in a row parts the follower; REPORTs are sent, received and counted; partition and lease expiry halt the
group. -/
def Obligations.CouplingResults : Prop :=
  ∀ (s : State), let d := s.dev
    let t := d.tt
    let n := t.tick + 1
    let at_ := t.lastB + t.curPeriod * 17
    let msg (num i cyc : Nat) (halt : Bool) : TickMsg := ⟨num, i, halt, false, false, false, 0, cyc, t.period⟩
    Cert.Powered d →
    (∀ (m : TickMsg) (l : Nat), l < 24 → t.role = 1 → t.hold = true → t.ann = [] → t.plan.running = false → t.cplChild = BitVec.ofNat 24 (2 ^ l) →
      Cert.ReadyLink (d.link l) →
      ((∃ num i why, t.halt = some (num, i, why) ∧ m = msg num i t.cycnum true) ∨
       (t.halt = none ∧ n < t.expiry ∧ (t.state = 4 ∨ (t.state = 5 ∧ t.resume ≠ some n)) ∧ m = msg n at_ t.cycnum false) ∨
       (t.halt = none ∧ n < t.expiry ∧ t.state ≠ 4 ∧ t.state ≠ 5 ∧ t.plan.active = false ∧ m = msg n at_ t.plan.cyc false)) →
      let d1 : Dev := { d with now := max d.now (m.at_ - t.lead * 17000) }
      Cert.Makes .tickSend s { Cert.sent d1 l (Cert.flitTo d 2 0 (d.link l).peer false (Cert.tickBytes d1 m)) with tt := { t with ann := [m] } }) ∧
    (∀ l rx f rest, Cert.Delivered d l rx f rest → f.kind = 2 → flitU f 12 1 = 1 →
      let ep := flitU f 40 4
      let fl := flitU f 13 1
      let inst := rx + flitU f 32 4 * 17 - (d.link l).lat * 17
      let m : TickMsg := ⟨flitU f 16 8, inst, fl % 2 = 1, fl / 2 % 2 = 1, fl / 4 % 2 = 1, fl / 8 % 2 = 1, flitU f 14 1, flitU f 24 8, flitU f 36 4⟩
      let u := Cert.taken d rest
      (t.role ≠ 1 → (l = t.cplParent ∧ t.epoch ≤ ep ∧ t.tick < m.num ∧ rx < inst → t.cplChild = 0 →
          Cert.Makes .tickReceive s { u with tt := { t with
            epoch := max t.epoch ep, cplMaster := (if t.epoch < ep then flitU f 44 2 else t.cplMaster), misses := 0, lastRx := m.num, ann := t.ann.filter (fun x => decide (x.num < m.num)) ++ [m] } }) ∧
        (¬ (l = t.cplParent ∧ t.epoch ≤ ep ∧ t.tick < m.num ∧ rx < inst) → Cert.Ends .tickReceive s (fun x =>
          x = { u with tt := { t with cerr := x.tt.cerr } } ∧ ∀ b, x.tt.cerr.getLsbD b = (t.cerr.getLsbD b || decide (b = 0 ∧ ep < t.epoch) ||
            decide (b = 1 ∧ l ≠ t.cplParent) || decide (b = 2 ∧ (m.num ≤ t.tick ∨ inst ≤ rx)))))) ∧
      (t.role = 1 → (ep < t.epoch → Cert.Makes .tickReceive s { u with tt := { t with cerr := Cert.mark t.cerr 0 } }) ∧
        (t.halt = none → t.ann = [] →
          (ep = t.epoch → Cert.Makes .tickReceive s { u with tt := { t with cerr := Cert.mark t.cerr 4, halt := Cert.haltPlaced d 4 } }) ∧
          (t.epoch < ep → Cert.Ends .tickReceive s (fun x => ∃ why, x = { u with
            free := d.free + 1, tt := { t with role := 2, hold := false, halt := Cert.haltPlaced d why } }))))) ∧
    (∀ (p tj : BitVec 16) (mj : Nat), t.role = 2 → Cert.Settled d → t.ann = [] → t.cplChild = 0 → (d.link t.cplParent).state ≠ 4 →
      (t.parting = false → t.sched.active = false → t.sched.running = false →
        Cert.Makes (.missedTick p tj mj) s { d with
          now := max d.now at_, rc := { d.rc with seen := [] }, capL := Cert.capAfter d.pw d.capL p.toNat tj.toInt,
          pw := Cert.powerAfter d.pw d.capL p tj mj,
          tt := { t with err := Cert.mark t.err 1, misses := min 15 (t.misses + 1), tick := n, lastB := at_, cur := none, repSent := n,
                         parting := decide (min 15 (t.misses + 1) = 3) } }) ∧
      (t.parting = true → Cert.Ends (.missedTick p tj mj) s (fun x => x.tt.state = 4 ∧ x.tt.why = 4 ∧ x.tt.tick = n ∧ x.tt.parting = false ∧
        x.tt.err = Cert.mark t.err 1))) ∧
    (∀ l rx f rest, Cert.Delivered d l rx f rest → f.kind = 2 → flitU f 12 1 = 2 → l < 24 → t.cplChild.getLsbD l = true → t.role = 1 →
      flitU f 40 4 ≤ t.epoch →
      let fl := flitU f 13 1
      let same := flitU f 36 4 = crc32c t.digestBytes
      let r : Rep := ⟨l, flitU f 16 8, fl / 2 % 2 = 1 ∧ same, fl / 4 % 2 = 1, flitU f 14 1, flitU f 24 8, flitU f 32 2, flitU f 34 2⟩
      let t1 : Tt := { t with cerr := (if same then t.cerr else Cert.mark t.cerr 3), reports := t.reports.filter (fun x => x.link != l) ++ [r] }
      (fl % 2 = 0 → Cert.Makes .reportReceive s { Cert.taken d rest with tt := t1 }) ∧
      (fl % 2 = 1 → t.halt = none → t.ann = [] →
        Cert.Makes .reportReceive s { Cert.taken d rest with tt := { t1 with halt := Cert.haltPlaced d (flitU f 15 1) } })) ∧
    (t.role = 2 → t.repSent ≠ t.tick → Cert.ReadyLink (d.link t.cplParent) →
      let d1 : Dev := { d with now := max d.now (t.lastB + t.curPeriod * 17 * (16 - t.cplDepth) / 16) }
      ∃ data, Cert.Makes .reportTimeout s { Cert.sent d1 t.cplParent (Cert.flitTo d 2 0 (d.link t.cplParent).peer false data) with
          tt := { t with repSent := t.tick } } ∧
        data = Cert.bytes 1 2 ++ Cert.bytes 1 ((if d.subReady t.tick then 2 else 0) + (if t.subEnded then 4 else 0)) ++
          Cert.bytes 1 t.phase.toNat ++ Cert.bytes 1 0 ++ Cert.bytes 8 t.tick ++ Cert.bytes 8 t.cycnum ++ Cert.bytes 2 (t.missCount t.tick) ++
          Cert.bytes 2 (d.lowMissing t.tick) ++ Cert.bytes 4 (crc32c t.digestBytes) ++ Cert.bytes 4 t.epoch ++ List.replicate 208 0) ∧
    (t.role = 1 → t.hold = true → t.ann = [] →
      (3 ≤ t.incomplete → t.state ≠ 4 → t.state ≠ 5 → t.halt = none →
        Cert.Makes .partitionDetect s { d with tt := { t with incomplete := 0, halt := some (n, at_, 4) } }) ∧
      (t.expiry ≤ n → (t.state = 5 → Cert.Makes .leaseExpiry s { d with tt := { t with hold := false, reason := 5 } }) ∧
        (t.state ≠ 5 → t.halt = none → t.cplChild = 0 → t.plan.running = false →
          Cert.Makes .leaseExpiry s { d with now := max d.now (at_ - t.lead * 17000), tt := { t with
            halt := some (n, at_, 5), ann := [msg n at_ t.cycnum true] } })))

/-- R441, R442, R475, R476, R492, R516, R537, R538: HALT, RESUME, LEASE, STAFF, BIND, UNBIND, SEAL, RETIRE_STN and DEBUG have
their effect where their conditions hold and answer 0, and otherwise answer why; an order of one segment by flits is judged, a
longer one is gathered; returned results are passed on, and a missing one is answered after its time. -/
def Obligations.OrderResults : Prop :=
  ∀ (s : State), let d := s.dev
    let t := d.tt
    d.pw.state = .running →
    let good (i : Instr) (code : Nat) (d1 : Dev) : Prop := Cert.Makes i s (Cert.emits d1 (.orderDone code 0))
    let not (i : Instr) (code : Nat) : Prop := Cert.Makes i s (Cert.emits d (.orderDone code 0x47))
    let halted (d1 : Dev) : Dev := if t.state = 5 then d1 else { d1 with tt := { t with halt := Cert.haltPlaced d 1 } }
    (t.role ≠ 2 → t.halt = none → t.ann = [] → good .orderHalt 1 { d with tt := { t with halt := Cert.haltPlaced d 1 } }) ∧
    (∀ r : Word, t.ann = [] →
      let ok := t.state = 5 ∧ t.hold = true ∧ d.bd.state = 2 ∧ t.tick < r.toNat ∧
        d.now + t.lead * 17000 ≤ t.lastB + (r.toNat - t.tick) * t.curPeriod * 17 ∧ r.toNat < t.expiry ∧
        (if t.role = 0 then d.cfatal = false else t.nMiss = 0 ∧ t.allReady = true)
      (ok → good (.orderResume r) 2 { d with tt := { t with resume := some r.toNat } }) ∧ (¬ ok → not (.orderResume r) 2)) ∧
    (∀ (e : BitVec 32) (x : Word), t.ann = [] →
      let ok := e.toNat = t.epoch ∧ t.hold = true ∧ t.tick < x.toNat ∧ t.tick < t.expiry
      (ok → good (.orderLease e x) 3 { d with tt := { t with expiry := x.toNat } }) ∧ (¬ ok → not (.orderLease e x) 3)) ∧
    (∀ (e : BitVec 32) (x : Word), let ok := t.state = 5 ∧ t.epoch < e.toNat ∧ t.tick < x.toNat
      (ok → good (.orderStaff e x) 4 { d with tt := { t with
        role := 1, hold := true, epoch := e.toNat, expiry := x.toNat, cplParent := 0x1F, cplMaster := d.jn.devid } }) ∧
      (¬ ok → not (.orderStaff e x) 4)) ∧
    (∀ digest, let c := Cert.bindReason d digest
      (c ≠ 0 → Cert.Makes (.orderBind digest) s (Cert.emits { d with bd := { d.bd with reason := c } } (.orderDone 0x10 c))) ∧
      (c = 0 → ∀ k1 k2, recUnwrap d.dict.staged = some (k1, k2) → t.role ≠ 2 → t.halt = none → t.ann = [] →
        let d1 : Dev := { d with
          mem := { d.mem with nextKey := d.mem.nextKey + 1 },
          bd := { d.bd with state := 1, step := (if d.bd.state = 0 then 7 else 1), fresh := decide (d.bd.state = 0),
                            new := some ⟨d.dict.staged, digest, 2 * d.mem.nextKey, k1, k2⟩ } }
        good (.orderBind digest) 0x10 (if d.bd.state = 0 then d1 else halted d1))) ∧
    ((d.bd.state = 2 → t.role ≠ 2 → t.halt = none → t.ann = [] →
        good .orderUnbind 0x11 (halted { d with bd := { d.bd with state := 3, step := 1 } })) ∧
      (d.bd.state = 2 → good .orderSeal 0x12 { d with bd := { d.bd with
        sseq := (d.bd.sseq + 1) % 2 ^ 32, unsigned := d.bd.unsigned ++ [Cert.sealOf d 3] } }) ∧
      (d.bd.state ≠ 2 → not .orderUnbind 0x11 ∧ not .orderSeal 0x12)) ∧
    (∀ n : BitVec 16, let k := n.toNat
      let ok := k < 128 ∧ d.made.getLsbD k = true ∧ d.retStn.getLsbD k = false ∧ d.retPend.getLsbD k = false
      (ok → d.bd.state ≠ 0 → good (.orderRetireStn n) 0x20 { d with retPend := d.retPend ||| (1#128 <<< k) }) ∧
      (ok → d.bd.state = 0 → Cert.Ends (.orderRetireStn n) s (fun x => x.retStn = (d.retStn ||| (1#128 <<< k)) ∧ x.present k = false ∧
        (x.stn k).held = true ∧ (x.stn k).spState = 2 ∧ (x.stn k).sp = Mem.empty ∧ x.out = d.out ++ [.orderDone 0x20 0] ∧ x.retireEv = true)) ∧
      (¬ ok → not (.orderRetireStn n) 0x20)) ∧
    (∀ env, good (.orderDebug env) 0x30 { d with sec := { d.sec with dbg := true, m5 := Config.sha3 (d.sec.m5 ++ env) } }) ∧
    (d.dfatal = false →
      (∀ l rx f rest, Cert.Delivered d l rx f rest → f.kind = 3 →
        let oid := flitU f 12 4
        let len := flitU f 20 2
        let e := (flitBytes f 28 224).take len
        let u := Cert.taken d rest
        (∀ m ∈ d.dict.orders, ¬ (m.src = f.src.toNat ∧ m.oid = oid)) →
        (flitU f 18 2 = 1 → flitU f 16 2 = 0 → 1 ≤ len → len ≤ 224 →
          Cert.Makes (.orderFlit none) s (Cert.emits u (.orderResult f.src.toNat oid 0x40 (bytesAt e 1 1) (bytesAt e 24 8)))) ∧
        (2 ≤ flitU f 18 2 → flitU f 18 2 ≤ 32 → flitU f 16 2 < flitU f 18 2 → len ≤ 7168 → flitU f 18 2 = (len + 223) / 224 →
          Cert.Makes (.orderFlit none) s { u with dict := { d.dict with orders := d.dict.orders ++
            [⟨f.src.toNat, oid, flitU f 18 2, len, ⟨[(flitU f 16 2, flitBytes f 28 224)]⟩⟩] } })) ∧
      ∀ (w : Fwd) r, d.dict.forwards = w :: r →
        let u : Dev := { d with dict := { d.dict with forwards := r } }
        let answer (x : Nat) : Out := match w.origin with
          | .dict p m => .dict p 0x85 m.tid.toNat m.index.toNat m.sub.toNat 0 m.arg.toNat (Cert.bytes 1 x ++ Cert.bytes 1 w.code ++ Cert.bytes 6 w.seq)
          | .flit src oid => .orderResult src oid x w.code w.seq
        (∀ (oid : BitVec 32) (x : BitVec 8), oid.toNat = w.oid → Cert.Makes (.orderFlit (some (oid, x))) s (Cert.emits u (answer x.toNat))) ∧
        Cert.Makes .orderForwardTimeout s (Cert.emits { u with now := max d.now (w.at_ + 680000000) } (answer 0x48)))

/-- R466, R471, R473, R474, R477 to R479, R481, R483, R509: Each step leaves what the rules say: the wait for HELD, the end of
the old binding with its seal, the drops, the flush, the keys discarded, the resets, the new keys and identities with the
stations restarted, and BOUND with its accounting; and a seal that waits is signed. -/
def Obligations.BindingSteps : Prop :=
  ∀ (s : State), let d := s.dev
    d.pw.state = .running → d.dfatal = false →
    let ends (P : Dev → Prop) : Prop := Cert.Ends .rebindStepEnd s P
    (d.bd.step = 1 → Cert.Makes .rebindStepEnd s (if d.tt.state = 5 then { d with bd := { d.bd with step := 2 } } else d)) ∧
    (d.bd.step = 2 → ends (fun x => x.bd.step = 3 ∧ x.listed = none ∧ x.consist = 0 ∧ x.host.qps = [] ∧ x.host.regions = [] ∧
      x.bd.counting = false ∧ (∀ q, (x.sq q).en = false) ∧ (∀ off, x.host.windowOk off = false) ∧
      (d.bd.counting = true → x.bd.unsigned = d.bd.unsigned ++ [Cert.sealOf d (if d.bd.state = 3 then 2 else 1)] ∧
        x.bd.sseq = (d.bd.sseq + 1) % 2 ^ 32) ∧ x.stns = d.stns ∧ x.mem = d.mem ∧ x.tt = d.tt)) ∧
    (d.bd.step = 3 → Cert.Makes .rebindStepEnd s { d with
      jn := { d.jn with inbox := d.jn.inbox.filter (fun x => x.2.2.sys) }, bd := { d.bd with step := 4 },
      host := { d.host with ld := { d.host.ld with flushes := [], commits := [] } } }) ∧
    (d.bd.step = 4 → ends (fun x => x.bd.step = 5 ∧ x.mem.dirty = [] ∧ x.mem.gddr = d.mem.gddr ∧
      ∀ n, (x.stn n).tlb = [] ∧ (x.stn n).geTlb = [] ∧ (x.stn n).sp = (d.stn n).sp)) ∧
    (d.bd.step = 5 → Cert.Makes .rebindStepEnd s { d with
      mem := { d.mem with key0 := none, key1 := none, key2 := none }, bd := { d.bd with step := 6 } }) ∧
    (d.bd.step = 6 → d.retPend = 0 → ends (fun x => x.sh = Shunters.reset ∧ x.host = HostIf.reset ∧ x.cfatal = false ∧ x.mem.smEn = false ∧
      (∀ g, x.jn.grp g = RedGrp.reset) ∧
      (d.bd.state ≠ 3 → x.bd.step = 7 ∧ x.tt = { Tt.reset with tick := d.tt.tick, lastB := d.tt.lastB, curPeriod := d.tt.curPeriod } ∧
        ∀ n, n < 128 → d.present n = true → (x.stn n).held = true ∧ (x.stn n).sp = Mem.empty ∧ ∀ k, ((x.stn n).thr k).g = Tab.empty) ∧
      (d.bd.state = 3 → x.bd.state = 0 ∧ x.bd.step = 0 ∧ x.mem.key0 = some (2 * d.mem.nextKey) ∧ x.mem.key1 = none ∧ x.mem.key2 = none ∧
        ∀ img n, d.sec.image = some img → n < 128 → d.present n = true →
          Cert.Live (x.stn n) ∧ ((x.stn n).thr 0).pc = Cert.nat (img.load + img.entry) ∧ ((x.stn n).thr 0).status.toNat % 4 = 0))) ∧
    (∀ new, d.bd.new = some new → let r := new.rec_
      (d.bd.step = 7 → recOf r 5 = [] → ends (fun x => x.bd.step = 8 ∧ x.mem.key0 = some new.pend0 ∧ x.mem.key1 = new.pend1 ∧
        x.mem.key2 = new.pend2 ∧ x.jn.devid = bytesAt r 4 2 ∧ x.sec.m4 = new.digest ∧ x.tt.role = BitVec.ofNat 2 (bytesAt r 1 1) ∧
        x.tt.cplMaster = bytesAt r 6 2 ∧ x.tt.cplDepth = bytesAt r 14 1 ∧ x.tt.cplParent = bytesAt r 15 1 ∧
        x.tt.cplChild = BitVec.ofNat 24 (bytesAt r 16 3) ∧ x.tt.epoch = 1 ∧ x.tt.hold = decide (bytesAt r 1 1 ≠ 2) ∧
        x.mem.smEn = decide (bytesAt r 48 8 ≠ 0) ∧
        ∀ img n, d.sec.image = some img → n < 128 → d.present n = true → bytesAt r 32 16 / 2 ^ n % 2 = 1 →
          Cert.Live (x.stn n) ∧ ((x.stn n).thr 0).pc = Cert.nat (img.load + img.entry))) ∧
      (d.bd.step = 8 → ends (fun x => x.bd.state = 2 ∧ x.bd.step = 0 ∧ x.bd.new = none ∧ x.bd.rec_ = r ∧ x.bd.digest = new.digest ∧
        x.consist = bytesAt r 2 2 ∧ x.listed = some (BitVec.ofNat 128 (bytesAt r 32 16)) ∧ x.host.qps = (recOf r 3).map loadQp ∧
        x.host.regions = (recOf r 4).map loadRegion ∧ x.bd.counting = true ∧ x.bd.boundFrom = d.now ∧ x.bd.held = 0 ∧
        x.bd.bindTick = d.tt.tick ∧ x.bd.halts = 0 ∧ x.bd.phases = Tab.empty ∧ (∀ e ∈ recOf r 5, (x.sq (bytesAt e 1 1)).recovering = true) ∧
        (d.tt.role = 1 → x.tt.expiry = d.tt.tick + d.tt.leaseLen) ∧ x.stns = d.stns ∧ x.mem = d.mem))) ∧
    (∀ (x : Seal) (rest : List Seal), d.bd.unsigned = x :: rest →
      let b := x.body
      Cert.Makes .sealSign s { d with bd := { d.bd with
        unsigned := rest, owed := d.bd.owed && !rest.isEmpty, seals := ((b ++ Config.dsaSign [] b) :: d.bd.seals).take 4 } })

/-! ### Links and the junction -/

/-- R398 to R408, R414, R558: Enable, reset, signal, training, capabilities, ECHO, flits with their CRC, sequence and
acknowledgement, replay, recovery, credit and lane retirement leave the link's state, its messages and its events as the rules
say. -/
def Obligations.LinkResults : Prop :=
  ∀ (s : State) (l : Fin 24) (lane : Fin 8), let d := s.dev
    let k := d.link l
    let now := d.now
    let puts (i : Instr) (k1 : Link) : Prop := Cert.Makes i s { d with links := d.links.set l k1 }
    let logs (i : Instr) (k1 : Link) (retire : Bool) (o : List Out) (t : Nat) : Prop := Cert.Ends i s (fun x => x = { d with
      now := t, links := d.links.set l k1, rc := x.rc, retireEv := d.retireEv || retire, out := d.out ++ o })
    let free : Prop := k.state = 4 → Cert.NoTree d l
    let replays (i : Instr) (k1 : Link) (t : Nat) : Prop :=
      logs i { k1 with unacked := Cert.resent lane k1.unacked, replay := (k1.replay + k1.unacked.length) % 2 ^ 32, ackAt := t } false
        (Cert.again l (Cert.lastSeq k) (Cert.resent lane k1.unacked)) t
    (∀ (h : Hart) (v : Word), Cert.Reaches d h (.lk l) 0 →
      (v.getLsbD 2 = false → puts (.linkEnable h l v) (Cert.trains now { k with en := true, arm := v.getLsbD 1 })) ∧
      (v.getLsbD 0 = k.en → free → puts (.linkReset h l v) (Cert.trains now { Cert.fresh k with arm := v.getLsbD 1 }))) ∧
    (d.pw.state = .boot ∨ d.pw.state = .running →
      puts (.linkSignalDetect l) (Cert.trains now { k with signal := true }) ∧
      (free → puts (.linkSignalLoss l) { Cert.fresh k with signal := false }) ∧
      (k.state = 1 →
        (k.unusable.getLsbD lane = false → puts (.laneEqualised l lane) (Cert.equals now { k with trained := Cert.mark k.trained lane })) ∧
        (k.trained.getLsbD lane = false → let t := max now (k.since + 850000000)
          Cert.Makes (.laneTrainTimeout l lane) s { d with
            now := t, links := d.links.set l (Cert.equals t { k with unusable := Cert.mark k.unusable lane }) })) ∧
      (k.state = 2 → puts (.alignmentLock l) { k with state := 3, since := now }) ∧
      (k.state = 3 →
        Cert.Makes (.capsSend l) s (Cert.emits d (.lctl l (Cert.bytes 1 1 ++ Cert.bytes 2 2 ++ Cert.bytes 1 1 ++ Cert.bytes 1 0 ++
          Cert.bytes 2 d.jn.devid ++ Cert.bytes 1 l ++ [k.trained]))) ∧
        ∀ (vmask : BitVec 16) (vhi vmin : BitVec 8) (devid : BitVec 16) (lanes : BitVec 8), let both := k.trained &&& lanes
          (1 ≤ vhi.toNat ∧ vmask.getLsbD 1 = true ∧ 4 ≤ Cert.lanesOf both → puts (.caps l vmask vhi vmin devid lanes) { k with
            state := 4, peer := devid.toNat, lanes := both, vmaj := 1, vmin := 0 }) ∧
          (¬ (1 ≤ vhi.toNat ∧ vmask.getLsbD 1 = true ∧ 4 ≤ Cert.lanesOf both) →
            puts (.caps l vmask vhi vmin devid lanes) { k with state := 5, peer := devid.toNat })) ∧
      (k.state = 4 → k.outq = [] →
        Cert.Makes (.echo l none) s (Cert.emits d (.lctl l (Cert.bytes 1 2 ++ Cert.bytes 8 (now / 17)))) ∧
        (∀ t hold, Cert.Makes (.echo l (some (t, hold))) s (Cert.emits d (.lctl l (Cert.bytes 1 3 ++ Cert.bytes 8 t ++ Cert.bytes 4 hold))) ∧
          puts (.echor l t hold) { k with lat := ((now / 17 - t - hold) / 2) % 65536 }) ∧
        (∀ (lseq lack : BitVec 16) (nak : Bool) (f : Flit), let i (ok : Bool) := Instr.flitReceive l lane ok lseq lack nak f
          let k1 := Cert.acks now lack.toNat k
          Cert.Ends (i false) s (fun x => x = { d with
              links := d.links.set l { k with fail := (k.fail + 1) % 65536, naking := true, failT := (x.link l).failT },
              out := d.out ++ [.nak l (Cert.lastSeq k)] } ∧
            ∀ n, Cert.within1s now n (x.link l).failT = Cert.within1s now n k.failT + if n = lane.val then 1 else 0) ∧
          (nak = false → lseq.toNat ≠ k.rxNext ∨ k.recovering = true → puts (i true) k1) ∧
          (nak = false → lseq.toNat = k.rxNext → k.recovering = false → Cert.Makes (i true) s { d with
            links := d.links.set l { k1 with rxNext := (k.rxNext + 1) % 65536, naking := false },
            jn := { d.jn with inq := d.jn.inq ++ [(l.val, now, f)] } })) ∧
        (k.recovering = false →
          (∀ lack : BitVec 16, let k1 := Cert.acks now lack.toNat k
            (k1.unacked = [] → puts (.nakReplay l lane lack) k1) ∧
            (∀ x r, k1.unacked = x :: r → x.replays < 8 → replays (.nakReplay l lane lack) k1 now) ∧
            logs (.recover l lack) { k1 with recovering := true, recov := true } false [.lctl l (Cert.bytes 1 6 ++ Cert.bytes 2 (Cert.lastSeq k))] now) ∧
          (∀ x r, k.unacked = x :: r → let t := max now (k.ackAt + 68000)
            (x.replays < 8 → replays (.replayTimeout l lane) k t) ∧
            (8 ≤ x.replays → Cert.Ends (.replayTimeout l lane) s (fun y => y.now = t ∧ y.out = d.out ++ [.lctl l (Cert.bytes 1 6 ++ Cert.bytes 2 (Cert.lastSeq k))] ∧
              y.link l = { k with recovering := true, recov := true, exhaust := min 65535 (k.exhaust + 1), exhT := (y.link l).exhT } ∧
              ∃ worst, (y.link l).exhT.getLast? = some (worst, t) ∧ let n (i : Nat) := ((x.lanes ++ [lane.val]).filter (· == i)).length
                ∀ i, i < 8 → n i < n worst ∨ (n i = n worst ∧ worst ≤ i)))) ∧
          (k.lanes.getLsbD lane = true →
            let k1 := { k with lanes := k.lanes &&& ~~~(1#8 <<< lane.val), retired := Cert.mark k.retired lane }
            let goes (i : Instr) (o : List Out) : Prop :=
              (4 < Cert.lanesOf k.lanes → logs i { k1 with
                unacked := Cert.resent lane k.unacked, ackAt := now, replay := (k.replay + k.unacked.length) % 2 ^ 32 } true
                (o ++ Cert.again l (Cert.lastSeq k) (Cert.resent lane k.unacked)) now) ∧
              (Cert.lanesOf k.lanes ≤ 4 → free → logs i { k1 with state := 6, unacked := [] } true o now)
            (∀ from_ : BitVec 16, goes (.retire l lane from_) []) ∧
            (44 < Cert.within1s now lane k.failT ∨ 3 ≤ Cert.within1s now lane k.exhT →
              (k.arm = false → logs (.laneThreshold l lane) { k with overflow := true } true [] now) ∧
              (k.arm = true → goes (.laneThreshold l lane) [.lctl l (Cert.bytes 1 5 ++ Cert.bytes 1 lane ++ Cert.bytes 2 k.txSeq)])))) ∧
        (k.recovering = true → let xs := k.unacked.map (fun x => { x with replays := 0, lanes := [] })
          Cert.Makes (.alignmentLock l) s { d with
            links := d.links.set l { k with recovering := false, unacked := xs, ackAt := now },
            out := d.out ++ Cert.again l (Cert.lastSeq k) xs }) ∧
        ∀ ret : List (BitVec 8), Cert.Ends (.credit l ret) s (fun x =>
          x = { d with links := d.links.set l { k with credits := (x.link l).credits } } ∧
          ∀ tc, (x.link l).credits.getD tc 64 =
            if tc < 6 then min 64 (k.credits.getD tc 64 + (ret.getD tc 0).toNat) else k.credits.getD tc 64)))

/-- R390, R396, R397, R409, R410, R414 to R416: A flit from a link is delivered, forwarded by the route table, or dropped and
counted, with the error response where one is owed; remote reads and writes of close memory are served and others refused; a
response moves a remote transfer on or ends it; JN_RTDATA reads and writes step through the table. -/
def Obligations.JunctionResults : Prop :=
  ∀ (s : State), let d := s.dev
    Cert.Powered d →
    (∀ (l : Fin 24) t f r1 r2, d.jn.inq = r1 ++ (l.val, t, f) :: r2 → (∀ x ∈ r1, x.1 ≠ l.val) →
      let i := Instr.routedFlit l
      let back := if (d.link l).state = 4 ∧ f.tc.toNat < 6 then
        [Out.lctl l (Cert.bytes 1 4 ++ (List.range 6).map (fun n => if n = f.tc.toNat then 1 else 0))] else []
      let u : Dev := { d with jn := { d.jn with inq := r1 ++ r2 }, out := d.out ++ back }
      let mine := f.dst.toNat = d.jn.devid
      let tagged := f.sys = true ∨ (d.listed.isSome = true ∧ f.consist.toNat = d.consist)
      let drops (j : Junction) (logged : Bool) (status : Nat) : Prop := Cert.Ends i s (fun x =>
        let u1 : Dev := { u with jn := j, rc := if logged then x.rc else d.rc }
        (¬ Cert.asks f → x = u1) ∧ (∀ p, Cert.asks f → Cert.Route d f.src.toNat p → x = Cert.sent u1 p (Cert.answer d f status [])))
      (Cert.malformed (d.link l).vmaj f → drops { u.jn with fmtErr := (d.jn.fmtErr + 1) % 65536 } true 0x01) ∧
      (¬ Cert.malformed (d.link l).vmaj f →
        (mine → tagged → Cert.Makes i s { u with jn := { u.jn with inbox := d.jn.inbox ++ [(l.val, d.now, f)] } }) ∧
        (mine → ¬ tagged → drops { u.jn with tagErr := (d.jn.tagErr + 1) % 65536 } true (if f.kind = 4 then 0x08 else 0x0A)) ∧
        (∀ p, Cert.Route d f.dst.toNat p → Cert.Makes i s (Cert.sent u p f)) ∧
        (¬ mine → Cert.NoRoute d f.dst.toNat → drops { u.jn with noRoute := (d.jn.noRoute + 1) % 65536 } false 0x80))) ∧
    (∀ l rx f rest p, Cert.Delivered d l rx f rest → Cert.Route d f.src.toNat p →
      let a := flitU f 12 8
      let n := flitU f 22 1 + 1
      let u := Cert.taken d rest
      let out b := region (a + b) = .reserved ∨ (∃ y o, region (a + b) = .reg y o) ∨ ∃ o, region (a + b) = .host o
      let alien := (∃ b, b < n ∧ out b) ∧ ∀ b, b < n → out b ∨ Cert.Plain d (a + b)
      (f.kind = 4 →
        ((∀ b, b < n → Cert.Plain d (a + b)) →
          Cert.Makes .rdreq s (Cert.sent u p (Cert.answer d f 0 ((List.range n).map (fun b => Cert.byteIn d (a + b)))))) ∧
        (alien → Cert.Makes .rdreq s (Cert.sent u p (Cert.answer d f 0x08 [])))) ∧
      (f.kind = 5 →
        ((∀ b, b < n → Cert.Plain d (a + b)) → Cert.Ends .wrreq s (fun x => ∃ v,
          Cert.Wrote u v n (fun b => a + b) (fun b => (flitBytes f 28 n).getD b 0) ∧
          x = if f.tc = 3 then Cert.sent v p (Cert.answer d f 0 []) else v)) ∧
        (alien → Cert.Makes .wrreq s (if f.tc = 3 then Cert.sent u p (Cert.answer d f 0x0A []) else u)))) ∧
    (∀ l rx f rest k y n t, Cert.Delivered d l rx f rest → f.kind = 6 → d.sh.chans.entries = [(k, y)] →
      y.req = some (flitU f 20 2, n, t) →
      let u := Cert.taken d rest
      let chan (x : Dev) (z : Chan) : Dev := { x with sh := { x.sh with chans := ⟨[(k, z)]⟩ } }
      let at_ := if y.cur.remote = 1 then y.cur.srcAt y.acked else y.cur.dstAt y.acked
      let got : Chan := { y with req := none, acked := y.acked + n, done := y.acked + n }
      (flitU f 23 1 ≠ 0 → Cert.Makes .resp s (chan u { y with
        req := none, fin := some ⟨0x11, if flitU f 23 1 = 0x80 then 0 else flitU f 23 1, y.acked, at_⟩ })) ∧
      (flitU f 23 1 = 0 → y.mode = 2 → y.fin = none → y.cur.count ≤ y.acked + n →
        (y.cur.remote = 2 → Cert.Makes .resp s (chan u { got with fin := some ⟨0, 0, y.cur.count, 0⟩ })) ∧
        (∀ D : Nat → Nat, y.cur.remote = 1 → y.cur.swap = 0 →
          (∀ b, b < n → Cert.Lands d y.ctx .store (y.cur.dstAt (y.acked + b)) (D b)) →
          Cert.Ends .resp s (fun x => ∃ v, Cert.Wrote u v n D (fun b => (flitBytes f 28 n).getD b 0) ∧
            x = chan v { got with fin := some ⟨0, 0, y.cur.count, 0⟩ })))) ∧
    (∀ (e : Fin 16) (c : Fin 16) txn n t, let y := d.sh.chans.getD (e * 16 + c) Chan.reset
      y.req = some (txn, n, t) →
      Cert.Makes (.remoteTimeout e c) s { d with
        now := max d.now (t + 170000000), sh := { d.sh with chans := d.sh.chans.set (e * 16 + c) { y with
          req := none, fin := some ⟨0x11, 0, y.acked, if y.cur.remote = 1 then y.cur.srcAt y.acked else y.cur.dstAt y.acked⟩ } } }) ∧
    ∀ h : Hart, let next (j : Junction) : Junction := if j.rtInc then { j with rtId := (j.rtId + 1) % 65536 } else j
      (d.usable h.stn = true → Cert.Live (d.stn h.stn) → ringMayReg (d.thr h).ring false .jn 0x10 = true →
        Cert.Makes (.routeDataAccess h none) s { d with jn := next d.jn }) ∧
      ∀ v : Word, Cert.Reaches d h .jn 0x10 → Cert.Ends (.routeDataAccess h (some v)) s (fun x =>
        x = { d with jn := next { d.jn with routes := x.jn.routes } } ∧ ∀ dst, x.jn.routes.getD dst 0x1F =
          if dst = d.jn.rtId then (if Cert.fl v 4 0 < 24 then Cert.fl v 4 0 else 0x1F) else d.jn.routes.getD dst 0x1F)

/-! ### Shunters and gather engines -/

/-- R374, R378 to R388, R390: GO, GO of a chain and STOP start, refuse or stop a channel; a descriptor is read and checked; the
end of a transfer leaves its bytes moved, every other byte as before, its status written back in a chain and its channel ended;
a fault ends it at the unit it hit. -/
def Obligations.ShunterResults : Prop :=
  ∀ (s : State) (e : Fin 16) (c : Fin 16), let d := s.dev
    let y := d.sh.chans.getD (e * 16 + c) Chan.reset
    let put (i : Instr) (z : Chan) : Prop := Cert.Makes i s { d with sh := { d.sh with chans := d.sh.chans.set (e * 16 + c) z } }
    (∀ (h : Hart) (v : Word), Cert.Reaches d h (.sh e) (0x120 + 0x40 * c) →
      let kept := BitVec.ofNat 22 (Cert.fl v 47 32 + Cert.fl v 11 10 * 2 ^ 16 + Cert.fl v 9 9 * 2 ^ 18 + Cert.fl v 8 6 * 2 ^ 19)
      let busy (i : Instr) : Prop := Cert.Makes i s { d with sh := { d.sh with gobusy := d.sh.gobusy.set e (Cert.mark (d.sh.gobusy.getD e 0) c) } }
      let x : Desc := ⟨y.src.toNat, y.dst.toNat, 0, 2 ^ 14 + Cert.fl v 8 6 * 4 + Cert.fl v 11 10 * 64, y.cnt.toNat, 0, Cert.fl v 47 32, true⟩
      let direct : Chan := { y with
        ctrl := kept, irqAll := v.getLsbD 9, isChain := false, stop := none, mode := 2, cur := x, acked := 0, req := none, done := 0,
        status := 1, fcode := 0 }
      (v.getLsbD 2 = false →
        (y.mode ≠ 0 → busy (.shGo h e c v) ∧ busy (.shGoChain h e c v)) ∧
        (y.mode = 0 → put (.shGoChain h e c v) { y with
          ctrl := kept, irqAll := v.getLsbD 9, isChain := true, stop := none, fin := none, status := 1, fcode := 0, done := 0, mode := 1 }) ∧
        (y.mode = 0 → ∀ f, Cert.begun d y.ctx x false f →
          (x.ctl / 64 % 4 = 0 ∨ f ≠ none → put (.shGo h e c v) { direct with fin := f }) ∧
          (∀ (D : Nat → Nat) p, x.ctl / 64 % 4 = 1 → x.ctl / 4 % 8 = 0 → f = none → let n := min (64 - y.src.toNat % 64) y.cnt.toNat
            (∀ b, b < n → Cert.Lands d y.ctx .store (y.dst + Cert.nat b) (D b)) → y.dst.toNat + 64 < 2 ^ 47 → y.src.toNat + 64 < 2 ^ 47 →
            Cert.Route d x.devid p → Cert.Makes (.shGo h e c v) s (Cert.sent { d with
              sh := { d.sh with txn := (d.sh.txn + 1) % 65536, chans := d.sh.chans.set (e * 16 + c) { direct with
                fin := none, req := some (d.sh.txn, n, d.now) } } } p
              (Cert.flitTo d 4 3 x.devid false (Cert.bytes 8 y.src.toNat ++ Cert.bytes 2 d.sh.txn ++ Cert.bytes 1 (n - 1) ++ Cert.bytes 5 0)))))) ∧
      (v.getLsbD 0 = false →
        (y.mode = 0 → put (.shStop h e c v) { y with ctrl := kept }) ∧
        (y.mode = 1 ∨ (y.mode = 2 ∧ (y.cur.ctl / 64 % 4 = 0 ∨ y.req ≠ none)) →
          put (.shStop h e c v) { y with stop := some (max 5 (y.stop.getD 0)) }))) ∧
    (y.mode = 1 →
      (∀ b code, b < 64 → d.dmaPlace y.ctx .load (y.chain + Cert.nat b).toNat = .fault code →
        (∀ a, a < b → ∃ pa, Cert.Lands d y.ctx .load (y.chain + Cert.nat a) pa) →
        (∀ a, b < a → a < 64 → (∃ pa, Cert.Lands d y.ctx .load (y.chain + Cert.nat a) pa) ∨
          ∃ f, d.dmaPlace y.ctx .load (y.chain + Cert.nat a).toNat = .fault f) →
        Cert.Ends (.descriptorStart e c) s (fun x => Cert.Ended d x e c y ⟨3, code, 0, y.chain⟩)) ∧
      ∀ D : Nat → Nat, (∀ b, b < 64 → Cert.Lands d y.ctx .load (y.chain + Cert.nat b) (D b)) →
        let v := Cert.numIn d D 64
        let f (hi lo : Nat) := v / 2 ^ lo % 2 ^ (hi + 1 - lo)
        let x : Desc := ⟨f 47 0, f 95 48, f 143 96, f 159 144, f 191 160, f 431 192, f 447 432, decide (f 503 496 = 0 ∧ f 510 504 = 0)⟩
        (f 511 511 = 0 → Cert.Ends (.descriptorStart e c) s (fun u => Cert.Ended d u e c y ⟨0x12, 0, 0, 0⟩)) ∧
        (f 511 511 = 1 → ∀ g, Cert.begun d y.ctx x true g → x.ctl / 64 % 4 = 0 ∨ g ≠ none → put (.descriptorStart e c) { y with
          mode := 2, cur := x, fin := g, acked := 0, req := none, done := 0, status := 1, fcode := 0 })) ∧
    (y.mode = 2 → ∀ data reached, let i := Instr.transferEnd e c data reached
      let x := y.cur
      let u := Cert.unit (x.ctl / 4 % 8)
      let size (k : Nat) : Nat := if y.stop = none then k else min k ((reached + 63) / 64 * 64)
      let moved (S D : Nat → Nat) (n : Nat) (z : Dev) : Prop := ∃ B, Cert.Wrote { d with free := z.free } z n D B ∧
        (∀ b, b < n → (∀ a, a < x.count → S a ≠ D b) → B b = Cert.byteIn d (S (Cert.swapped (x.ctl / 4 % 8) b))) ∧
        ((∀ a b, a < x.count → b < n → S a ≠ D b) → z.free = d.free)
      (∀ f, y.fin = some f → y.isChain = false → f.status ≠ 0x10 → Cert.Ends i s (fun z => Cert.Ended d z e c y f)) ∧
      (y.fin = none → x.ctl / 64 % 4 = 0 → ∀ S D : Nat → Nat,
        (∀ b, b < x.count → Cert.Lands d y.ctx .load (Cert.srcOf x b) (S b) ∧ Cert.Lands d y.ctx .store (Cert.dstOf x b) (D b)) →
        let n := size x.count
        let how : Fin_ := ⟨if n = x.count then 0 else y.stop.getD 0, 0, n, 0⟩
        (y.isChain = false → Cert.Ends i s (fun z => ∃ m, moved S D n m ∧ Cert.Ended m z e c y how)) ∧
        (∀ T : Nat → Nat, y.isChain = true → x.ctl / 32 % 2 = 0 →
          (∀ b, b < 64 → (Cert.Lands d y.ctx .load (y.chain + Cert.nat b) (T b)) ∧ (Cert.Lands d y.ctx .store (y.chain + Cert.nat b) (T b))) →
          (∀ a b, a < x.count → b < 64 → D a ≠ T b) →
          let status := (Cert.bytes 4 how.done ++ [BitVec.ofNat 8 how.status, 0])
          Cert.Ends i s (fun z => ∃ m1 m2 m3, moved S D n m1 ∧ Cert.Wrote m1 m2 6 (fun b => T (56 + b)) (fun b => status.getD b 0) ∧
            Cert.Wrote m2 m3 1 (fun _ => T 63) (fun _ => Cert.byteIn m2 (T 63) &&& 0x7F) ∧
            if how.status = 0 ∧ x.next ≠ 0 ∧ y.stop = none then
              z = { m3 with sh := { d.sh with chans := d.sh.chans.set (e * 16 + c) { y with
                mode := 1, chain := Cert.w ((x.next : Int).bmod (2 ^ 48)), fin := none, req := none, acked := 0 } } }
            else Cert.Ended m3 z e c y how))) ∧
      (y.fin = none → x.ctl / 64 % 4 = 0 → y.stop = none → y.isChain = false → ∀ (S D : Nat → Nat) k code (dst : Bool), k < x.count →
        (∀ b, b < x.count → b ≠ k → Cert.Lands d y.ctx .load (Cert.srcOf x b) (S b) ∧ Cert.Lands d y.ctx .store (Cert.dstOf x b) (D b)) →
        (if dst then Cert.Lands d y.ctx .load (Cert.srcOf x k) (S k) ∧ d.dmaPlace y.ctx .store (Cert.dstOf x k).toNat = .fault code
          else d.dmaPlace y.ctx .load (Cert.srcOf x k).toNat = .fault code ∧ ∃ pa, Cert.Lands d y.ctx .store (Cert.dstOf x k) pa) →
        (∀ a b, a < x.count → b < k → S a ≠ D b) →
        Cert.Ends i s (fun z => ∃ m, moved S D (k / u * u) m ∧
          Cert.Ended m z e c y ⟨3, code, k / u * u, if dst then Cert.dstOf x k else Cert.srcOf x k⟩)))

/-- R333 to R338: START, RESUME and STOP of a stream, one element of a gather and of a scatter with exactly its bytes moved,
elements that fail with their code and address, and a stream that leaves ACTIVE with its bits and IPEND.GATHER. -/
def Obligations.GatherResults : Prop :=
  ∀ (s : State) (n : Fin 128) (k : Fin 64), let d := s.dev
    let st := d.stn n
    let g := st.stream k
    let len := Cert.elBytes g
    (∀ h : Hart, Cert.Reaches d h (.stGe n) 0 →
      (g.state = 1 →
        Cert.StnIs (.geStart h n k) s d n st ∧ Cert.StnIs (.geResume h n k) s d n st ∧
        Cert.StnIs (.geStop h n k) s d n { st with ge := st.ge.set k { g with ends := if g.ends = none then some (4, 0, 0) else g.ends } }) ∧
      (g.state ≠ 1 → Cert.StnIs (.geStop h n k) s d n st ∧ ∀ (i : Instr) (p : Nat), (i = .geStart h n k ∧ p = 0) ∨ (i = .geResume h n k ∧ p = g.pos) →
        let g1 := { g with thr := h.thr, ring := (d.thr h).ring, pos := p, fcode := 0, ends := none }
        let st1 := { st with geFault := Cert.unmark st.geFault k }
        (Cert.badEntry g → Cert.StnIs i s d n (Cert.streamTo st1 k g1 3 1 0)) ∧
        (¬ Cert.badEntry g → g.count.toNat ≤ p → Cert.StnIs i s d n (Cert.streamTo st1 k g1 2 0 0)) ∧
        (¬ Cert.badEntry g → p < g.count.toNat → Cert.StnIs i s d n { st1 with ge := st.ge.set k { g1 with state := 1 } }))) ∧
    (Cert.Live st → Cert.Turn st k → st.spState = 0 →
      let i := Instr.gatherElement n false
      let ia := g.idxaddr + Cert.nat (g.pos * Cert.idxBytes g)
      let sp (b : Nat) : Nat := 0x10000000000 + n * 0x800000 + g.spoff.toNat + g.pos * len + b
      let into (x : Dev) (g1 : GStream) : Dev := { x with stns := x.stns.set n { x.stn n with ge := st.ge.set k g1, geLast := k } }
      let fails (x : Dev) (code : Nat) (a : Word) : Prop := Cert.Makes i s (into x { g with ends := some (3, code, a) })
      (∀ d1 code, d.geXlat n g.ring .load ia.toNat = (d1, .fault code) → fails d1 code ia) ∧
      (∀ d1 ipa e, d.geXlat n g.ring .load ia.toNat = (d1, .ok ipa e) → (∀ b, b < Cert.idxBytes g → Cert.Plain d (ipa + b)) →
        (ia.toNat % Cert.idxBytes g = 0) →
        let x := (Cert.numIn d (fun b => ipa + b) (Cert.idxBytes g) : Int).bmod (2 ^ (8 * Cert.idxBytes g))
        let a := g.dbase + Cert.w (x * if g.cfg.getLsbD 6 then len else 1)
        (a.toNat % len ≠ 0 → fails d1 3 a) ∧
        (a.toNat % len = 0 → ∀ d2, (∀ code, d1.geXlat n g.ring (if g.cfg.getLsbD 5 then .store else .load) a.toNat = (d2, .fault code) → fails d2 code a) ∧
          (∀ pa f, d1.geXlat n g.ring (if g.cfg.getLsbD 5 then .store else .load) a.toNat = (d2, .ok pa f) →
            g.spoff.toNat + (g.pos + 1) * len ≤ 2 ^ 23 → len ≤ 64 →
            let ends (D : Nat → Nat) (B : Nat → Byte) : Prop := Cert.Ends i s (fun x => ∃ v, Cert.Wrote d2 v len D B ∧ x = into v { g with pos := g.pos + 1 })
            (g.cfg.getLsbD 5 = false → (∀ b, b < len → Cert.Plain d (pa + b)) → ends sp (fun b => Cert.byteIn d (pa + b))) ∧
            (g.cfg.getLsbD 5 = true → (∀ b, b < len → Cert.Plain d (pa + b) ∧ Cert.Plain d (sp b)) →
              ends (fun b => pa + b) (fun b => Cert.byteIn d (sp b))) ∧
            (g.cfg.getLsbD 5 = false → region pa = .gddr → pa / 128 ∈ d.mem.poison → Cert.Ends i s (fun x =>
              x = { into d2 { g with ends := some (3, 0x12, a) } with rc := x.rc })))))) ∧
    (g.state = 1 → ∀ st' code (a : Word), (g.ends = none ∧ g.count.toNat ≤ g.pos ∧ st' = 2 ∧ code = 0) ∨
        (∃ f, g.ends = some (f, code, a) ∧ st' = if f = 4 ∧ g.count.toNat ≤ g.pos then 2 else f) →
      let st1 := Cert.streamTo st k g st' code a
      (g.cfg.getLsbD 7 = false → Cert.StnIs (.streamEnd n k) s d n st1) ∧
      (g.cfg.getLsbD 7 = true → let t : Fin 4 := Fin.ofNat 4 g.thr
        Cert.Ends (.streamEnd n k) s (fun x => x = { d with stns := x.stns } ∧ (∀ m, m ≠ n.val → x.stn m = d.stn m) ∧
          ((x.stn n).thr t).ipend = ((st.thr t).ipend ||| 8) ∧ (x.stn n).ge = st1.ge ∧ (x.stn n).geDone = st1.geDone ∧
          (x.stn n).geFault = st1.geFault ∧ (x.stn n).geFaddr = st1.geFaddr ∧ (x.stn n).sp = st.sp)))

/-! ### Reductions -/

/-- R418 to R424: An instance starts from its descriptor with its checks; local operands and those of children arrive; their
fold goes up, or is written at the root; results come down; an instance fails on an ABORT or a mismatch; and its end writes the
status and IPEND.SHUNTER. (FP32 flags of a fold are left to the functions of the formats.) -/
def Obligations.ReductionResults : Prop :=
  ∀ (s : State) (g : Fin 16), let d := s.dev
    let x := d.jn.grp g
    let put (i : Instr) (y : RedGrp) : Prop := Cert.Makes i s (Cert.withGrp d g y)
    let want (i : RedInst) : Nat := if i.op = 3 then 1 else (if x.cfg.getLsbD 49 then 1 else 0) + x.nchild
    Cert.AllOn d → Cert.Powered d →
    (∀ (h : Hart) (v : Word) (D : Nat → Nat), Cert.Reaches d h .jn (0x200 + 8 * g) →
      let a := Cert.fl v 47 6 * 64
      (∀ b, b < 64 → Cert.Lands d x.ctx .load (Cert.nat (a + b)) (D b)) →
      let n := Cert.numIn d D 64
      let f (hi lo : Nat) := n / 2 ^ lo % 2 ^ (hi + 1 - lo)
      let op := f 135 128
      let fmt := f 143 136
      let wire := f 151 144
      let allowed := op ≤ 3 ∧ fmt ∈ [2, 3, 8, 9, 11] ∧ wire ≤ 4 ∧ f 157 153 = 0 ∧ f 159 158 = 1 ∧ f 447 192 = 0 ∧ f 510 504 = 0 ∧
        (wire = 0 ∨ ((fmt = 9 ∨ fmt = 11) ∧ (op = 0 ∨ op = 3)))
      let listed := x.ctx.toNat / 2 ^ 8 < 128 ∧ d.usable (x.ctx.toNat / 2 ^ 8) = true
      (x.inst ≠ none → Cert.Makes (.reductionGo h g v) s d) ∧
      (x.inst = none → put (.reductionGo h g v) { x with addr := a, inst := some {
        addr := a, src := f 47 0, dst := f 95 48, count := f 127 96, op := op, fmt := fmt, wire := wire, all := decide (f 152 152 = 1),
        seq := f 191 160, ops := [], nextLocal := 0, chunks := [], done := 0, flags := 0,
        fin := if f 511 511 = 0 then some ⟨0x12, 0, 0, 0⟩ else if ¬ (allowed ∧ listed) then some ⟨2, 0, 0, 0⟩
          else if f 127 96 = 0 then some ⟨0, 0, 0, 0⟩ else none } })) ∧
    (∀ i, x.inst = some i → i.fin = none →
      let sz := Cert.elSize i.fmt
      let writes (j : Instr) (u : Dev) (c : Nat) (D : Nat → Nat) (B : Nat → Byte) (y : RedInst) : Prop := Cert.Ends j s (fun z => ∃ v,
        Cert.Wrote u v (Cert.inChunk i c * sz) D B ∧ ∃ fl, z = Cert.withGrp v g { x with inst := some { y with
          chunks := setAdd i.chunks c, done := i.done + Cert.inChunk i c, flags := fl } } ∧ (i.fmt ≠ 9 → fl = i.flags))
      (∀ S : Nat → Nat, let c := i.nextLocal
        let n := Cert.inChunk i c
        c * Cert.perChunk i < i.count → (if i.op = 3 then x.parent = 0x1F else x.cfg.getLsbD 49 = true) →
        (∀ b, b < n * sz → Cert.Lands d x.ctx .load (Cert.chunkAt i i.src c b) (S b)) →
        let vals := (List.range n).map (fun j => Cert.numIn d (fun b => S (sz * j + b)) sz * if i.fmt = 11 then 65536 else 1)
        let here := i.ops.filter (fun o => o.chunk == c)
        (c ∉ i.chunks → here.length + 1 < want i → put (.localOperandArrival g) { x with inst := some { i with
          nextLocal := c + 1, ops := i.ops ++ [⟨c, 0, vals⟩] } }) ∧
        (c ∉ i.chunks → here = [] → want i = 1 → i.wire = 0 → x.parent < 24 → i.all = false → Cert.ReadyLink (d.link x.parent) →
          let fsz := if sz = 8 then 8 else 4
          Cert.Makes (.localOperandArrival g) s (Cert.withGrp (Cert.sent d x.parent (Cert.redTo d x.parent g i 0 c 0
            ((vals ++ List.replicate (Cert.perChunk i - n) 0).flatMap (Cert.bytes fsz)))) g { x with inst := some { i with
              nextLocal := c + 1, done := i.done + n, chunks := setAdd i.chunks c } })) ∧
        (c ∉ i.chunks → here = [] → want i = 1 → i.fmt ≠ 11 → i.fmt ≠ 9 → x.parent = 0x1F → i.all = false → ∀ D : Nat → Nat,
          (∀ b, b < n * sz → Cert.Lands d x.ctx .store (Cert.chunkAt i i.dst c b) (D b)) →
          writes (.localOperandArrival g) d c D (fun b => Cert.byteIn d (S b)) { i with nextLocal := c + 1 })) ∧
      (∀ l rx f rest, Cert.Delivered d l rx f rest → f.kind = 7 → flitU f 12 1 = g.val →
        let u := Cert.taken d rest
        let dir := flitU f 13 1
        let c := flitU f 20 4
        let n := Cert.inChunk i c
        let agree := flitU f 16 4 = i.seq ∧ flitU f 24 1 = i.op ∧ flitU f 25 1 = i.fmt ∧ flitU f 26 1 = i.wire ∧ c * Cert.perChunk i < i.count
        let here := i.ops.filter (fun o => o.chunk == c)
        (dir / 2 % 2 = 1 → Cert.Makes .red s (Cert.withGrp u g { x with inst := some { i with fin := some ⟨0x11, 0, i.done, 0⟩ } })) ∧
        (dir / 2 % 2 = 0 → ¬ agree → Cert.Ends .red s (fun z => (z.jn.grp g).inst = some { i with fin := some ⟨2, 0, i.done, 0⟩ } ∧
          z.jn.inbox = rest ∧ z.mem = d.mem ∧ z.stns = d.stns ∧
          (x.nchild = 0 → x.parent < 24 → Cert.ReadyLink (d.link x.parent) →
            z.out = (Cert.sent d x.parent (Cert.redTo d x.parent g i 2 0 2 [])).out))) ∧
        (agree → dir = 0 → i.wire = 0 → i.op ≠ 3 → ∀ k, k < x.nchild → x.child k = l → (∀ j, j < k → x.child j ≠ l) →
          let fsz := if sz = 8 then 8 else 4
          let vals := (List.range n).map (fun j => flitU f (28 + fsz * j) fsz)
          (here.length + 1 < want i → Cert.Makes .red s (Cert.withGrp u g { x with inst := some { i with ops := i.ops ++ [⟨c, k + 1, vals⟩] } })) ∧
          (∀ o, c ∉ i.chunks → here = [o] → want i = 2 → i.fmt = 2 ∨ i.fmt = 3 ∨ (i.fmt = 9 ∧ i.op = 0) → x.parent = 0x1F → i.all = false →
            ∀ D : Nat → Nat, o.place ≤ 8 → o.vals.length = n → (∀ v ∈ o.vals, v < 2 ^ (8 * sz)) →
            (∀ b, b < n * sz → Cert.Lands d x.ctx .store (Cert.chunkAt i i.dst c b) (D b)) →
            let res (j : Nat) : Nat := if k + 1 < o.place ∧ d.repro = true then Cert.combined i.op i.fmt (vals.getD j 0) (o.vals.getD j 0)
              else Cert.combined i.op i.fmt (o.vals.getD j 0) (vals.getD j 0)
            writes .red u c D (fun b => Cert.byteOf (res (b / sz)) (b % sz)) { i with ops := i.ops.filter (fun o => o.chunk != c) })) ∧
        (agree → dir = 1 → i.wire = 0 → i.fmt ≠ 11 → i.fmt ≠ 9 → x.parent = l → i.all = true → x.nchild = 0 → ∀ D : Nat → Nat,
          (∀ b, b < n * sz → Cert.Lands d x.ctx .store (Cert.chunkAt i i.dst c b) (D b)) →
          writes .red u c D (fun b => (flitBytes f 28 224).getD b 0) i))) ∧
    (∀ i f (T : Nat → Nat), x.inst = some i →
      (i.fin = some f ∨ (i.fin = none ∧ i.op ≠ 3 ∧ i.chunks.length * Cert.perChunk i ≥ i.count ∧ f = ⟨0, 0, i.done, 0⟩)) →
      (∀ b, b < 64 → Cert.Lands d x.ctx .load (Cert.nat (x.addr + b)) (T b)) →
      i.addr = x.addr → (∀ b, b < 64 → Cert.Lands d x.ctx .store (Cert.nat (x.addr + b)) (T b)) →
      let ends (z m : Dev) : Prop := z = { Cert.withGrp m g { x with inst := none, status := f.status, fcode := f.fcode, done := f.done } with
          stns := z.stns } ∧
        let k := x.ctx.toNat / 2 ^ 8
        let t := Fin.ofNat 4 (x.ctx.toNat / 16 % 4)
        (∀ j, j ≠ k → z.stn j = m.stn j) ∧ (k < 128 → d.usable k = true → ((z.stn k).thr t).ipend = ((d.stn k).thr t).ipend ||| 4)
      (f.status = 0x12 → Cert.Ends (.reductionEnd g) s (fun z => ends z d)) ∧
      (f.status ≠ 0x12 → ¬ (f.status = 3 ∧ f.addr = Cert.nat i.addr) →
        let status := Cert.bytes 4 f.done ++ [BitVec.ofNat 8 f.status, BitVec.ofNat 8 f.fcode, i.flags.setWidth 8]
        Cert.Ends (.reductionEnd g) s (fun z => ∃ m1 m2, Cert.Wrote d m1 7 (fun b => T (56 + b)) (fun b => status.getD b 0) ∧
          Cert.Wrote m1 m2 1 (fun _ => T 63) (fun _ => Cert.byteIn m1 (T 63) &&& 0x7F) ∧ ends z m2)))

/-! ### Scratchpad power, translation registers, the far tier's ports -/

/-- R315 to R317, R354, R355, R361, R363, R366, R368: SP_PWR, the power steps and the wake of a scratchpad, with a load that
waited for it; MM_ROOT and MM_TLBINV and the entries they drop; FT_SMBASE and FT_INVAL with the lines they drop; a CXL port
going down and coming up. -/
def Obligations.MemoryUnitResults : Prop :=
  ∀ (s : State) (n : Fin 128), let d := s.dev
    let st := d.stn n
    (∀ (h : Hart) (v : Word), Cert.Reaches d h (.stSp n) 0 →
      (Cert.fl v 1 0 = 3 → Cert.StnIs (.spPwrWrite h n v) s d n st) ∧
      (Cert.fl v 1 0 ≠ 3 → Cert.StnIs (.spPwrWrite h n v) s d n { st with
        spTarget := BitVec.ofNat 2 (Cert.fl v 1 0),
        spState := if Cert.fl v 1 0 = 0 ∧ (st.spState = 1 ∨ st.spState = 2) then 3 else st.spState })) ∧
    (st.engIdle = true → (∀ k, k < 64 → (st.stream k).state ≠ 1) →
      (∀ p ∈ d.stns.entries, ∀ k, k < 4 → match (p.2.thr k).wait with
        | .reply _ _ => False
        | .wake _ _ => False
        | _ => True) →
      Cert.StnIs (.spPowerDown n) s d n (if st.spTarget = 1 ∧ st.spState = 0 then { st with spState := 1 }
        else if st.spTarget = 2 ∧ (st.spState = 0 ∨ st.spState = 1) then { st with spState := 2, sp := Mem.empty, spPoison := [] } else st)) ∧
    (st.spState = 3 →
      ((∀ p ∈ d.stns.entries, ∀ k, k < 4 → match (p.2.thr k).wait with
          | .wake _ _ => False
          | _ => True) → Cert.StnIs (.spWakeEnd n) s d n { st with spState := 0 }) ∧
      (∀ (i : Instr) (h : Hart) (rd a : Fin 32) (o : Int) (len : Nat) (sg hit : Bool) (op : MemOp) (pa : Nat) (e : TlbE) (off : Nat),
        Cert.ldRule i = some (h, rd, a, o, len, sg, hit, op) → (d.thr h).wait = .wake op [(pa, e)] → Cert.Live (d.stn h.stn) →
        (∀ m : Hart, m ≠ h → match (d.thr m).wait with
          | .wake _ _ => False
          | _ => True) →
        region pa = .scratch n off → (∀ g ∈ st.spPoison, g * 8 + 8 ≤ off ∨ off + len ≤ g * 8) → (∀ p ∈ d.stns.entries, p.1 < 128) →
        d.stns.entries.Pairwise (fun p q => p.1 < q.1) →
        Cert.Ends (.spWakeEnd n) s (fun x => (x.stn n).spState = 0 ∧
          x.thr h = { ((d.thr h).setG rd (Cert.loaded len sg (Cert.le st.sp off len))).done 4 with
            wait := .ready, mq := (x.thr h).mq, mqPend := (x.thr h).mqPend }))) ∧
    (∀ (h : Hart) (v : Word),
      (Cert.Reaches d h (.stMm n) 0 → Cert.StnIs (.mmRootWrite h n v) s d n { st with
        mmBase := BitVec.ofNat 36 (Cert.fl v 47 12), mmEn := v.getLsbD 0, tlb := [], geTlb := [] }) ∧
      (Cert.Reaches d h (.stMm n) 8 →
        let keep (e : TlbE) : Bool := v.getLsbD 0 = false ∧ e.vpn / e.span ≠ Cert.fl v 47 12 / e.span
        let drop (u : Station) : Station := { u with tlb := u.tlb.filter keep, geTlb := u.geTlb.filter keep }
        (v.getLsbD 1 = false → Cert.StnIs (.mmTlbinv h n v) s d n (drop st)) ∧
        (v.getLsbD 1 = true → Cert.Ends (.mmTlbinv h n v) s (fun x => x = { d with stns := x.stns } ∧
          ∀ k, x.stn k = if k < 128 ∧ d.present k = true then drop (d.stn k) else d.stn k))) ∧
      (Cert.Reaches d h .ft 0 → let base := Cert.fl v 47 27 * 0x8000000
        Cert.Makes (.ftSmbaseWrite h v) s (if base ≤ 0x2FF8000000 then { d with
          mem := { d.mem with smBase := base, smEn := v.getLsbD 0 } } else d)) ∧
      (Cert.Reaches d h .ft 8 →
        let all := v.getLsbD 27 = true
        let i := Cert.fl v 26 0
        let named (l : Nat) : Bool := all ∨ (l * 128 - 0x100000000000) / 0x80000 = i
        let keep (e : TlbE) : Bool := ¬ (e.siding.isSome = true ∧ (all ∨ (e.base - 0x100000000000) / 0x80000 = i))
        let lines := d.mem.dirty.filter (fun l => !named l)
        (¬ all → 2 ^ 24 ≤ i → Cert.Makes (.ftInval h v) s d) ∧
        (all ∨ i < 2 ^ 24 → Cert.Ends (.ftInval h v) s (fun x =>
          x = { d with stns := x.stns, free := x.free, mem := { d.mem with dirty := lines, far := x.mem.far } } ∧
          (∀ k, x.stn k = { d.stn k with tlb := (d.stn k).tlb.filter keep, geTlb := (d.stn k).geTlb.filter keep }) ∧
          (v.getLsbD 28 = true → x.mem = { d.mem with dirty := lines } ∧ x.free = d.free) ∧
          ∀ c, (∀ l ∈ d.mem.dirty, named l = true → let e := d.sidingAt (l * 128 - 0x100000000000)
              let at_ := (sidingPort e (l * 128 - 0x100000000000)).1 * 2 ^ 52 + (sidingPort e (l * 128 - 0x100000000000)).2
              c % 2 ^ 54 < at_ ∨ at_ + 128 ≤ c % 2 ^ 54) → x.mem.far.get c = d.mem.far.get c)))) ∧
    ∀ p : Fin 4, let port := d.mem.ports.getD p 0
      let into (v : Word) (x : Dev) : Dev := { d with rc := x.rc, mem := { d.mem with ports := d.mem.ports.set p v } }
      (port.getLsbD 0 = true → Cert.Ends (.cxlPortDown p) s (fun x => x = into (Cert.unmark port 0) x) ∧
        ∀ sw dcd gpf w u, Cert.Makes (.cxlLinkUp p sw dcd gpf w u) s d) ∧
      (port.getLsbD 0 = false → Cert.Makes (.cxlPortDown p) s d ∧
        (Cert.Powered d → ∀ (sw dcd gpf : Bool) (w : Fin 16),
          Cert.Makes (.cxlLinkUp p sw dcd gpf w false) s { d with mem := { d.mem with
            ports := d.mem.ports.set p (Cert.nat (1 + 2 * w + (if gpf then 2 ^ 8 else 0) + (if dcd then 2 ^ 9 else 0) + if sw then 2 ^ 10 else 0)) } } ∧
          Cert.Ends (.cxlLinkUp p sw dcd gpf w true) s (fun x => x = into (Cert.nat (2 ^ 11)) x)))

/-! ### The host ports and the ledger -/

/-- R449, R450, R453 to R456, R459, R460, R462 to R464, R466: Doorbells; the first check of a waybill that applies decides its
outcome, and an accepted one is written and flushed; flushes complete or time out; START, COMMIT and FAIL change entries in the
states that allow it; the ledger switch writes COMMITTED in order of sequence; recovery rebuilds a queue from its window. -/
def Obligations.LedgerResults : Prop :=
  ∀ (s : State) (q : Fin 16), let d := s.dev
    let ld := d.host.ld
    let z := ld.sqs.getD q Sq.reset
    let err (i : Instr) (b : Nat) : Prop := Cert.Makes i s (Cert.withLd d { ld with err := Cert.mark ld.err b })
    Cert.Powered d →
    (∀ v : BitVec 32, let exceeds := 2 ^ 31 ≤ (v.toNat + 2 ^ 32 - z.prod) % 2 ^ 32 ∨ 2 ^ z.log2s < (v.toNat + 2 ^ 32 - z.taken) % 2 ^ 32
      (exceeds → err (.prod q v) 0) ∧ (¬ exceeds → Cert.Makes (.prod q v) s (Cert.withSq d q { z with prod := v.toNat }))) ∧
    (∀ v : Word, Cert.Makes (.retireDoorbell q v) s (Cert.withSq d q { z with retire := v })) ∧
    (z.taken ≠ z.prod → z.recovering = false → ∀ r,
      let raw := (d.readLoc (TlbE.phys 0) (z.base + 256 * (z.taken % 2 ^ z.log2s)) 256).1
      let x := natLE raw
      let seq := Cert.part x 127 64
      let tag := Cert.part x 511 448
      let u := Cert.withSq d q { z with taken := (z.taken + 1) % 2 ^ 32 }
      Cert.outcome d q x r →
      (∀ c, r = .reject c → Cert.RingOn d q → Cert.Makes (.waybillCheck q) s (Cert.replied u q seq 0x20 0 c 0 tag)) ∧
      (∀ e, r = .dup e →
        ((∀ f ∈ ld.flushes, ¬ (f.q = q.val ∧ f.seq = Cert.nat seq ∧ f.what = .accepted)) → Cert.RingOn d q →
          Cert.Makes (.waybillCheck q) s (Cert.replied u q seq 0x10 e.state e.status (if e.outsel then 1 else 0) tag)) ∧
        (∀ l f l2, ld.flushes = l ++ f :: l2 → (f.q = q.val ∧ f.seq = Cert.nat seq ∧ f.what = .accepted) →
          (∀ g ∈ l ++ l2, ¬ (g.q = q.val ∧ g.seq = Cert.nat seq ∧ g.what = .accepted)) →
          Cert.Makes (.waybillCheck q) s (Cert.withLd u { u.host.ld with flushes := l ++ { f with dups := f.dups + 1 } :: l2 }))) ∧
      (r = .accept →
        let v := Cert.withSq d q { z with taken := (z.taken + 1) % 2 ^ 32, next := z.next + 1 }
        (∀ m, v.ldWrite (Cert.bodyAt z seq) raw = some m →
          let e := Cert.entryBytes seq 1 0 0 q d.consist tag d.tt.tick 0 d.jn.devid (Cert.part x 31 16) 0
          (m.ldWrite (Cert.entryAt z seq) e ≠ none → Cert.Ends (.waybillCheck q) s (fun y => Cert.Flushed m y q (Cert.entryAt z seq) seq e .accepted)) ∧
          (m.ldWrite (Cert.entryAt z seq) e = none → Cert.Ends (.waybillCheck q) s (fun y => Cert.Locked m y q))) ∧
        (v.ldWrite (Cert.bodyAt z seq) raw = none → Cert.Ends (.waybillCheck q) s (fun y => Cert.Locked v y q)))) ∧
    (∀ l f l2, ld.flushes = l ++ f :: l2 → f.q = q.val → (∀ g ∈ l, g.q ≠ q.val) →
      let u := Cert.withLd d { ld with flushes := l ++ l2 }
      Cert.Ends (.gpfto q) s (fun x => x = { Cert.withLd u { u.host.ld with err := Cert.mark ld.err 3, locked := Cert.mark ld.locked q } with
        now := max d.now (f.at_ + ld.gpfto * 17000), rc := x.rc }) ∧
      ∀ e, d.ldRead (Cert.entryAt z f.seq.toNat) 64 = some e → let seq := Cert.part e 63 0
        (f.what = .committed → let bs := Cert.rewritten e 4 (Cert.part e 79 72) (Cert.part e 87 80) (Cert.part e 92 92) d.tt.tick (Cert.part e 383 352)
          u.ldWrite (Cert.entryAt z seq) bs ≠ none → Cert.Ends (.flushComplete q) s (fun x => Cert.Flushed u x q (Cert.entryAt z seq) seq bs .completed)) ∧
        (f.what = .returned → Cert.Makes (.flushComplete q) s u) ∧
        (Cert.RingOn d q →
          (f.what = .accepted → f.dups = 0 → Cert.Makes (.flushComplete q) s (Cert.replied u q seq 1 0 0 0 (Cert.part e 191 128))) ∧
          (f.what = .completed ∨ f.what = .failed → let kind := if Cert.part e 71 64 = 4 then 2 else 3
            let done := Cert.replied u q seq kind 0 (Cert.part e 87 80) (Cert.part e 92 92) (Cert.part e 191 128)
            ∀ b, d.ldRead (Cert.bodyAt z seq) 8 = some b →
              (Cert.part b 32 32 = 0 → Cert.Makes (.flushComplete q) s done) ∧
              (∀ x, Cert.part b 32 32 = 1 → d.host.qps = [x] → x.port = z.port → x.sqmask.testBit q = true →
                Cert.Makes (.flushComplete q) s (Cert.emits done (.send x.port x.qpn
                  (Cert.replyOf z q seq kind 0 (Cert.part e 87 80) (Cert.part e 92 92) (Cert.part e 191 128)))))))) ∧
    (∀ (h : Hart) (v : Word), Cert.Reaches d h .ld 8 → ∀ i, i = .start h v ∨ i = .commit h v ∨ i = .fail h v →
      let bad : Prop := Cert.Ends i s (fun x => x = { Cert.withLd d { ld with err := Cert.mark ld.err 1 } with rc := x.rc })
      (ld.halted = true → err i 2) ∧
      (ld.halted = false → ld.dl.length ≤ Cert.fl v 19 8 → bad) ∧
      (ld.halted = false → ∀ y, ld.dl[Cert.fl v 19 8]? = some y →
        let t := ld.sqs.getD y.q Sq.reset
        let waits := ∃ c ∈ ld.commits, c.q = y.q ∧ c.seq = y.seq
        ∀ e, d.ldRead (Cert.entryAt t y.seq.toNat) 64 = some e →
          let state := Cert.part e 71 64
          let new (st att status end_ ab : Nat) := Cert.rewritten e st att status (Cert.part e 92 92) end_ ab
          (Cert.part e 63 0 ≠ y.seq.toNat → bad) ∧
          (Cert.part e 63 0 = y.seq.toNat →
            (i = .start h v → (state ≠ 1 → bad) ∧ (state = 1 → ∀ m,
              d.ldWrite (Cert.entryAt t y.seq.toNat) (new 2 (min 255 (Cert.part e 79 72 + 1)) (Cert.part e 87 80) (Cert.part e 319 256) y.absent) = some m →
              Cert.Makes i s m)) ∧
            (i = .commit h v → (state ≠ 2 ∨ waits → bad) ∧ (state = 2 → ¬ waits →
              Cert.Makes i s (Cert.withLd d { ld with commits := ld.commits ++ [⟨y.q, y.seq, v.getLsbD 4, Cert.fl v 31 24⟩] }))) ∧
            (i = .fail h v → (state ≠ 2 ∨ waits → bad) ∧ (state = 2 → ¬ waits →
              let bs := new 5 (Cert.part e 79 72) (Cert.fl v 31 24) d.tt.tick (Cert.part e 383 352)
              d.ldWrite (Cert.entryAt t y.seq.toNat) bs ≠ none →
              Cert.Ends i s (fun x => Cert.Flushed d x y.q (Cert.entryAt t y.seq.toNat) y.seq.toNat bs .failed)))))) ∧
    (∀ c e w pre, ld.halted = false → ld.commits = [c] → c.q = q.val → let seq := c.seq.toNat
      d.ldRead (Cert.entryAt z seq) 64 = some e → Cert.part e 63 0 = seq → d.ldRead (Cert.bodyAt z seq) 64 = some w →
      (1 < seq → d.ldRead (Cert.entryAt z (seq - 1)) 64 = some pre) →
      (seq ≤ 1 ∨ Cert.part pre 63 0 ≠ seq - 1 ∨ 3 ≤ Cert.part pre 71 64 →
        let a := if c.sel then Cert.part w 383 320 else Cert.part w 319 256
        let u := { Cert.withLd d { ld with commits := [] } with mem := { d.mem with dirty := d.mem.dirty.filter (fun l =>
          ¬ (a < l * 128 + 128 ∧ l * 128 < a + Cert.part w 415 384)) } }
        let bs := Cert.rewritten e 3 (Cert.part e 79 72) c.status (if c.sel then 1 else 0) (Cert.part e 319 256) (Cert.part e 383 352)
        u.ldWrite (Cert.entryAt z seq) bs ≠ none →
        Cert.Ends (.ledgerSwitch q) s (fun x => Cert.Flushed u x q (Cert.entryAt z seq) seq bs .committed)) ∧
      (1 < seq → Cert.part pre 63 0 = seq - 1 → Cert.part pre 71 64 < 3 → Cert.Makes (.ledgerSwitch q) s d)) ∧
    (∀ (h : Hart) (v : Word), Cert.Reaches d h .ld 0 → Cert.Ends (.recoverLedger h v) s (fun x =>
      x = Cert.withLd d { ld with
        maxatt := if Cert.fl v 31 24 = 0 then ld.maxatt else Cert.fl v 31 24,
        gpfto := if 10 ≤ Cert.fl v 17 9 ∧ Cert.fl v 17 9 ≤ 400 then Cert.fl v 17 9 else ld.gpfto, sqs := x.host.ld.sqs } ∧
      ∀ k, x.sq k = if k < 16 ∧ (d.sq k).winEn = true then { d.sq k with recovering := true } else d.sq k)) ∧
    (z.recovering = true →
      let ent (i : Nat) := d.ldRead (z.winBase + 64 * i) 64
      let bad (x : Nat) : Prop := x ≠ 0 ∧ (crc32c (Cert.bytes 60 x) ≠ Cert.part x 511 480 ∨ Cert.part x 123 112 ≠ d.consist)
      let u := Cert.withSq d q { z with recovering := false }
      ((∃ i, i < 2 ^ z.log2n ∧ (ent i = none ∨ ∃ x, ent i = some x ∧ bad x)) → Cert.Ends (.ledgerRecoveryEnd q) s (fun x => Cert.Locked u x q)) ∧
      (∀ E : Nat → Nat, (∀ i, i < 2 ^ z.log2n → ent i = some (E i) ∧ ¬ bad (E i) ∧ (E i = 0 ∨ Cert.part (E i) 71 64 = 1)) →
        ∀ top, (∀ i, i < 2 ^ z.log2n → Cert.part (E i) 63 0 ≤ top) → (top = 0 ∨ ∃ i, i < 2 ^ z.log2n ∧ Cert.part (E i) 63 0 = top) →
        let v := Cert.withSq d q { z with recovering := false, next := Cert.nat (top + 1), retire := 0 }
        Cert.Makes (.ledgerRecoveryEnd q) s (Cert.withLd v { v.host.ld with locked := Cert.unmark ld.locked q })) ∧
      (∀ (E : Nat → Nat) (k : Nat), k < 2 ^ z.log2n → (∀ i, i < 2 ^ z.log2n → ent i = some (E i) ∧ ¬ bad (E i) ∧ (i ≠ k → E i = 0)) →
        let seq := Cert.part (E k) 63 0
        let st := Cert.part (E k) 71 64
        0 < seq → seq < 2 ^ 64 - 1 → st = 2 ∨ st = 3 →
        let v := Cert.withSq d q { z with recovering := false, next := Cert.nat (seq + 1), retire := 0 }
        let bs := Cert.rewritten (E k) (if st = 2 then 1 else 4) (Cert.part (E k) 79 72) (Cert.part (E k) 87 80) (Cert.part (E k) 92 92)
          (if st = 2 then Cert.part (E k) 319 256 else d.tt.tick) (Cert.part (E k) 383 352)
        v.ldWrite (Cert.entryAt z seq) bs ≠ none →
        Cert.Ends (.ledgerRecoveryEnd q) s (fun x => ∃ y, Cert.Flushed v y q (Cert.entryAt z seq) seq bs (if st = 2 then .returned else .completed) ∧
          x = Cert.withLd y { y.host.ld with locked := Cert.unmark ld.locked q })))

/-- R444 to R448, R450, R487, R503, R559: An RDMA request to a queue pair is acknowledged, answered with data or refused, and a
write changes exactly its bytes, a doorbell or nothing; congestion notices count; a port's link and reset; and what a thread, a
posted store and a channel get when a host operation has exhausted its retries. -/
def Obligations.HostPortResults : Prop :=
  ∀ (s : State) (p : Fin 4), let d := s.dev
    let port := d.host.port p
    let withPort (q : HiPort) : Dev := { d with host := { d.host with ports := d.host.ports.set p q } }
    Cert.Powered d →
    (∀ (qpn : Fin 1024) (pa : BitVec 48) (rkey len : BitVec 32) (bs : List (BitVec 8)) (ecn : Bool), let a := pa.toNat
      let W := Instr.rdmaWrite p qpn pa rkey bs ecn
      let R := Instr.rdmaRead p qpn pa rkey len ecn
      let A := Instr.rdmaAtomic p qpn ecn
      let N := Instr.congestionNotification p qpn
      let then_ (u : Dev) (o : Out) : Dev := if ecn then Cert.emits (Cert.emits u o) (.cnp p qpn) else Cert.emits u o
      let refused := then_ d (.rdmaNak p qpn false)
      let reach (n right : Nat) : Prop := ∃ r ∈ d.host.regions, r.port = p.val ∧ r.qpn = qpn.val ∧ r.rkey = rkey.toNat ∧
        r.rights.testBit right = true ∧ r.base ≤ a ∧ a + n ≤ r.base + r.len * 4096
      (port.up = false → Cert.Makes W s d ∧ Cert.Makes R s d ∧ Cert.Makes A s d ∧ Cert.Makes N s d) ∧
      (port.up = true → Cert.Makes N s { d with host := { d.host with qps := d.host.qps.map (fun x =>
        if x.port = p.val ∧ x.qpn = qpn.val then { x with slowed := x.slowed + 1 } else x) } }) ∧
      (port.up = true → (∀ x ∈ d.host.qps, ¬ (x.port = p.val ∧ x.qpn = qpn.val)) → Cert.Makes W s refused ∧ Cert.Makes R s refused ∧ Cert.Makes A s refused) ∧
      (port.up = true → ∀ x l l2, d.host.qps = l ++ x :: l2 → x.port = p.val → x.qpn = qpn.val → (∀ y ∈ l, ¬ (y.port = p.val ∧ y.qpn = qpn.val)) →
        let n := bs.length
        let ring := ∃ q, q < 16 ∧ x.sqmask.testBit q = true ∧ (d.sq q).base ≤ a ∧ a + n ≤ (d.sq q).base + 256 * 2 ^ (d.sq q).log2s
        Cert.Makes A s (then_ d (.rdmaNak p qpn true)) ∧
        (∀ q, q < 16 → x.sqmask.testBit q = true → n = 8 →
          let z := d.sq q
          let v := natLE (bs.take 4)
          (a = 0x20100060808 + 16 * q → Cert.Makes W s (then_ (Cert.withSq d q { z with retire := Cert.nat (natLE bs) }) (.rdmaAck p qpn))) ∧
          (a = 0x20100060800 + 16 * q → Cert.Makes W s (then_ (if 2 ^ 31 ≤ (v + 2 ^ 32 - z.prod) % 2 ^ 32 ∨ 2 ^ z.log2s < (v + 2 ^ 32 - z.taken) % 2 ^ 32
            then Cert.withLd d { d.host.ld with err := Cert.mark d.host.ld.err 0 } else Cert.withSq d q { z with prod := v }) (.rdmaAck p qpn)))) ∧
        (a + n ≤ 0x3000000000 → 0 < n → (ring ∨ reach n 1 → (∀ b, b < n → Cert.Plain d (a + b)) →
            Cert.Ends W s (fun y => ∃ m, Cert.Wrote d m n (fun b => a + b) (fun b => bs.getD b 0) ∧ y = then_ m (.rdmaAck p qpn))) ∧
          (¬ ring → ¬ reach n 1 → Cert.Makes W s refused)) ∧
        (0 < len.toNat → (a + len.toNat ≤ 0x3000000000 → reach len.toNat 0 → (∀ b, b < len.toNat → Cert.Plain d (a + b)) →
            Cert.Makes R s (then_ d (.rdmaData p qpn ((List.range len.toNat).map (fun b => Cert.byteIn d (a + b)))))) ∧
          (¬ reach len.toNat 0 ∨ 0x3000000000 < a + len.toNat → Cert.Makes R s refused)))) ∧
    ((port.up = false → Cert.Makes (.hostLinkDown p) s d) ∧
      (port.up = true → let boots := d.sec.strap.toNat % 4 = 1 ∧ d.sec.strap.toNat / 4 = p.val ∧ d.pw.state = .boot
        (¬ boots → Cert.Ends (.hostLinkDown p) s (fun x => x = { withPort { port with up := false } with rc := x.rc })) ∧
        (boots → Cert.Ends (.hostLinkDown p) s (fun x => x = { withPort { port with up := false } with
          rc := x.rc, sec := { d.sec with cm := none, tryAt := d.now } }))) ∧
      (port.en = false → Cert.Makes (.hostLinkUp p) s d) ∧
      (port.en = true → Cert.Makes (.hostLinkUp p) s (withPort { port with up := true }))) ∧
    (∀ (h : Hart) (v : Word), Cert.Reaches d h .ck 0 → Cert.Ends (.hprst h v) s (fun x =>
      x = { d with host := { d.host with ports := x.host.ports, qps := d.host.qps.map (fun y =>
        if y.port < 4 ∧ v.getLsbD (8 + y.port) = true then { y with slowed := 0 } else y) } } ∧
      ∀ k, x.host.port k = if k < 4 ∧ v.getLsbD (8 + k) = true then { d.host.port k with up := false } else d.host.port k)) ∧
    (∀ h : Hart, Cert.Live (d.stn h.stn) → (d.thr h).mchk = none →
      let mchk (a : Nat) : Option PendX := some ⟨Cert.nat a, 0, 0, false, (d.stn h.stn).xorder, none⟩
      (∀ off : BitVec 40, (d.thr h).acks ≠ 0 → Cert.Ends (.rdmaRetryExhausted (.store h off)) s (fun x =>
        x = { d with stns := x.stns } ∧ (x.thr h).mchk = mchk (0x40000000000 + off.toNat) ∧ ∀ m, m ≠ h.stn.val → x.stn m = d.stn m)) ∧
      (∀ (i : Instr) (rd a : Fin 32) (o : Int) (n : Nat) (sg hit : Bool) (op : MemOp) (pa : Nat) (e : TlbE) (off : Nat),
        Cert.ldRule i = some (h, rd, a, o, n, sg, hit, op) → (d.thr h).wait = .reply op [(pa, e)] → region pa = .host off →
        Cert.Ends (.rdmaRetryExhausted (.thread h)) s (fun x => x.free = d.free + 1 ∧ (x.stn h.stn).slots = (d.stn h.stn).slots - 1 ∧
          x.thr h = { ((d.thr h).setG rd (Cert.loaded n sg (Config.freeValue d.free % 2 ^ (8 * n)))).done 4 with
            wait := .ready, mq := (x.thr h).mq, mqPend := (x.thr h).mqPend, mchk := mchk pa }))) ∧
    (∀ (e : Fin 16) (c : Fin 16) (data : List (BitVec 8)) (done : Nat) (D : Nat → Nat),
      let y := d.sh.chans.getD (e * 16 + c) Chan.reset
      let x := y.cur
      let u := Cert.unit (x.ctl / 4 % 8)
      let n := done / u * u
      y.mode = 2 → y.fin = none → x.ctl / 64 % 4 = 0 → done < x.count → x.ctl / 4 % 8 ≤ 5 →
      (∀ b, b ≤ n → ∃ pa t off, d.dmaPlace y.ctx .load (Cert.srcOf x b).toNat = .ok pa t ∧ region pa = .host off) →
      (∀ b, b ≤ n → Cert.Lands d y.ctx .store (Cert.dstOf x b) (D b)) →
      (∀ b, b < x.count → ∀ pa t, d.dmaPlace y.ctx .load (Cert.srcOf x b).toNat = .ok pa t → ∃ off, region pa = .host off) →
      Cert.Ends (.rdmaRetryExhausted (.chan e c data done)) s (fun z => ∃ m,
        Cert.Wrote d m n D (fun b => data.getD (Cert.swapped (x.ctl / 4 % 8) b) 0) ∧
        z = { m with sh := { d.sh with chans := d.sh.chans.set (e * 16 + c) { y with
          fin := some ⟨0x10, 0x12, n, Cert.srcOf x n⟩, done := n } } }))

/-! ### Boot and attestation -/

/-- R501, R503, R505 to R508, R512, R513: Verification rejects an image with its code, stops on a failed fuse, or accepts it:
fuses, measurements, the image in GDDR7, stations started, RUNNING. The boot's port accepts one fitting connection and toggles
its mode on a timeout. Each SPDM request is answered as described, over the transcript so far. -/
def Obligations.BootResults : Prop :=
  ∀ s : State, let d := s.dev
    let z := d.sec
    let booting := d.pw.state = .boot ∧ d.dfatal = false
    (∀ bad : Option (Fin 132),
      let h := d.mem.bootWin.readBytes 0 8192
      let body := d.mem.bootWin.readBytes 8192 (Cert.num h 8 4)
      let code := Cert.imageCode z h body
      let k := Cert.num h 6 1
      let counts := Cert.num h 7 1 % 2 = 1
      let revokes := Cert.num h 7 1 / 2 % 2 = 1
      let blows (i : Nat) : Prop := (counts ∧ z.counter ≤ i ∧ i < Cert.num h 5 1) ∨ (revokes ∧ 128 ≤ i ∧ i < 128 + k ∧ z.revoked.getLsbD (i - 128) = false)
      let counter := if counts then max z.counter (Cert.num h 5 1) else z.counter
      (¬ booting ∨ z.verifying = none → Cert.Makes (.bootImageVerify bad) s d) ∧
      (booting → z.verifying ≠ none → code ≠ 0 → Cert.Makes (.bootImageVerify bad) s { d with
        mem := { d.mem with bootWin := Mem.empty }, sec := { z with code := code, rejects := min 255 (z.rejects + 1), verifying := none } }) ∧
      (booting → z.verifying ≠ none → code = 0 → ∀ i, bad = some i → blows i → Cert.Makes (.bootImageVerify bad) s { d with
        sec := { z with
          code := 7, verifying := none, counter := if i.val < 128 then i else counter,
          revoked := if i.val < 128 then z.revoked else z.revoked ||| BitVec.ofNat 4 (2 ^ (i.val - 128) - 1) } }) ∧
      (booting → z.verifying ≠ none → code = 0 → (∀ i, bad = some i → ¬ blows i) →
        let revoked := if revokes then z.revoked ||| BitVec.ofNat 4 (2 ^ k - 1) else z.revoked
        let load := Cert.num h 16 8
        let m0 := Config.sha3 ((List.range 65536).map Config.bootRom)
        let m1 := Config.sha3 h
        let m2 := Config.sha3 body
        let m3 := Config.sha3 (Cert.bytes 8 (counter + revoked.toNat * 2 ^ 8) ++ Cert.bytes 1 z.strap.toNat)
        Cert.Ends (.bootImageVerify bad) s (fun x =>
          x = { d with
            sec := { z with
              code := 1, verifying := none, counter := counter, revoked := revoked, svn := Cert.num h 5 1, keyidx := k,
              image := some ⟨load, Cert.num h 24 8, Cert.num h 12 4, Cert.num h 8 4⟩, m0 := m0, m1 := m1, m2 := m2, m3 := m3,
              m4 := List.replicate 64 0, m5 := List.replicate 64 0, dkkCert := Config.dkkCert (m0 ++ m1 ++ m2 ++ m3) },
            pw := { d.pw with state := .running }, stns := x.stns, mem := { d.mem with bootLock := true, gddr := x.mem.gddr } } ∧
          (∀ a, x.mem.gddr.get a = if load ≤ a ∧ a < load + body.length then body.getD (a - load) 0 else d.mem.gddr.get a) ∧
          ∀ n, x.stn n = if n < 128 ∧ d.present n = true then Cert.started (d.stn n) (Cert.nat (load + Cert.num h 24 8)) else d.stn n))) ∧
    (∀ (p : Fin 4) (rqpn : BitVec 24) (rc qp0 : Bool) (mtu : BitVec 16), let i := Instr.cmConnect p rqpn rc qp0 mtu
      let hears := booting ∧ z.strap.toNat % 4 = 1 ∧ z.strap.toNat / 4 = p.val ∧ (d.host.port p).up = true
      let fits := rc = true ∧ qp0 = true ∧ z.cm = none ∧ (mtu = 1024 ∨ mtu = 2048 ∨ mtu = 4096)
      (¬ hears → Cert.Makes i s d) ∧ (hears → ¬ fits → Cert.Makes i s (Cert.emits d (.cm p rqpn.toNat false))) ∧
      (hears → fits → Cert.Makes i s (Cert.emits { d with sec := { z with cm := some (p, rqpn.toNat, mtu.toNat / 2048) } } (.cm p rqpn.toNat true)))) ∧
    (let p := z.strap.toNat / 4
      let port := d.host.port p
      let waits := booting ∧ z.strap.toNat % 4 = 1 ∧ port.en = true ∧ port.up = false
      let t := max d.now (z.tryAt + 8500000000)
      (¬ waits → Cert.Makes .bootLinkTimeout s d) ∧
      (waits → Cert.Makes .bootLinkTimeout s { d with
        now := t, sec := { z with tryAt := t },
        host := { d.host with ports := d.host.ports.set p { port with lmode := 1 - port.lmode } } })) ∧
    (Cert.Powered d →
      let serves (i : Instr) (r : SpdmReq) (first : Bool) (a : List Byte → Spdm) : Prop :=
        let msgs := (if first then [] else z.transcript) ++ Config.spdmReqBytes r
        Cert.Makes i s (Cert.emits { d with sec := { z with spdm := some (a msgs), transcript := msgs ++ (a msgs).bytes } } (.spdm (a msgs)))
      let sig (kind : Nat) (msgs : List Byte) := Config.dsaSign [] (Config.spdmPrefix kind ++ Config.sha3 (Config.spdmTranscript kind msgs))
      let ms := [z.m0, z.m1, z.m2, z.m3, z.m4, z.m5]
      serves .getVersion .version true (fun _ => .version) ∧ serves .getCapabilities .capabilities false (fun _ => .capabilities) ∧
      serves .getDigests .digests false (fun _ => .digests (Config.sha3 Config.certChain)) ∧
      (∀ ext sha3, serves (.negotiateAlgorithms ext sha3) (.negotiate ext sha3) false (fun _ =>
        if (⟨4, 0, 0x87⟩ : ExtAlg) ∈ ext ∧ sha3 = true then .algorithms ⟨4, 0, 0x87⟩ else .negotiationFail)) ∧
      (∀ slot off len, serves (.getCertificate slot off len) (.certificate slot off len) false (fun _ =>
        if slot = 0 then .certificate ((Config.certChain.drop off.toNat).take len.toNat) else .unsupported 0x82)) ∧
      (∀ slot nonce, serves (.challenge slot nonce) (.challenge slot nonce) false (fun msgs =>
        if slot = 0 then .challengeAuth nonce (sig 0 msgs) else .unsupported 0x83)) ∧
      (∀ op sign nonce, let signed (msgs : List Byte) := if sign = true then sig 1 msgs else []
        serves (.getMeasurements op sign nonce) (.measurements op sign nonce) false (fun msgs =>
          if op = 0xFF then .measurements nonce ms (signed msgs) else if op = 0 then .measurements nonce [] (signed msgs)
          else if op.toNat ≤ 6 then .measurements nonce [ms.getD (op.toNat - 1) []] (signed msgs) else .unsupported 0xE0)) ∧
      ∀ c : BitVec 8, (c ∉ ([0x84, 0xE1, 0xE3, 0x81, 0x82, 0x83, 0xE0] : List (BitVec 8)) → serves (.unsupportedRequest c) (.other c) false (fun _ => .unsupported c.toNat)) ∧
        (c ∈ ([0x84, 0xE1, 0xE3, 0x81, 0x82, 0x83, 0xE0] : List (BitVec 8)) → Cert.Makes (.unsupportedRequest c) s d))

/-! ### The object dictionary -/

/-- R502, R520, R522, R526 to R533, R539: A message is dropped, queued, answered busy or judged; READ gives the value of an
object the agent may read, WRITE changes one it may write and nothing else, and everything refused is aborted with the code of
the first rule that applies. -/
def Obligations.DictionaryMessageResults : Prop :=
  ∀ (s : State) (p : Peer) (m : DMsg), let d := s.dev
    let idx := m.index.toNat
    let sub := m.sub.toNat
    (∀ k v i, Cert.IsRow k p m v i → (m.typ.toNat = k ∨ m.typ = 0 ∨ 6 < m.typ.toNat) →
      ((d.pw.state ≠ .boot ∧ d.pw.state ≠ .running) ∨ d.dict.restarting = true → Cert.Makes i s d) ∧
      ∀ a, Cert.From d p a →
        let full := 256 ≤ d.dict.queue.length ∨ (idx ≠ 0x1F00 ∧ 240 ≤ (d.dict.queue.filter (fun q => q.msg.index ≠ 0x1F00)).length)
        (full → Cert.Makes i s (Cert.busy d p m)) ∧
        (¬ full → v = false → Cert.Makes i s { d with dict := { d.dict with queue := d.dict.queue ++ [⟨p, m, d.now⟩] } }) ∧
        (d.dict.queue = [] → v = true → ¬ Cert.good m → Cert.Makes i s (Cert.aborts d p m 0x05010001)) ∧
        (d.dict.queue = [] → v = true → Cert.good m → m.devid ≠ 0xFFFF → m.devid.toNat ≠ d.jn.devid →
          Cert.Makes i s (Cert.aborts d p m 0x06020001))) ∧
    (∀ k i a, Cert.IsRow k p m true i → k ≤ 4 → Cert.Asked d p a m k →
      let ends (c : Nat) : Prop := Cert.Makes i s (Cert.aborts d p m c)
      (a = .hj → d.bd.state ≠ 2 → ends 0x08010002) ∧
      ((a = .hj → d.bd.state = 2) → ¬ Cert.Open d a idx → ends 0x06020000) ∧
      (Cert.Open d a idx →
        (0x8000 ≤ idx → idx < 0xF000 → ends 0x06020000) ∧ (0xF000 ≤ idx → d.sec.dbg = false ∨ a ≠ .bc → ends 0x06010001) ∧
        (0x1000 ≤ idx → idx ≤ 0x1005 → 0 < sub → sub < 255 → ends 0x06090011) ∧
        (0x2000 ≤ idx → idx < 0x2100 → (∀ u off, ¬ Cert.Mirrors idx 0 u off) → ends 0x06020000))) ∧
    (∀ a, Cert.Asked d p a m 1 → Cert.Open d a idx →
      let gives (x : Dev) (v : List Byte) : Prop := Cert.Makes (.dictRead p m true) s (Cert.replies x p m 0x81 0 0 v)
      let ends (c : Nat) : Prop := Cert.Makes (.dictRead p m true) s (Cert.aborts d p m c)
      (∀ u off, Cert.Mirrors idx sub u off →
        (ringMayReg (Cert.ringOf a) false u off = true → gives (d.unitRead u off).1 (Cert.bytes 8 (d.unitRead u off).2.toNat)) ∧
        (ringMayReg (Cert.ringOf a) false u off = false → ends 0x06010001)) ∧
      (∀ n v, 1 ≤ n → n ≤ 13 → idx = 0x1010 → sub = n → d.cr ⟨0, 0⟩ (0x34F + n) = some v → gives d (Cert.bytes 8 v.toNat)) ∧
      (∀ job v, Cert.valueOf d idx sub job v → (job = true ∨ a ≠ .hj → gives d v) ∧ (job = false → a = .hj → ends 0x06010001)) ∧
      (∀ v, Cert.domainOf d idx sub v → a ≠ .hj → ends 0x06070010) ∧
      (sub = 255 → (idx = 0x1000 → gives d (Cert.bytes 4 0x40004)) ∧ (idx = 0x1001 → gives d (Cert.bytes 4 0x100009)) ∧
        (idx = 0x1006 → gives d (Cert.bytes 4 0x20403)) ∧ (idx = 0x3001 → gives d (Cert.bytes 4 0xB)) ∧ (idx = 0x2000 → gives d (Cert.bytes 4 0x8000A)))) ∧
    (∀ a, Cert.Asked d p a m 2 → Cert.Open d a idx →
      let n := m.data.length
      let v := natLE m.data
      let does (x : Dev) : Prop := Cert.Makes (.dictWrite p m true) s (Cert.replies x p m 0x82 0 0 [])
      let ends (c : Nat) : Prop := Cert.Makes (.dictWrite p m true) s (Cert.aborts d p m c)
      let sets (x : Dict) : Prop := if a = .bc ∨ a = .sb then does { d with dict := x } else ends 0x06010001
      (∀ u off, Cert.Mirrors idx sub u off →
        (ringMayReg (Cert.ringOf a) true u off = false → ends 0x06010001) ∧
        (ringMayReg (Cert.ringOf a) true u off = true → (n ≠ 8 → ends 0x06070010) ∧ (n = 8 → does (d.unitStore (Cert.ringOf a) 0 u off (Cert.nat v))))) ∧
      (idx = 0x1000 ∨ (a ≠ .hj ∧ idx = 0x1005) → sub = 0 → n ≤ 8 → ends 0x06010002) ∧ (sub = 255 → idx = 0x1000 → ends 0x06010002) ∧
      (idx = 0x3001 ∨ idx = 0x3002 ∨ idx = 0x7020 → sub = 0 → ends 0x06070010) ∧
      (idx = 0x5010 → sub = 0 → (n = 4 → 1000 ≤ v → v ≤ 1000000 → sets { d.dict with period := v }) ∧
        (n = 4 → a = .bc ∨ a = .sb → v < 1000 ∨ 1000000 < v → ends 0x06090030) ∧ (n ≠ 4 → a = .bc ∨ a = .sb → ends 0x06070010)) ∧
      (idx = 0x1020 → n = 1 → (sub = 1 → (1 ≤ v → v ≤ 16 → sets { d.dict with plcaId := v }) ∧ (a = .bc → v = 0 ∨ 16 < v → ends 0x06090030)) ∧
        (sub = 2 → sets { d.dict with plcaCount := v })) ∧
      ∀ h : Fin 4, idx = 0x1030 + h → let q := d.dict.adm.getD h ⟨0, 0, 2, false⟩
        let put (x : AdmQp) : Prop := sets { d.dict with adm := d.dict.adm.set h x }
        (sub = 1 → ends 0x06070010) ∧ (sub = 2 → n = 4 → put { q with rqpn := v }) ∧ (sub = 3 → n = 1 → v ≤ 2 → put { q with pmtu := v }) ∧
        (sub = 4 → n = 1 → v ≤ 1 → put { q with en := decide (v = 1) }) ∧ (sub = 3 → a = .bc → n = 1 → 2 < v → ends 0x06090030) ∧
        (sub = 4 → a = .bc → n = 1 → 1 < v → ends 0x06090030))

/-- R502, R520, R522 to R525, R533, R539: Transfers open within their limits and are read or written segment by segment in
order; the last segment of a written transfer takes effect; ABORT closes one; a transfer or a queued message out of time is
ended with its abort. -/
def Obligations.DictionaryTransferResults : Prop :=
  ∀ (s : State), let d := s.dev
    let keeps (x : List Xfer) : Dev := { d with dict := { d.dict with xfers := x } }
    (∀ (p : Peer) (m : DMsg) (a : Agent),
      let idx := m.index.toNat
      let sub := m.sub.toNat
      let tid := m.tid.toNat
      let others := d.dict.xfers.filter (fun y => ¬ (y.peer = p ∧ y.tid = tid))
      (Cert.Asked d p a m 3 → Cert.Open d a idx → ∀ v,
        (a ≠ .hj ∧ Cert.domainOf d idx sub v) ∨ (∃ job, Cert.valueOf d idx sub job v ∧ (job = true ∨ a ≠ .hj)) →
        (32 ≤ others.length → Cert.Makes (.readInit p m true) s (Cert.busy d p m)) ∧
        (others.length < 32 → Cert.Makes (.readInit p m true) s
          (Cert.replies (keeps (others ++ [⟨p, tid, idx, sub, false, v.length, 0, v, d.now⟩])) p m 0x83 0 v.length []))) ∧
      (Cert.Asked d p a m 4 → Cert.Open d a idx → a ≠ .hj → sub = 0 →
        let n := m.arg.toNat
        let W := Instr.writeInit p m true
        let ends (c : Nat) : Prop := Cert.Makes W s (Cert.aborts d p m c)
        let opens := (others.any (fun y => y.write && y.index == idx && y.sub == 0) = true → ends 0x08010004) ∧
          (others.any (fun y => y.write && y.index == idx && y.sub == 0) = false → (32 ≤ others.length → Cert.Makes W s (Cert.busy d p m)) ∧
            (others.length < 32 → Cert.Makes W s (Cert.replies (keeps (others ++ [⟨p, tid, idx, 0, true, n, 0, [], d.now⟩])) p m 0x84 0 0 [])))
        (idx = 0x3001 → (n = 0 ∨ 40960 < n → ends 0x06070010) ∧ (1 ≤ n → n ≤ 40960 →
          (d.bd.state = 1 ∨ d.bd.state = 3 → ends 0x08010002) ∧ (d.bd.state ≠ 1 → d.bd.state ≠ 3 → opens))) ∧
        (idx = 0x6200 → (n ≠ 65536 → ends 0x06070010) ∧ (n = 65536 → opens)) ∧
        (idx = 0x7100 → a ≠ .sb → 1 ≤ n → n ≤ 2 ^ 24 → (d.pw.state = .running ∨ d.sec.code = 7 → ends 0x08010002) ∧
          (d.pw.state = .boot → d.sec.code ≠ 7 → (d.sec.verifying ≠ none → ends 0x08010001) ∧ (d.sec.verifying = none → opens))) ∧
        (idx = 0x1F00 → (a = .sb → ends 0x06010001) ∧ (a ≠ .sb → 1 ≤ n → n ≤ 16785408 → opens))) ∧
      (Cert.Asked d p a m 5 → (∀ y ∈ d.dict.xfers, ¬ (y.peer = p ∧ y.tid = tid)) → Cert.Makes (.seg p m true) s (Cert.aborts d p m 0x05040002)) ∧
      (Cert.Asked d p a m 5 → ∀ t l l2, d.dict.xfers = l ++ t :: l2 → t.peer = p → t.tid = tid → (∀ y ∈ l, ¬ (y.peer = p ∧ y.tid = tid)) →
        let n := m.arg.toNat
        let S := Instr.seg p m true
        let ends (c : Nat) : Prop := Cert.Makes S s (Cert.aborts (keeps others) p m c)
        (t.write = false →
          (m.len ≠ 0 → ends 0x05010001) ∧ (m.len = 0 → t.next < n → ends 0x05040003) ∧
          (m.len = 0 → n ≤ t.next → t.index ≠ 0x4100 →
            let now := if t.index = 0x5020 then d.dict.telem.flatMap (fun r => Cert.bytes 32 r.toNat) else t.data
            let bs := (now.drop (1024 * n)).take 1024
            (t.size ≤ 1024 * n + 1024 → Cert.Makes S s (Cert.replies (keeps others) p m 0x85 1 n bs)) ∧
            (1024 * n + 1024 < t.size →
              Cert.Makes S s (Cert.replies (keeps (others ++ [{ t with next := max t.next (n + 1), last := d.now }])) p m 0x85 0 n bs)))) ∧
        (t.write = true →
          let last := m.flags.getLsbD 0
          let bs := t.data ++ m.data
          let wrong := (last = false ∧ m.len ≠ 1024) ∨ m.len = 0
          let bad := t.size < bs.length ∨ (last = true ∧ bs.length ≠ t.size)
          let placed : Dev := if t.index = 0x7100 ∧ d.mem.bootLock = false then { d with
            mem := { d.mem with bootWin := d.mem.bootWin.writeBytes t.data.length m.data } } else d
          let done (x : Dev) : Prop := Cert.Makes S s (Cert.replies { x with dict := { x.dict with xfers := others } } p m 0x85 0 n [])
          (n < t.next → Cert.Makes S s (Cert.replies (keeps (others ++ [{ t with last := d.now }])) p m 0x85 0 n [])) ∧
          (t.next < n → ends 0x05040003) ∧ (n = t.next → wrong → ends 0x05010001) ∧ (n = t.next → ¬ wrong → bad → ends 0x06070010) ∧
          (n = t.next → ¬ wrong → ¬ bad →
            (last = false → Cert.Makes S s (Cert.replies { placed with dict := { d.dict with
              xfers := others ++ [{ t with next := n + 1, data := bs, last := d.now }] } } p m 0x85 0 n [])) ∧
            (last = true → t.sub = 0 → Cert.Open d a t.index → a ≠ .hj → bs ≠ [] →
              (t.index = 0x3001 → bs.length ≤ 40960 → d.bd.state ≠ 1 → d.bd.state ≠ 3 →
                done { d with dict := { d.dict with staged := bs, digest := Config.sha3 bs } }) ∧
              (t.index = 0x7100 → a ≠ .sb → bs.length ≤ 2 ^ 24 → d.pw.state = .boot → d.sec.code ≠ 7 → d.sec.verifying = none →
                done { placed with sec := { d.sec with verifying := some bs.length } }) ∧
              (t.index = 0x1F00 → a ≠ .sb → bs.length ≤ 16785408 → Cert.Makes S s ((keeps others).order bs (.dict p m))) ∧
              (t.index = 0x6200 → bs.length = 65536 → Cert.Ends S s (fun x =>
                x = Cert.replies { keeps others with jn := { d.jn with routes := x.jn.routes } } p m 0x85 0 n [] ∧
                ∀ i, i < 65536 → x.jn.routes.getD i 0x1F = if (bs.getD i 0).toNat < 24 then (bs.getD i 0).toNat else 0x1F)))))) ∧
      (Cert.From d p a → m.typ = 6 → (¬ Cert.good m → Cert.Makes (.dictAbort p m) s (Cert.aborts d p m 0x05010001)) ∧
        (Cert.good m → m.devid ≠ 0xFFFF → m.devid.toNat ≠ d.jn.devid → Cert.Makes (.dictAbort p m) s (Cert.aborts d p m 0x06020001)) ∧
        (Cert.good m → (m.devid = 0xFFFF ∨ m.devid.toNat = d.jn.devid) → ((∀ y ∈ d.dict.xfers, ¬ (y.peer = p ∧ y.tid = tid)) → Cert.Makes (.dictAbort p m) s (Cert.aborts d p m 0x05040002)) ∧
          ((∃ y ∈ d.dict.xfers, y.peer = p ∧ y.tid = tid) → Cert.Makes (.dictAbort p m) s (keeps others))))) ∧
    (d.pw.state = .boot ∨ d.pw.state = .running →
      (∀ t l l2, d.dict.xfers = l ++ t :: l2 → (∀ y ∈ l, t.last < y.last) → (∀ y ∈ l2, t.last ≤ y.last) →
        Cert.Makes .transferTimeout s (Cert.emits { d with
          now := max d.now (t.last + 17000000000),
          dict := { d.dict with xfers := d.dict.xfers.filter (fun y => ¬ (y.peer = t.peer ∧ y.tid = t.tid)) } }
          (.dict t.peer 0x86 t.tid t.index t.sub 0 0x05040000 []))) ∧
      (d.dict.xfers = [] → Cert.Makes .transferTimeout s d) ∧ (d.dict.queue = [] → Cert.Makes .queueTimeout s d) ∧
      ∀ q r, d.dict.queue = q :: r → Cert.Makes .queueTimeout s (Cert.busy { d with
        now := max d.now (q.at_ + 850000000), dict := { d.dict with queue := r } } q.peer q.msg))

/-- R534, R540, R541: A sample is taken one period after the last, at eight times the period while degraded, and its record of
32 bytes enters a ring of 4096 that loses its oldest; degraded mode is entered and left as the queue and busy aborts say. A
restart closes every transfer and empties the queue, and its end resumes service. -/
def Obligations.SignalBoxResults : Prop :=
  ∀ s : State, let d := s.dev
    let x := d.dict
    (∀ pin iin vin tjmax tjstn, let i := Instr.telemetrySample pin iin vin tjmax tjstn
      let t := max d.now (x.sampled + x.period * 17000 * (if x.degraded then 8 else 1))
      let above := 192 < x.queue.length ∨ x.busy = true
      let calm := x.queue.length < 64 ∧ x.busy = false
      let r := Cert.bytes 8 d.tt.tick ++ Cert.bytes 4 ((t - d.tt.lastB) / 17) ++ [if above ∨ x.degraded = true then 1 else 0, 0] ++ Cert.bytes 2 pin.toNat ++
        Cert.bytes 2 iin.toNat ++ Cert.bytes 2 vin.toNat ++ Cert.bytes 2 tjmax.toNat ++ Cert.bytes 2 tjstn.toNat ++ Cert.bytes 4 0 ++ Cert.bytes 4 x.tseq
      (d.pw.state = .running → x.restarting = false → Cert.Makes i s { d with
        now := t,
        dict := { x with
          telem := (if x.telem.length < 4096 then x.telem else x.telem.drop 1) ++ [BitVec.ofNat 256 (natLE r)], tseq := (x.tseq + 1) % 2 ^ 32,
          degraded := decide (above ∨ (x.degraded = true ∧ ¬ calm)), busy := false, sampled := t } }) ∧
      (d.pw.state ≠ .running ∨ x.restarting = true → Cert.Makes i s d)) ∧
    (d.pw.state = .running → Cert.Makes .signalBoxRestart s { d with dict := { x with restarting := true, xfers := [], queue := [] } }) ∧
    (d.pw.state ≠ .running → Cert.Makes .signalBoxRestart s d) ∧
    (x.restarting = true → Cert.Makes .signalBoxRestartEnd s { d with dict := { x with restarting := false, queue := [] } }) ∧
    (x.restarting = false → Cert.Makes .signalBoxRestartEnd s d)

/-! ### The recorder -/

/-- R484, R489, R497 to R500: FREEZE, UNFREEZE and CLEAR of RC_CTRL; a write of RC_RIDX latches its entry; the first entry of
the queue, in the order of source and instance within one instant, is written or counted lost, and a waiting event enters the
slot that frees; an error of architectural state sets CFATAL, requests a halt and is recorded. -/
def Obligations.RecorderResults : Prop :=
  ∀ s : State, let d := s.dev
    let r := d.rc
    (∀ (h : Hart) (v : Word), Cert.Reaches d h .rc 0 →
      ∀ i b, (i = .rcFreeze h v ∧ b = 0) ∨ (i = .unfreeze h v ∧ b = 1) ∨ (i = .clear h v ∧ b = 2) →
        Cert.Makes i s { d with rc := Cert.ctrlWrite d (Cert.mark v b) }) ∧
    (∀ (h : Hart) (v : Word), Cert.Reaches d h .rc 24 →
      Cert.Makes (.rcRidxWrite h v) s { d with rc := { r with ridx := Cert.fl v 15 0, rdata := r.ring.getD (Cert.fl v 15 0) 0 } }) ∧
    (d.pw.state = .off ∨ r.queue = [] → Cert.Makes .recorderQueueDrain s d) ∧
    (d.pw.state ≠ .off → ∀ e l l2, r.queue = l ++ e :: l2 →
      let same (y : RecEv) : Prop := y.tick = e.tick ∧ y.ns = e.ns
      let above (y : RecEv) : Prop := e.src < y.src ∨ (e.src = y.src ∧ e.inst < y.inst)
      (∀ y ∈ l, same y ∧ above y) →
      (∀ l3 y l4, l2 = l3 ++ y :: l4 → (∀ z ∈ l3, same z) → same y → ¬ (y.src < e.src ∨ (y.src = e.src ∧ y.inst < e.inst))) →
      let r1 := Cert.wrote r d.now e
      (r.hold = [] → Cert.Makes .recorderQueueDrain s { d with rc := { r1 with queue := l ++ l2 } }) ∧
      ∀ y hs, r.hold = y :: hs →
        (l.length + l2.length < 64 → Cert.Makes .recorderQueueDrain s { d with rc := { r1 with queue := l ++ l2 ++ [y], hold := hs } }) ∧
        (64 ≤ l.length + l2.length → Cert.Makes .recorderQueueDrain s { d with rc := { r1 with queue := l ++ l2 } })) ∧
    ∀ (n : Fin 128) (kind : Fin 3), let i := Instr.architecturalStateError n kind
      (¬ Cert.Powered d ∨ d.present n = false → Cert.Makes i s d) ∧
      (Cert.Powered d → d.present n = true → d.tt.role ≠ 2 → d.tt.ann = [] → Cert.Ends i s (fun x =>
        x = { d with rc := x.rc, cfatal := true, tt := { d.tt with halt := if d.tt.halt = none then Cert.haltPlaced d 6 else d.tt.halt } } ∧
        Cert.Recorded d x 1 3 4 n kind true))

/-! ### Power and resets -/

/-- R484, R487, R490, R496, R542, R543, R549, R550, R554 to R557, R566: Device-fatal errors, reference loss, thermal trip, loss
of VIN and of standby power, power-up, cold and warm resets and station resets leave the states of the device, the recorder, the
stations and the channels that the rules say. -/
def Obligations.PowerAndResetResults : Prop :=
  ∀ s : State, let d := s.dev
    (Cert.Lit d →
      (∀ (f : FatalSrc) (iod : Fin 4) (data : Word) (src code : Nat),
        (f = .timetable ∧ src = 0x0D ∧ code = 1) ∨ (f = .routeTable ∧ src = 0x0D ∧ code = 2) ∨ (f = .junction ∧ src = 0x0D ∧ code = 3) ∨
        (f = .ledger ∧ src = 0x0D ∧ code = 4) ∨ (f = .keySlot ∧ src = 0x0D ∧ code = 5) ∨ (f = .regulator ∧ src = 0x0C ∧ code = 1) →
        Cert.Ends (.deviceFatal f iod data) s (fun x =>
          Cert.Fatal d x src code (if src = 0x0D then iod else 0) data.toNat (decide (f = .routeTable ∨ f = .junction)))) ∧
      (∀ lost : BitVec 8, let m := d.pw.lock &&& lost &&& 0x8F#8
        let u : Dev := { d with pw := { d.pw with lock := d.pw.lock &&& ~~~m } }
        (m = 0 → Cert.Makes (.referenceLoss lost) s d) ∧ (m ≠ 0 → Cert.Ends (.referenceLoss lost) s (fun x => Cert.Fatal u x 0x0C 2 0 0 false))) ∧
      Cert.Ends .thermalTrip s (fun x => x = { Cert.dark d .tripped with rc := x.rc } ∧ Cert.Recorded d x 0x0C 3 5 0 0 true) ∧
      Cert.Ends .vinLoss s (fun x => x = { Cert.dark d .standby with rc := x.rc } ∧ Cert.Recorded d x 0x0C 1 5 0 0 true) ∧
      (∀ strap bad cool, Cert.Ends (.coldRstN strap bad cool) s (fun x => Cert.Cold d x 2 strap bad false)) ∧
      (∀ strap, (d.pw.lock &&& 0x8F#8 = 0x8F#8 → Cert.Ends (.warmRstN strap) s (fun x => Cert.Warm d x 3 strap)) ∧
        (d.pw.lock &&& 0x8F#8 ≠ 0x8F#8 → Cert.Makes (.warmRstN strap) s d))) ∧
    (¬ Cert.Lit d →
      (∀ f iod data, Cert.Makes (.deviceFatal f iod data) s d) ∧ (∀ lost, Cert.Makes (.referenceLoss lost) s d) ∧ Cert.Makes .thermalTrip s d ∧
      Cert.Makes .vinLoss s d ∧ (∀ strap, Cert.Makes (.warmRstN strap) s d) ∧
      ∀ strap bad cool, (d.pw.state = .tripped ∧ cool = true → Cert.Ends (.coldRstN strap bad cool) s (fun x => Cert.Cold d x 2 strap bad true)) ∧
        (¬ (d.pw.state = .tripped ∧ cool = true) → Cert.Makes (.coldRstN strap bad cool) s d)) ∧
    (d.pw.state = .off → Cert.Makes .vddStbyLoss s d ∧ Cert.Makes .standbyPowerApplied s { d with
      pw := { d.pw with state := .standby }, bd := Binding.reset,
      rc := { Rec.reset with queue := [{ Cert.evOf d 0x0E 2 0 0 0 false with boots := 0 }] } }) ∧
    (d.pw.state ≠ .off → Cert.Makes .standbyPowerApplied s d ∧
      Cert.Makes .vddStbyLoss s { Cert.dark d .off with rc := Rec.reset, bd := Binding.reset }) ∧
    (∀ strap bad, (d.pw.state = .standby → Cert.Ends (.railsUp strap bad) s (fun x => Cert.Cold d x 1 strap bad true)) ∧
      (d.pw.state ≠ .standby → Cert.Makes (.railsUp strap bad) s d)) ∧
    (∀ (h : Hart) (v : Word), Cert.Reaches d h .ck 0 → Cert.Lit d → d.pw.lock &&& 0x8F#8 = 0x8F#8 →
      ((d.thr h).ring = 0 → Cert.Ends (.warm h v) s (fun x => Cert.Warm d x 4 d.sec.strap)) ∧
      ((d.thr h).ring ≠ 0 → Cert.fl v 11 8 = 0 → Cert.Ends (.warm h v) s (fun x => x = d))) ∧
    ∀ (h : Hart) (j : Fin 2) (v : Word), Cert.Reaches d h .ck (8 + 8 * j) →
      let named (n : Nat) : Prop := 64 * j.val ≤ n ∧ n < 64 * j + 64 ∧ v.getLsbD (n - 64 * j) = true ∧ d.present n = true
      (∀ p ∈ d.sh.chans.entries, named (p.2.ctx.toNat / 2 ^ 8) → p.2.mode ≤ 1) →
      Cert.Ends (.stationReset h j v) s (fun x =>
        x = { d with stns := x.stns, sh := { d.sh with chans := x.sh.chans } } ∧
        (∀ n, (named n → d.usable n = true → d.pw.state = .running → (∀ g, d.sec.image = some g → x.stn n = Cert.started (d.stn n) (Cert.nat (g.load + g.entry))) ∧
              (d.sec.image = none → x.stn n = Cert.heldAt (d.stn n) false)) ∧
          (named n → d.usable n = false ∨ d.pw.state ≠ .running → x.stn n = Cert.heldAt (d.stn n) (!d.usable n)) ∧ (¬ named n → x.stn n = d.stn n)) ∧
        ∀ k, let y := d.sh.chans.getD k Chan.reset
          (named (y.ctx.toNat / 2 ^ 8) ∧ y.mode = 1 → x.sh.chans.getD k Chan.reset = { y with stop := some (max 5 (y.stop.getD 0)) }) ∧
          (¬ (named (y.ctx.toNat / 2 ^ 8) ∧ y.mode = 1) → x.sh.chans.getD k Chan.reset = y))

/-! ### Register writes and the test access port -/

/-- R10, R29, R31, R35, R332, R342, R343, R444, R451, R484, R546, R575 to R577: A store of eight bytes that reaches a register
changes its fields as the register's description says and nothing else; one that does not reach a register changes nothing;
registers with an effect do what their command does. The test access port loads its instruction, gives its identity and, where
DEBUG allows, reads a locked or held station. -/
def Obligations.RegisterAndPortResults : Prop :=
  ∀ s : State, let d := s.dev
    (∀ (h : Hart) (v : Word),
      let stores (u : Unit_) (off : Nat) (x : Dev) : Prop :=
        ∀ pa : BitVec 48, region pa.toNat = .reg u off → Cert.Reaches d h u off → Cert.Makes (.registerWrite h pa v) s x
      let as_ (u : Unit_) (off : Nat) (i : Instr) : Prop :=
        ∀ pa : BitVec 48, region pa.toNat = .reg u off → ∃ x, Cert.Makes (.registerWrite h pa v) s x ∧ Cert.Makes i s x
      (∀ pa : BitVec 48, (∀ u off, region pa.toNat ≠ .reg u off) ∨ (∃ u off, region pa.toNat = .reg u off ∧ (off % 8 ≠ 0 ∨ ¬ Cert.Reaches d h u off)) →
        Cert.Makes (.registerWrite h pa v) s d) ∧
      (let w := d.pw;
        stores .pm 0 { d with pw := { w with
          hyst := if Cert.fl v 41 32 ≤ 1000 then Cert.fl v 41 32 else w.hyst, capEn := v.getLsbD 16,
          cap := if 1000 ≤ Cert.fl v 11 0 ∧ Cert.fl v 11 0 ≤ 3500 then Cert.fl v 11 0 else w.cap } } ∧
        stores .pm 8 { d with pw := { w with floor := w.floor && !v.getLsbD 10 } } ∧
        stores .pm 16 { d with pw := { w with throttle := if 85 ≤ Cert.fl v 7 0 ∧ Cert.fl v 7 0 ≤ 105 then Cert.fl v 7 0 else w.throttle } }) ∧
      stores .rc 0x48 { d with retireEv := d.retireEv && !v.getLsbD 2 } ∧
      (∀ k, k < 16 → stores .ca (8 * k) { d with mem := { d.mem with wmask := d.mem.wmask.set k (Cert.nat (Cert.fl v 31 0)) } }) ∧
      stores .ca 0x80 { d with mem := { d.mem with pfctl := BitVec.ofNat 4 (Cert.fl v 3 0) } } ∧
      (∀ e : Fin 16,
        stores (.sh e) 8 { d with sh := { d.sh with ended := d.sh.ended.set e (d.sh.ended.getD e 0 &&& ~~~ BitVec.ofNat 16 (Cert.fl v 15 0)) } } ∧
        stores (.sh e) 16 { d with sh := { d.sh with gobusy := d.sh.gobusy.set e (d.sh.gobusy.getD e 0 &&& ~~~ BitVec.ofNat 16 (Cert.fl v 15 0)) } }) ∧
      (∀ p : Fin 4, let q := d.host.port p
        let into (x : HiPort) : Dev := { d with host := { d.host with ports := d.host.ports.set p x } }
        stores (.hi p) 0 (into { q with
          en := v.getLsbD 0, up := q.up && v.getLsbD 0, lmode := if q.en = false ∧ Cert.fl v 3 2 ≤ 1 then Cert.fl v 3 2 else q.lmode }) ∧
        ∀ k, k < 64 → stores (.hi p) (0x1000 + 16 * k) (into { q with wina := q.wina.set k v }) ∧
          stores (.hi p) (0x1008 + 16 * k) (into { q with winb := q.winb.set k v })) ∧
      (let l := d.host.ld;
        stores .ld 16 (Cert.withLd d { l with err := l.err &&& ~~~ BitVec.ofNat 4 (Cert.fl v 3 0) }) ∧
        stores .ld 24 (Cert.withLd d { l with dlBase := Cert.fl v 47 12 * 4096 }) ∧
        ∀ q : Fin 16, let z := d.sq q
          let in_ (x lo hi old : Nat) := if lo ≤ x ∧ x ≤ hi then x else old
          stores .ld (0x100 + 32 * q) (Cert.withSq d q { z with
            log2s := in_ (Cert.fl v 3 0) 4 12 z.log2s, en := v.getLsbD 4, port := Cert.fl v 9 8, base := Cert.fl v 47 12 * 4096 }) ∧
          stores .ld (0x108 + 32 * q) (Cert.withSq d q { z with
            log2n := in_ (Cert.fl v 4 0) 4 16 z.log2n, winEn := v.getLsbD 5, winBase := Cert.fl v 47 12 * 4096 }) ∧
          stores .ld (0x110 + 32 * q) (Cert.withSq d q { z with log2r := in_ (Cert.fl v 4 0) 4 16 z.log2r, rplBase := Cert.fl v 47 5 * 32 })) ∧
      (let t := d.tt
        let into (x : Tt) : Dev := { d with tt := x };
        stores .tt 0x50 (into { t with err := t.err &&& ~~~ BitVec.ofNat 7 (Cert.fl v 6 0) }) ∧
        stores .tt 0xB0 (into { t with cerr := t.cerr &&& ~~~ BitVec.ofNat 5 (Cert.fl v 4 0) }) ∧
        stores .tt 0x88 (into { t with leaseLen := if Cert.fl v 31 16 = 0 then t.leaseLen else Cert.fl v 31 16 }) ∧
        (t.state = 0 ∨ t.state = 5 →
          stores .tt 0x20 (into { t with len := Cert.fl v 31 0, nphase := Cert.fl v 38 32 }) ∧
          stores .tt 0x38 (into { t with lead := if 1 ≤ Cert.fl v 8 0 ∧ Cert.fl v 8 0 ≤ 500 then Cert.fl v 8 0 else t.lead }) ∧
          stores .tt 0x40 (into { t with recBase := Cert.fl v 47 6 * 64, recPos := 0 }) ∧
          stores .tt 0x80 (into { t with cplParent := Cert.fl v 4 0, cplDepth := Cert.fl v 11 8, cplChild := BitVec.ofNat 24 (Cert.fl v 47 24), cplMaster := Cert.fl v 63 48 }) ∧
          ∀ k, k < 128 → stores .tt (0x400 + 8 * k) (into { t with phases := t.phases.set k v })) ∧
        (t.state ≠ 0 → t.state ≠ 5 → ∀ off, off = 0x10 ∨ off = 0x20 ∨ off = 0x38 ∨ off = 0x40 ∨ off = 0x80 ∨ (0x400 ≤ off ∧ off < 0x800) →
          stores .tt off (into { t with err := Cert.mark t.err 3 }))) ∧
      stores .jn 8 { d with jn := { d.jn with rtId := Cert.fl v 15 0, rtInc := v.getLsbD 16 } } ∧
      (∀ l : Fin 24, stores (.lk l) 8 { d with links := d.links.set l { d.link l with
        overflow := (d.link l).overflow && !v.getLsbD 7, recov := (d.link l).recov && !v.getLsbD 6 } }) ∧
      (∀ n : Fin 128, as_ (.stSp n) 0 (.spPwrWrite h n v) ∧ as_ (.stMm n) 0 (.mmRootWrite h n v) ∧ as_ (.stMm n) 8 (.mmTlbinv h n v)) ∧
      as_ .ft 0 (.ftSmbaseWrite h v) ∧ as_ .ft 8 (.ftInval h v) ∧ as_ .rc 24 (.rcRidxWrite h v) ∧ (v.getLsbD 0 = true → as_ .rc 0 (.rcFreeze h v)) ∧
      as_ .ck 8 (.stationReset h 0 v) ∧ as_ .ck 16 (.stationReset h 1 v)) ∧
    (Cert.Lit d →
      let t := d.tap
      let locked := d.sec.dbg = false
      let into (x : Tap) : Dev := { d with tap := x }
      let low (n x : Nat) : List (Option Bool) := (List.range n).map (fun i => some (x.testBit i))
      let held (xs : List Bool) : Nat := (xs.zipIdx.map (fun p => if p.1 then 2 ^ p.2 else 0)).sum
      Cert.Makes (.jtagTapOperation .reset) s (into { t with ir := 2 }) ∧ (∀ v, Cert.Makes (.jtagTapOperation (.ir v)) s (into { t with ir := v })) ∧
      ∀ bits : List Bool, let n := bits.length
        let gives (cap : List (Option Bool)) (x : Tap) : Prop :=
          Cert.Makes (.jtagTapOperation (.dr bits)) s (Cert.emits (into x) (.tdo ((cap ++ bits.map some).take n)))
        (t.ir = 2 → gives (low 32 (if Config.stepping = 0xA0 then 0x0E18056B else if Config.stepping = 0xA1 then 0x1E18056B else 0x2E18056B)) t) ∧
        (t.ir = 0 ∨ t.ir = 1 → let cap := List.replicate Config.boundaryLen none
          gives cap { t with boundary := (cap ++ bits.map some).drop n }) ∧
        (t.ir ∉ ([0, 1, 2, 0x20, 0x21, 0x22] : List (BitVec 8)) → gives [some false] t) ∧
        (locked → t.ir = 0x20 ∨ t.ir = 0x21 ∨ t.ir = 0x22 → gives [some false] t) ∧
        (¬ locked → t.ir = 0x20 → n = 16 → gives (low 16 t.stnsel.toNat) { t with stnsel := BitVec.ofNat 16 (held bits) }) ∧
        (¬ locked → t.ir = 0x21 → n = 32 → gives (low 32 t.stnaddr.toNat) { t with stnaddr := BitVec.ofNat 32 (held bits) }) ∧
        (¬ locked → t.ir = 0x22 → ∀ m th, m = t.stnsel.toNat % 512 → th = t.stnaddr.toNat / 2 ^ 28 % 4 →
          let a := t.stnaddr.toNat % 2 ^ 28
          let space := t.stnaddr.toNat / 2 ^ 30
          let y := (d.stn m).thr th
          let open_ := m < 128 ∧ d.present m = true ∧ ((d.stn m).locked = true ∨ (d.stn m).held = true)
          (¬ open_ ∨ (space = 1 ∧ 32 ≤ a) ∨ (space = 2 ∧ 8192 ≤ a) ∨ space = 3 → gives (low 64 (2 ^ 64 - 1)) t) ∧
          (open_ → space = 1 → a < 32 → gives (low 64 (y.gr a).toNat) t) ∧
          (open_ → space = 2 → a < 8192 → gives (low 64 ((y.v.getD (a / 256) 0).toNat / 2 ^ (64 * (a % 256)) % 2 ^ 64)) t) ∧
          ∀ (hm : m < 128) (ht : th < 4), open_ → space = 0 → gives (low 64 ((d.cr ⟨⟨m, hm⟩, ⟨th, ht⟩⟩ a).getD (BitVec.allOnes 64)).toNat) t)) ∧
    (¬ Cert.Lit d → ∀ o, Cert.Makes (.jtagTapOperation o) s d)

/-- With an empty queue a step answers a next state in which only the time and the running stations have changed: each station
that runs counts one cycle, every other one stays. That time passes in this way is the model's choice (log entry 6). -/
def Obligations.IdleStepPassesACycle : Prop :=
  ∀ d : Dev, ∃ x, step { pending := [], dev := d } = .next { pending := [], dev := x } ∧
    x = { d with now := d.now + 20, stns := x.stns } ∧
    ∀ n, (Cert.Live (d.stn n) → (x.stn n).cycle = (d.stn n).cycle + 1) ∧ (¬ Cert.Live (d.stn n) → x.stn n = d.stn n)
end

