-- ==== Sys2Proof/Laws/Mem.lean ====
section
/-! SUPPORT. Laws of tables and of memory: a read after a write, and that every memory operation keeps the canonical form. -/

namespace Sys2Proof.Machine

/-! ### Tables -/

theorem tabFind_put {α : Type} (l : List (Nat × α)) (k j : Nat) (v : α) :
    tabFind (tabPut l k v) j = if k = j then some v else tabFind l j := by
  induction l with
  | nil => simp [tabPut, tabFind]
  | cons e r ih =>
    obtain ⟨k', v'⟩ := e
    simp only [tabPut]
    by_cases h1 : k' = k
    · subst h1; by_cases h2 : k' = j <;> simp [tabFind, h2]
    · by_cases h2 : k < k'
      · simp [h1, h2, tabFind]
      · by_cases h3 : k' = j
        · subst h3; simp [h1, h2, tabFind, Ne.symm h1]
        · simp [h1, h2, tabFind, ih, h3]

@[simp] theorem Tab.get?_set {α : Type} (t : Tab α) (k j : Nat) (v : α) :
    (t.set k v).get? j = if k = j then some v else t.get? j := tabFind_put _ _ _ _

@[simp] theorem Tab.get?_empty {α : Type} (k : Nat) : (Tab.empty : Tab α).get? k = none := rfl

@[simp] theorem Tab.getD_set_self {α : Type} (t : Tab α) (k : Nat) (v d : α) : (t.set k v).getD k d = v := by
  simp [Tab.getD]

theorem Tab.getD_set {α : Type} (t : Tab α) (k j : Nat) (v d : α) :
    (t.set k v).getD j d = if k = j then v else t.getD j d := by
  simp only [Tab.getD, Tab.get?_set]
  split <;> rfl

theorem Tab.getD_set_ne {α : Type} (t : Tab α) {k j : Nat} (v d : α) (h : k ≠ j) : (t.set k v).getD j d = t.getD j d := by
  rw [Tab.getD_set, if_neg h]

@[simp] theorem Tab.getD_empty {α : Type} (k : Nat) (d : α) : (Tab.empty : Tab α).getD k d = d := rfl

theorem tabFind_filter {α : Type} (l : List (Nat × α)) (k j : Nat) :
    tabFind (l.filter (fun e => e.1 != k)) j = if k = j then none else tabFind l j := by
  induction l with
  | nil => simp [tabFind]
  | cons e r ih =>
    obtain ⟨k', v'⟩ := e
    by_cases hk : k' = k
    · subst hk
      simp only [List.filter_cons, bne_self_eq_false, Bool.false_eq_true, if_false, ih, tabFind]
      by_cases hj : k' = j <;> simp [hj]
    · have hb : (k' != k) = true := by simp [hk]
      simp only [List.filter_cons, hb, if_true, tabFind, ih]
      by_cases hj : k' = j
      · subst hj; simp [Ne.symm hk]
      · simp [hj]

@[simp] theorem Tab.get?_drop {α : Type} (t : Tab α) (k j : Nat) :
    (t.drop k).get? j = if k = j then none else t.get? j := tabFind_filter _ _ _

/-! ### One byte -/

/-- A read after a write: the written address gives the byte written, every other what it gave before. -/
theorem Mem.get_set (m : Mem) (a j : Nat) (b : Byte) : (m.set a b).get j = if a = j then b else m.get j := by
  unfold Mem.set Mem.get
  by_cases hb : b = Mem.unlisted <;> by_cases hj : a = j <;> simp [hb, hj, tabFind_filter, tabFind_put]

@[simp] theorem Mem.get_set_self (m : Mem) (a : Nat) (b : Byte) : (m.set a b).get a = b := by simp [Mem.get_set]

theorem Mem.get_set_ne (m : Mem) {a j : Nat} (b : Byte) (h : a ≠ j) : (m.set a b).get j = m.get j := by
  rw [Mem.get_set, if_neg h]

@[simp] theorem Mem.get_empty (a : Nat) : Mem.empty.get a = 0 := rfl

/-! ### The canonical form -/

theorem cellsWf_mono {lo lo' : Nat} (h : lo' ≤ lo) (l : List Host.Cell) (hw : cellsWf lo l = true) :
    cellsWf lo' l = true := by
  cases l with
  | nil => rfl
  | cons c r => simp only [cellsWf, Bool.and_eq_true, decide_eq_true_eq] at *; exact ⟨⟨by omega, hw.1.2⟩, hw.2⟩

theorem cellsWf_filter (p : Host.Cell → Bool) (l : List Host.Cell) (lo : Nat) (hw : cellsWf lo l = true) :
    cellsWf lo (l.filter p) = true := by
  induction l generalizing lo with
  | nil => rfl
  | cons c r ih =>
    simp only [cellsWf, Bool.and_eq_true, decide_eq_true_eq] at hw
    by_cases hp : p c = true
    · rw [List.filter_cons_of_pos hp]
      simp only [cellsWf, Bool.and_eq_true, decide_eq_true_eq]
      exact ⟨hw.1, ih _ hw.2⟩
    · rw [List.filter_cons_of_neg hp]
      exact cellsWf_mono (by omega) _ (ih _ hw.2)

theorem cellsWf_put (l : List Host.Cell) (lo a : Nat) (b : Byte) (hw : cellsWf lo l = true) (ha : lo ≤ a)
    (hb : b ≠ Mem.unlisted) : cellsWf lo (tabPut l a b) = true := by
  induction l generalizing lo with
  | nil => simp [tabPut, cellsWf, ha, hb]
  | cons c r ih =>
    obtain ⟨k, v⟩ := c
    simp only [cellsWf, Bool.and_eq_true, decide_eq_true_eq] at hw
    simp only [tabPut]
    split
    · next h1 => subst h1; simp [cellsWf, ha, hb, hw.2]
    · split
      · next h1 h2 =>
        simp only [cellsWf, Bool.and_eq_true, decide_eq_true_eq]
        exact ⟨⟨ha, hb⟩, ⟨h2, hw.1.2⟩, hw.2⟩
      · next h1 h2 =>
        simp only [cellsWf, Bool.and_eq_true, decide_eq_true_eq]
        exact ⟨hw.1, ih _ hw.2 (by omega)⟩

@[simp] theorem Mem.wf_empty : Mem.empty.wf = true := rfl

theorem Mem.wf_set (m : Mem) (a : Nat) (b : Byte) (h : m.wf = true) : (m.set a b).wf = true := by
  unfold Mem.set
  split
  · exact cellsWf_filter _ _ _ h
  · next hb => exact cellsWf_put _ _ _ _ (cellsWf_filter _ _ _ h) (Nat.zero_le _) hb

theorem Mem.wf_writeBytes (m : Mem) (a : Nat) (bs : List Byte) (h : m.wf = true) : (m.writeBytes a bs).wf = true := by
  induction bs generalizing m a with
  | nil => exact h
  | cons b r ih => exact ih _ _ (Mem.wf_set _ _ _ h)

theorem Mem.wf_writeN (m : Mem) (a n v : Nat) (h : m.wf = true) : (m.writeN a n v).wf = true := Mem.wf_writeBytes _ _ _ h

theorem Mem.wf_clearRange (m : Mem) (a n : Nat) (h : m.wf = true) : (m.clearRange a n).wf = true := cellsWf_filter _ _ _ h

/-! ### Runs of bytes -/

/-- A read outside the bytes written gives what it gave before. -/
theorem Mem.get_writeBytes_ne (m : Mem) (a j : Nat) (bs : List Byte) (h : j < a ∨ a + bs.length ≤ j) :
    (m.writeBytes a bs).get j = m.get j := by
  induction bs generalizing m a with
  | nil => rfl
  | cons b r ih =>
    simp only [List.length_cons] at h
    rw [Mem.writeBytes, ih _ _ (by omega), Mem.get_set_ne _ _ (by omega)]

/-- A read inside the bytes written gives the byte written there. -/
theorem Mem.get_writeBytes (m : Mem) (a i : Nat) (bs : List Byte) (h : i < bs.length) :
    (m.writeBytes a bs).get (a + i) = bs[i] := by
  induction bs generalizing m a i with
  | nil => simp at h
  | cons b r ih =>
    cases i with
    | zero => rw [Mem.writeBytes, Mem.get_writeBytes_ne _ _ _ _ (by omega)]; simp
    | succ i =>
      have := ih (m.set a b) (a + 1) i (by simpa using h)
      rw [Mem.writeBytes, show a + (i + 1) = a + 1 + i by omega, this]; simp

/-- The dropped range reads as unlisted, every other address as before. -/
theorem Mem.get_clearRange (m : Mem) (a n j : Nat) :
    (m.clearRange a n).get j = if a ≤ j ∧ j < a + n then 0 else m.get j := by
  unfold Mem.clearRange Mem.get
  induction m.cells with
  | nil => simp [tabFind, Mem.unlisted]
  | cons c r ih =>
    obtain ⟨k, v⟩ := c
    by_cases hk : a ≤ k ∧ k < a + n
    · rw [List.filter_cons_of_neg (by simp [hk]), ih]
      simp only [tabFind]
      by_cases hj : k = j
      · subst hj; simp [hk]
      · simp [hj]
    · rw [List.filter_cons_of_pos (by simp; omega)]
      simp only [tabFind]
      by_cases hj : k = j
      · subst hj; simp [hk]
      · simp only [hj, if_false]; exact ih

end Sys2Proof.Machine
end

