-- ==== Sys2Proof/Laws/State.lean ====
section
/-! SUPPORT. The fields of the state under the updates the meanings share: one lemma a field and an update, so that no proof unfolds a
record update; and the registers of a thread under a write. -/

namespace Sys2Proof.Machine

/-! ### The device -/

@[simp] theorem Dev.setStn_now (d : Dev) (n : Nat) (x : Station) : (d.setStn n x).now = d.now := rfl
@[simp] theorem Dev.setStn_tt (d : Dev) (n : Nat) (x : Station) : (d.setStn n x).tt = d.tt := rfl
@[simp] theorem Dev.setStn_rc (d : Dev) (n : Nat) (x : Station) : (d.setStn n x).rc = d.rc := rfl
@[simp] theorem Dev.setStn_sh (d : Dev) (n : Nat) (x : Station) : (d.setStn n x).sh = d.sh := rfl
@[simp] theorem Dev.setStn_links (d : Dev) (n : Nat) (x : Station) : (d.setStn n x).links = d.links := rfl
@[simp] theorem Dev.setStn_jn (d : Dev) (n : Nat) (x : Station) : (d.setStn n x).jn = d.jn := rfl
@[simp] theorem Dev.setStn_host (d : Dev) (n : Nat) (x : Station) : (d.setStn n x).host = d.host := rfl
@[simp] theorem Dev.setStn_bd (d : Dev) (n : Nat) (x : Station) : (d.setStn n x).bd = d.bd := rfl
@[simp] theorem Dev.setStn_sec (d : Dev) (n : Nat) (x : Station) : (d.setStn n x).sec = d.sec := rfl
@[simp] theorem Dev.setStn_dict (d : Dev) (n : Nat) (x : Station) : (d.setStn n x).dict = d.dict := rfl
@[simp] theorem Dev.setStn_pw (d : Dev) (n : Nat) (x : Station) : (d.setStn n x).pw = d.pw := rfl
@[simp] theorem Dev.setStn_tap (d : Dev) (n : Nat) (x : Station) : (d.setStn n x).tap = d.tap := rfl
@[simp] theorem Dev.setStn_capL (d : Dev) (n : Nat) (x : Station) : (d.setStn n x).capL = d.capL := rfl
@[simp] theorem Dev.setStn_cfatal (d : Dev) (n : Nat) (x : Station) : (d.setStn n x).cfatal = d.cfatal := rfl
@[simp] theorem Dev.setStn_dfatal (d : Dev) (n : Nat) (x : Station) : (d.setStn n x).dfatal = d.dfatal := rfl
@[simp] theorem Dev.setStn_retireEv (d : Dev) (n : Nat) (x : Station) : (d.setStn n x).retireEv = d.retireEv := rfl
@[simp] theorem Dev.setStn_made (d : Dev) (n : Nat) (x : Station) : (d.setStn n x).made = d.made := rfl
@[simp] theorem Dev.setStn_retStn (d : Dev) (n : Nat) (x : Station) : (d.setStn n x).retStn = d.retStn := rfl
@[simp] theorem Dev.setStn_retPend (d : Dev) (n : Nat) (x : Station) : (d.setStn n x).retPend = d.retPend := rfl
@[simp] theorem Dev.setStn_listed (d : Dev) (n : Nat) (x : Station) : (d.setStn n x).listed = d.listed := rfl
@[simp] theorem Dev.setStn_consist (d : Dev) (n : Nat) (x : Station) : (d.setStn n x).consist = d.consist := rfl
@[simp] theorem Dev.setStn_free (d : Dev) (n : Nat) (x : Station) : (d.setStn n x).free = d.free := rfl
@[simp] theorem Dev.setStn_out (d : Dev) (n : Nat) (x : Station) : (d.setStn n x).out = d.out := rfl

@[simp] theorem Dev.updStn_now (d : Dev) (n : Nat) (f : Station → Station) : (d.updStn n f).now = d.now := rfl
@[simp] theorem Dev.updStn_tt (d : Dev) (n : Nat) (f : Station → Station) : (d.updStn n f).tt = d.tt := rfl
@[simp] theorem Dev.updStn_rc (d : Dev) (n : Nat) (f : Station → Station) : (d.updStn n f).rc = d.rc := rfl
@[simp] theorem Dev.updStn_sh (d : Dev) (n : Nat) (f : Station → Station) : (d.updStn n f).sh = d.sh := rfl
@[simp] theorem Dev.updStn_links (d : Dev) (n : Nat) (f : Station → Station) : (d.updStn n f).links = d.links := rfl
@[simp] theorem Dev.updStn_jn (d : Dev) (n : Nat) (f : Station → Station) : (d.updStn n f).jn = d.jn := rfl
@[simp] theorem Dev.updStn_host (d : Dev) (n : Nat) (f : Station → Station) : (d.updStn n f).host = d.host := rfl
@[simp] theorem Dev.updStn_bd (d : Dev) (n : Nat) (f : Station → Station) : (d.updStn n f).bd = d.bd := rfl
@[simp] theorem Dev.updStn_sec (d : Dev) (n : Nat) (f : Station → Station) : (d.updStn n f).sec = d.sec := rfl
@[simp] theorem Dev.updStn_dict (d : Dev) (n : Nat) (f : Station → Station) : (d.updStn n f).dict = d.dict := rfl
@[simp] theorem Dev.updStn_pw (d : Dev) (n : Nat) (f : Station → Station) : (d.updStn n f).pw = d.pw := rfl
@[simp] theorem Dev.updStn_tap (d : Dev) (n : Nat) (f : Station → Station) : (d.updStn n f).tap = d.tap := rfl
@[simp] theorem Dev.updStn_capL (d : Dev) (n : Nat) (f : Station → Station) : (d.updStn n f).capL = d.capL := rfl
@[simp] theorem Dev.updStn_cfatal (d : Dev) (n : Nat) (f : Station → Station) : (d.updStn n f).cfatal = d.cfatal := rfl
@[simp] theorem Dev.updStn_dfatal (d : Dev) (n : Nat) (f : Station → Station) : (d.updStn n f).dfatal = d.dfatal := rfl
@[simp] theorem Dev.updStn_retireEv (d : Dev) (n : Nat) (f : Station → Station) : (d.updStn n f).retireEv = d.retireEv := rfl
@[simp] theorem Dev.updStn_made (d : Dev) (n : Nat) (f : Station → Station) : (d.updStn n f).made = d.made := rfl
@[simp] theorem Dev.updStn_retStn (d : Dev) (n : Nat) (f : Station → Station) : (d.updStn n f).retStn = d.retStn := rfl
@[simp] theorem Dev.updStn_retPend (d : Dev) (n : Nat) (f : Station → Station) : (d.updStn n f).retPend = d.retPend := rfl
@[simp] theorem Dev.updStn_listed (d : Dev) (n : Nat) (f : Station → Station) : (d.updStn n f).listed = d.listed := rfl
@[simp] theorem Dev.updStn_consist (d : Dev) (n : Nat) (f : Station → Station) : (d.updStn n f).consist = d.consist := rfl
@[simp] theorem Dev.updStn_free (d : Dev) (n : Nat) (f : Station → Station) : (d.updStn n f).free = d.free := rfl
@[simp] theorem Dev.updStn_out (d : Dev) (n : Nat) (f : Station → Station) : (d.updStn n f).out = d.out := rfl

@[simp] theorem Dev.updThr_now (d : Dev) (h : Hart) (f : Thread → Thread) : (d.updThr h f).now = d.now := rfl
@[simp] theorem Dev.updThr_tt (d : Dev) (h : Hart) (f : Thread → Thread) : (d.updThr h f).tt = d.tt := rfl
@[simp] theorem Dev.updThr_rc (d : Dev) (h : Hart) (f : Thread → Thread) : (d.updThr h f).rc = d.rc := rfl
@[simp] theorem Dev.updThr_sh (d : Dev) (h : Hart) (f : Thread → Thread) : (d.updThr h f).sh = d.sh := rfl
@[simp] theorem Dev.updThr_links (d : Dev) (h : Hart) (f : Thread → Thread) : (d.updThr h f).links = d.links := rfl
@[simp] theorem Dev.updThr_jn (d : Dev) (h : Hart) (f : Thread → Thread) : (d.updThr h f).jn = d.jn := rfl
@[simp] theorem Dev.updThr_host (d : Dev) (h : Hart) (f : Thread → Thread) : (d.updThr h f).host = d.host := rfl
@[simp] theorem Dev.updThr_bd (d : Dev) (h : Hart) (f : Thread → Thread) : (d.updThr h f).bd = d.bd := rfl
@[simp] theorem Dev.updThr_sec (d : Dev) (h : Hart) (f : Thread → Thread) : (d.updThr h f).sec = d.sec := rfl
@[simp] theorem Dev.updThr_dict (d : Dev) (h : Hart) (f : Thread → Thread) : (d.updThr h f).dict = d.dict := rfl
@[simp] theorem Dev.updThr_pw (d : Dev) (h : Hart) (f : Thread → Thread) : (d.updThr h f).pw = d.pw := rfl
@[simp] theorem Dev.updThr_tap (d : Dev) (h : Hart) (f : Thread → Thread) : (d.updThr h f).tap = d.tap := rfl
@[simp] theorem Dev.updThr_capL (d : Dev) (h : Hart) (f : Thread → Thread) : (d.updThr h f).capL = d.capL := rfl
@[simp] theorem Dev.updThr_cfatal (d : Dev) (h : Hart) (f : Thread → Thread) : (d.updThr h f).cfatal = d.cfatal := rfl
@[simp] theorem Dev.updThr_dfatal (d : Dev) (h : Hart) (f : Thread → Thread) : (d.updThr h f).dfatal = d.dfatal := rfl
@[simp] theorem Dev.updThr_retireEv (d : Dev) (h : Hart) (f : Thread → Thread) : (d.updThr h f).retireEv = d.retireEv := rfl
@[simp] theorem Dev.updThr_made (d : Dev) (h : Hart) (f : Thread → Thread) : (d.updThr h f).made = d.made := rfl
@[simp] theorem Dev.updThr_retStn (d : Dev) (h : Hart) (f : Thread → Thread) : (d.updThr h f).retStn = d.retStn := rfl
@[simp] theorem Dev.updThr_retPend (d : Dev) (h : Hart) (f : Thread → Thread) : (d.updThr h f).retPend = d.retPend := rfl
@[simp] theorem Dev.updThr_listed (d : Dev) (h : Hart) (f : Thread → Thread) : (d.updThr h f).listed = d.listed := rfl
@[simp] theorem Dev.updThr_consist (d : Dev) (h : Hart) (f : Thread → Thread) : (d.updThr h f).consist = d.consist := rfl
@[simp] theorem Dev.updThr_free (d : Dev) (h : Hart) (f : Thread → Thread) : (d.updThr h f).free = d.free := rfl
@[simp] theorem Dev.updThr_out (d : Dev) (h : Hart) (f : Thread → Thread) : (d.updThr h f).out = d.out := rfl

@[simp] theorem Dev.emit_now (d : Dev) (o : Out) : (d.emit o).now = d.now := rfl
@[simp] theorem Dev.emit_stns (d : Dev) (o : Out) : (d.emit o).stns = d.stns := rfl
@[simp] theorem Dev.emit_tt (d : Dev) (o : Out) : (d.emit o).tt = d.tt := rfl
@[simp] theorem Dev.emit_rc (d : Dev) (o : Out) : (d.emit o).rc = d.rc := rfl
@[simp] theorem Dev.emit_sh (d : Dev) (o : Out) : (d.emit o).sh = d.sh := rfl
@[simp] theorem Dev.emit_links (d : Dev) (o : Out) : (d.emit o).links = d.links := rfl
@[simp] theorem Dev.emit_jn (d : Dev) (o : Out) : (d.emit o).jn = d.jn := rfl
@[simp] theorem Dev.emit_host (d : Dev) (o : Out) : (d.emit o).host = d.host := rfl
@[simp] theorem Dev.emit_bd (d : Dev) (o : Out) : (d.emit o).bd = d.bd := rfl
@[simp] theorem Dev.emit_sec (d : Dev) (o : Out) : (d.emit o).sec = d.sec := rfl
@[simp] theorem Dev.emit_dict (d : Dev) (o : Out) : (d.emit o).dict = d.dict := rfl
@[simp] theorem Dev.emit_pw (d : Dev) (o : Out) : (d.emit o).pw = d.pw := rfl
@[simp] theorem Dev.emit_tap (d : Dev) (o : Out) : (d.emit o).tap = d.tap := rfl
@[simp] theorem Dev.emit_capL (d : Dev) (o : Out) : (d.emit o).capL = d.capL := rfl
@[simp] theorem Dev.emit_cfatal (d : Dev) (o : Out) : (d.emit o).cfatal = d.cfatal := rfl
@[simp] theorem Dev.emit_dfatal (d : Dev) (o : Out) : (d.emit o).dfatal = d.dfatal := rfl
@[simp] theorem Dev.emit_retireEv (d : Dev) (o : Out) : (d.emit o).retireEv = d.retireEv := rfl
@[simp] theorem Dev.emit_made (d : Dev) (o : Out) : (d.emit o).made = d.made := rfl
@[simp] theorem Dev.emit_retStn (d : Dev) (o : Out) : (d.emit o).retStn = d.retStn := rfl
@[simp] theorem Dev.emit_retPend (d : Dev) (o : Out) : (d.emit o).retPend = d.retPend := rfl
@[simp] theorem Dev.emit_listed (d : Dev) (o : Out) : (d.emit o).listed = d.listed := rfl
@[simp] theorem Dev.emit_consist (d : Dev) (o : Out) : (d.emit o).consist = d.consist := rfl
@[simp] theorem Dev.emit_free (d : Dev) (o : Out) : (d.emit o).free = d.free := rfl

@[simp] theorem Dev.updLink_now (d : Dev) (l : Nat) (f : Link → Link) : (d.updLink l f).now = d.now := rfl
@[simp] theorem Dev.updLink_stns (d : Dev) (l : Nat) (f : Link → Link) : (d.updLink l f).stns = d.stns := rfl
@[simp] theorem Dev.updLink_tt (d : Dev) (l : Nat) (f : Link → Link) : (d.updLink l f).tt = d.tt := rfl
@[simp] theorem Dev.updLink_rc (d : Dev) (l : Nat) (f : Link → Link) : (d.updLink l f).rc = d.rc := rfl
@[simp] theorem Dev.updLink_sh (d : Dev) (l : Nat) (f : Link → Link) : (d.updLink l f).sh = d.sh := rfl
@[simp] theorem Dev.updLink_jn (d : Dev) (l : Nat) (f : Link → Link) : (d.updLink l f).jn = d.jn := rfl
@[simp] theorem Dev.updLink_host (d : Dev) (l : Nat) (f : Link → Link) : (d.updLink l f).host = d.host := rfl
@[simp] theorem Dev.updLink_bd (d : Dev) (l : Nat) (f : Link → Link) : (d.updLink l f).bd = d.bd := rfl
@[simp] theorem Dev.updLink_sec (d : Dev) (l : Nat) (f : Link → Link) : (d.updLink l f).sec = d.sec := rfl
@[simp] theorem Dev.updLink_dict (d : Dev) (l : Nat) (f : Link → Link) : (d.updLink l f).dict = d.dict := rfl
@[simp] theorem Dev.updLink_pw (d : Dev) (l : Nat) (f : Link → Link) : (d.updLink l f).pw = d.pw := rfl
@[simp] theorem Dev.updLink_tap (d : Dev) (l : Nat) (f : Link → Link) : (d.updLink l f).tap = d.tap := rfl
@[simp] theorem Dev.updLink_capL (d : Dev) (l : Nat) (f : Link → Link) : (d.updLink l f).capL = d.capL := rfl
@[simp] theorem Dev.updLink_cfatal (d : Dev) (l : Nat) (f : Link → Link) : (d.updLink l f).cfatal = d.cfatal := rfl
@[simp] theorem Dev.updLink_dfatal (d : Dev) (l : Nat) (f : Link → Link) : (d.updLink l f).dfatal = d.dfatal := rfl
@[simp] theorem Dev.updLink_retireEv (d : Dev) (l : Nat) (f : Link → Link) : (d.updLink l f).retireEv = d.retireEv := rfl
@[simp] theorem Dev.updLink_made (d : Dev) (l : Nat) (f : Link → Link) : (d.updLink l f).made = d.made := rfl
@[simp] theorem Dev.updLink_retStn (d : Dev) (l : Nat) (f : Link → Link) : (d.updLink l f).retStn = d.retStn := rfl
@[simp] theorem Dev.updLink_retPend (d : Dev) (l : Nat) (f : Link → Link) : (d.updLink l f).retPend = d.retPend := rfl
@[simp] theorem Dev.updLink_listed (d : Dev) (l : Nat) (f : Link → Link) : (d.updLink l f).listed = d.listed := rfl
@[simp] theorem Dev.updLink_consist (d : Dev) (l : Nat) (f : Link → Link) : (d.updLink l f).consist = d.consist := rfl
@[simp] theorem Dev.updLink_free (d : Dev) (l : Nat) (f : Link → Link) : (d.updLink l f).free = d.free := rfl
@[simp] theorem Dev.updLink_out (d : Dev) (l : Nat) (f : Link → Link) : (d.updLink l f).out = d.out := rfl

@[simp] theorem Dev.pass_now (d : Dev) (n c : Nat) : (d.pass n c).now = d.now := rfl
@[simp] theorem Dev.pass_tt (d : Dev) (n c : Nat) : (d.pass n c).tt = d.tt := rfl
@[simp] theorem Dev.pass_rc (d : Dev) (n c : Nat) : (d.pass n c).rc = d.rc := rfl
@[simp] theorem Dev.pass_sh (d : Dev) (n c : Nat) : (d.pass n c).sh = d.sh := rfl
@[simp] theorem Dev.pass_links (d : Dev) (n c : Nat) : (d.pass n c).links = d.links := rfl
@[simp] theorem Dev.pass_jn (d : Dev) (n c : Nat) : (d.pass n c).jn = d.jn := rfl
@[simp] theorem Dev.pass_host (d : Dev) (n c : Nat) : (d.pass n c).host = d.host := rfl
@[simp] theorem Dev.pass_bd (d : Dev) (n c : Nat) : (d.pass n c).bd = d.bd := rfl
@[simp] theorem Dev.pass_sec (d : Dev) (n c : Nat) : (d.pass n c).sec = d.sec := rfl
@[simp] theorem Dev.pass_dict (d : Dev) (n c : Nat) : (d.pass n c).dict = d.dict := rfl
@[simp] theorem Dev.pass_pw (d : Dev) (n c : Nat) : (d.pass n c).pw = d.pw := rfl
@[simp] theorem Dev.pass_tap (d : Dev) (n c : Nat) : (d.pass n c).tap = d.tap := rfl
@[simp] theorem Dev.pass_capL (d : Dev) (n c : Nat) : (d.pass n c).capL = d.capL := rfl
@[simp] theorem Dev.pass_cfatal (d : Dev) (n c : Nat) : (d.pass n c).cfatal = d.cfatal := rfl
@[simp] theorem Dev.pass_dfatal (d : Dev) (n c : Nat) : (d.pass n c).dfatal = d.dfatal := rfl
@[simp] theorem Dev.pass_retireEv (d : Dev) (n c : Nat) : (d.pass n c).retireEv = d.retireEv := rfl
@[simp] theorem Dev.pass_made (d : Dev) (n c : Nat) : (d.pass n c).made = d.made := rfl
@[simp] theorem Dev.pass_retStn (d : Dev) (n c : Nat) : (d.pass n c).retStn = d.retStn := rfl
@[simp] theorem Dev.pass_retPend (d : Dev) (n c : Nat) : (d.pass n c).retPend = d.retPend := rfl
@[simp] theorem Dev.pass_listed (d : Dev) (n c : Nat) : (d.pass n c).listed = d.listed := rfl
@[simp] theorem Dev.pass_consist (d : Dev) (n c : Nat) : (d.pass n c).consist = d.consist := rfl
@[simp] theorem Dev.pass_free (d : Dev) (n c : Nat) : (d.pass n c).free = d.free := rfl
@[simp] theorem Dev.pass_out (d : Dev) (n c : Nat) : (d.pass n c).out = d.out := rfl

@[simp] theorem Dev.block_now (d : Dev) (h : Hart) (w : Wait) : (d.block h w).now = d.now := rfl
@[simp] theorem Dev.block_tt (d : Dev) (h : Hart) (w : Wait) : (d.block h w).tt = d.tt := rfl
@[simp] theorem Dev.block_rc (d : Dev) (h : Hart) (w : Wait) : (d.block h w).rc = d.rc := rfl
@[simp] theorem Dev.block_sh (d : Dev) (h : Hart) (w : Wait) : (d.block h w).sh = d.sh := rfl
@[simp] theorem Dev.block_links (d : Dev) (h : Hart) (w : Wait) : (d.block h w).links = d.links := rfl
@[simp] theorem Dev.block_jn (d : Dev) (h : Hart) (w : Wait) : (d.block h w).jn = d.jn := rfl
@[simp] theorem Dev.block_host (d : Dev) (h : Hart) (w : Wait) : (d.block h w).host = d.host := rfl
@[simp] theorem Dev.block_bd (d : Dev) (h : Hart) (w : Wait) : (d.block h w).bd = d.bd := rfl
@[simp] theorem Dev.block_sec (d : Dev) (h : Hart) (w : Wait) : (d.block h w).sec = d.sec := rfl
@[simp] theorem Dev.block_dict (d : Dev) (h : Hart) (w : Wait) : (d.block h w).dict = d.dict := rfl
@[simp] theorem Dev.block_pw (d : Dev) (h : Hart) (w : Wait) : (d.block h w).pw = d.pw := rfl
@[simp] theorem Dev.block_tap (d : Dev) (h : Hart) (w : Wait) : (d.block h w).tap = d.tap := rfl
@[simp] theorem Dev.block_capL (d : Dev) (h : Hart) (w : Wait) : (d.block h w).capL = d.capL := rfl
@[simp] theorem Dev.block_cfatal (d : Dev) (h : Hart) (w : Wait) : (d.block h w).cfatal = d.cfatal := rfl
@[simp] theorem Dev.block_dfatal (d : Dev) (h : Hart) (w : Wait) : (d.block h w).dfatal = d.dfatal := rfl
@[simp] theorem Dev.block_retireEv (d : Dev) (h : Hart) (w : Wait) : (d.block h w).retireEv = d.retireEv := rfl
@[simp] theorem Dev.block_made (d : Dev) (h : Hart) (w : Wait) : (d.block h w).made = d.made := rfl
@[simp] theorem Dev.block_retStn (d : Dev) (h : Hart) (w : Wait) : (d.block h w).retStn = d.retStn := rfl
@[simp] theorem Dev.block_retPend (d : Dev) (h : Hart) (w : Wait) : (d.block h w).retPend = d.retPend := rfl
@[simp] theorem Dev.block_listed (d : Dev) (h : Hart) (w : Wait) : (d.block h w).listed = d.listed := rfl
@[simp] theorem Dev.block_consist (d : Dev) (h : Hart) (w : Wait) : (d.block h w).consist = d.consist := rfl
@[simp] theorem Dev.block_free (d : Dev) (h : Hart) (w : Wait) : (d.block h w).free = d.free := rfl
@[simp] theorem Dev.block_out (d : Dev) (h : Hart) (w : Wait) : (d.block h w).out = d.out := rfl

@[simp] theorem Dev.finish_now (d : Dev) (h : Hart) (len c : Nat) (f : Thread → Thread) : (d.finish h len c f).now = d.now := rfl
@[simp] theorem Dev.finish_tt (d : Dev) (h : Hart) (len c : Nat) (f : Thread → Thread) : (d.finish h len c f).tt = d.tt := rfl
@[simp] theorem Dev.finish_rc (d : Dev) (h : Hart) (len c : Nat) (f : Thread → Thread) : (d.finish h len c f).rc = d.rc := rfl
@[simp] theorem Dev.finish_sh (d : Dev) (h : Hart) (len c : Nat) (f : Thread → Thread) : (d.finish h len c f).sh = d.sh := rfl
@[simp] theorem Dev.finish_links (d : Dev) (h : Hart) (len c : Nat) (f : Thread → Thread) : (d.finish h len c f).links = d.links := rfl
@[simp] theorem Dev.finish_jn (d : Dev) (h : Hart) (len c : Nat) (f : Thread → Thread) : (d.finish h len c f).jn = d.jn := rfl
@[simp] theorem Dev.finish_host (d : Dev) (h : Hart) (len c : Nat) (f : Thread → Thread) : (d.finish h len c f).host = d.host := rfl
@[simp] theorem Dev.finish_bd (d : Dev) (h : Hart) (len c : Nat) (f : Thread → Thread) : (d.finish h len c f).bd = d.bd := rfl
@[simp] theorem Dev.finish_sec (d : Dev) (h : Hart) (len c : Nat) (f : Thread → Thread) : (d.finish h len c f).sec = d.sec := rfl
@[simp] theorem Dev.finish_dict (d : Dev) (h : Hart) (len c : Nat) (f : Thread → Thread) : (d.finish h len c f).dict = d.dict := rfl
@[simp] theorem Dev.finish_pw (d : Dev) (h : Hart) (len c : Nat) (f : Thread → Thread) : (d.finish h len c f).pw = d.pw := rfl
@[simp] theorem Dev.finish_tap (d : Dev) (h : Hart) (len c : Nat) (f : Thread → Thread) : (d.finish h len c f).tap = d.tap := rfl
@[simp] theorem Dev.finish_capL (d : Dev) (h : Hart) (len c : Nat) (f : Thread → Thread) : (d.finish h len c f).capL = d.capL := rfl
@[simp] theorem Dev.finish_cfatal (d : Dev) (h : Hart) (len c : Nat) (f : Thread → Thread) : (d.finish h len c f).cfatal = d.cfatal := rfl
@[simp] theorem Dev.finish_dfatal (d : Dev) (h : Hart) (len c : Nat) (f : Thread → Thread) : (d.finish h len c f).dfatal = d.dfatal := rfl
@[simp] theorem Dev.finish_retireEv (d : Dev) (h : Hart) (len c : Nat) (f : Thread → Thread) : (d.finish h len c f).retireEv = d.retireEv := rfl
@[simp] theorem Dev.finish_made (d : Dev) (h : Hart) (len c : Nat) (f : Thread → Thread) : (d.finish h len c f).made = d.made := rfl
@[simp] theorem Dev.finish_retStn (d : Dev) (h : Hart) (len c : Nat) (f : Thread → Thread) : (d.finish h len c f).retStn = d.retStn := rfl
@[simp] theorem Dev.finish_retPend (d : Dev) (h : Hart) (len c : Nat) (f : Thread → Thread) : (d.finish h len c f).retPend = d.retPend := rfl
@[simp] theorem Dev.finish_listed (d : Dev) (h : Hart) (len c : Nat) (f : Thread → Thread) : (d.finish h len c f).listed = d.listed := rfl
@[simp] theorem Dev.finish_consist (d : Dev) (h : Hart) (len c : Nat) (f : Thread → Thread) : (d.finish h len c f).consist = d.consist := rfl
@[simp] theorem Dev.finish_free (d : Dev) (h : Hart) (len c : Nat) (f : Thread → Thread) : (d.finish h len c f).free = d.free := rfl
@[simp] theorem Dev.finish_out (d : Dev) (h : Hart) (len c : Nat) (f : Thread → Thread) : (d.finish h len c f).out = d.out := rfl

@[simp] theorem Dev.transfer_now (d : Dev) (h : Hart) (p : Word) (b : Bool) (f : Thread → Thread) : (d.transfer h p b f).now = d.now := rfl
@[simp] theorem Dev.transfer_tt (d : Dev) (h : Hart) (p : Word) (b : Bool) (f : Thread → Thread) : (d.transfer h p b f).tt = d.tt := rfl
@[simp] theorem Dev.transfer_rc (d : Dev) (h : Hart) (p : Word) (b : Bool) (f : Thread → Thread) : (d.transfer h p b f).rc = d.rc := rfl
@[simp] theorem Dev.transfer_sh (d : Dev) (h : Hart) (p : Word) (b : Bool) (f : Thread → Thread) : (d.transfer h p b f).sh = d.sh := rfl
@[simp] theorem Dev.transfer_links (d : Dev) (h : Hart) (p : Word) (b : Bool) (f : Thread → Thread) : (d.transfer h p b f).links = d.links := rfl
@[simp] theorem Dev.transfer_jn (d : Dev) (h : Hart) (p : Word) (b : Bool) (f : Thread → Thread) : (d.transfer h p b f).jn = d.jn := rfl
@[simp] theorem Dev.transfer_host (d : Dev) (h : Hart) (p : Word) (b : Bool) (f : Thread → Thread) : (d.transfer h p b f).host = d.host := rfl
@[simp] theorem Dev.transfer_bd (d : Dev) (h : Hart) (p : Word) (b : Bool) (f : Thread → Thread) : (d.transfer h p b f).bd = d.bd := rfl
@[simp] theorem Dev.transfer_sec (d : Dev) (h : Hart) (p : Word) (b : Bool) (f : Thread → Thread) : (d.transfer h p b f).sec = d.sec := rfl
@[simp] theorem Dev.transfer_dict (d : Dev) (h : Hart) (p : Word) (b : Bool) (f : Thread → Thread) : (d.transfer h p b f).dict = d.dict := rfl
@[simp] theorem Dev.transfer_pw (d : Dev) (h : Hart) (p : Word) (b : Bool) (f : Thread → Thread) : (d.transfer h p b f).pw = d.pw := rfl
@[simp] theorem Dev.transfer_tap (d : Dev) (h : Hart) (p : Word) (b : Bool) (f : Thread → Thread) : (d.transfer h p b f).tap = d.tap := rfl
@[simp] theorem Dev.transfer_capL (d : Dev) (h : Hart) (p : Word) (b : Bool) (f : Thread → Thread) : (d.transfer h p b f).capL = d.capL := rfl
@[simp] theorem Dev.transfer_cfatal (d : Dev) (h : Hart) (p : Word) (b : Bool) (f : Thread → Thread) : (d.transfer h p b f).cfatal = d.cfatal := rfl
@[simp] theorem Dev.transfer_dfatal (d : Dev) (h : Hart) (p : Word) (b : Bool) (f : Thread → Thread) : (d.transfer h p b f).dfatal = d.dfatal := rfl
@[simp] theorem Dev.transfer_retireEv (d : Dev) (h : Hart) (p : Word) (b : Bool) (f : Thread → Thread) : (d.transfer h p b f).retireEv = d.retireEv := rfl
@[simp] theorem Dev.transfer_made (d : Dev) (h : Hart) (p : Word) (b : Bool) (f : Thread → Thread) : (d.transfer h p b f).made = d.made := rfl
@[simp] theorem Dev.transfer_retStn (d : Dev) (h : Hart) (p : Word) (b : Bool) (f : Thread → Thread) : (d.transfer h p b f).retStn = d.retStn := rfl
@[simp] theorem Dev.transfer_retPend (d : Dev) (h : Hart) (p : Word) (b : Bool) (f : Thread → Thread) : (d.transfer h p b f).retPend = d.retPend := rfl
@[simp] theorem Dev.transfer_listed (d : Dev) (h : Hart) (p : Word) (b : Bool) (f : Thread → Thread) : (d.transfer h p b f).listed = d.listed := rfl
@[simp] theorem Dev.transfer_consist (d : Dev) (h : Hart) (p : Word) (b : Bool) (f : Thread → Thread) : (d.transfer h p b f).consist = d.consist := rfl
@[simp] theorem Dev.transfer_free (d : Dev) (h : Hart) (p : Word) (b : Bool) (f : Thread → Thread) : (d.transfer h p b f).free = d.free := rfl
@[simp] theorem Dev.transfer_out (d : Dev) (h : Hart) (p : Word) (b : Bool) (f : Thread → Thread) : (d.transfer h p b f).out = d.out := rfl

@[simp] theorem Dev.event_now (d : Dev) (a b c i x : Nat) (tr : Bool) : (d.event a b c i x tr).now = d.now := rfl
@[simp] theorem Dev.event_stns (d : Dev) (a b c i x : Nat) (tr : Bool) : (d.event a b c i x tr).stns = d.stns := rfl
@[simp] theorem Dev.event_tt (d : Dev) (a b c i x : Nat) (tr : Bool) : (d.event a b c i x tr).tt = d.tt := rfl
@[simp] theorem Dev.event_sh (d : Dev) (a b c i x : Nat) (tr : Bool) : (d.event a b c i x tr).sh = d.sh := rfl
@[simp] theorem Dev.event_links (d : Dev) (a b c i x : Nat) (tr : Bool) : (d.event a b c i x tr).links = d.links := rfl
@[simp] theorem Dev.event_jn (d : Dev) (a b c i x : Nat) (tr : Bool) : (d.event a b c i x tr).jn = d.jn := rfl
@[simp] theorem Dev.event_host (d : Dev) (a b c i x : Nat) (tr : Bool) : (d.event a b c i x tr).host = d.host := rfl
@[simp] theorem Dev.event_bd (d : Dev) (a b c i x : Nat) (tr : Bool) : (d.event a b c i x tr).bd = d.bd := rfl
@[simp] theorem Dev.event_sec (d : Dev) (a b c i x : Nat) (tr : Bool) : (d.event a b c i x tr).sec = d.sec := rfl
@[simp] theorem Dev.event_dict (d : Dev) (a b c i x : Nat) (tr : Bool) : (d.event a b c i x tr).dict = d.dict := rfl
@[simp] theorem Dev.event_pw (d : Dev) (a b c i x : Nat) (tr : Bool) : (d.event a b c i x tr).pw = d.pw := rfl
@[simp] theorem Dev.event_tap (d : Dev) (a b c i x : Nat) (tr : Bool) : (d.event a b c i x tr).tap = d.tap := rfl
@[simp] theorem Dev.event_capL (d : Dev) (a b c i x : Nat) (tr : Bool) : (d.event a b c i x tr).capL = d.capL := rfl
@[simp] theorem Dev.event_cfatal (d : Dev) (a b c i x : Nat) (tr : Bool) : (d.event a b c i x tr).cfatal = d.cfatal := rfl
@[simp] theorem Dev.event_dfatal (d : Dev) (a b c i x : Nat) (tr : Bool) : (d.event a b c i x tr).dfatal = d.dfatal := rfl
@[simp] theorem Dev.event_made (d : Dev) (a b c i x : Nat) (tr : Bool) : (d.event a b c i x tr).made = d.made := rfl
@[simp] theorem Dev.event_retStn (d : Dev) (a b c i x : Nat) (tr : Bool) : (d.event a b c i x tr).retStn = d.retStn := rfl
@[simp] theorem Dev.event_retPend (d : Dev) (a b c i x : Nat) (tr : Bool) : (d.event a b c i x tr).retPend = d.retPend := rfl
@[simp] theorem Dev.event_listed (d : Dev) (a b c i x : Nat) (tr : Bool) : (d.event a b c i x tr).listed = d.listed := rfl
@[simp] theorem Dev.event_consist (d : Dev) (a b c i x : Nat) (tr : Bool) : (d.event a b c i x tr).consist = d.consist := rfl
@[simp] theorem Dev.event_free (d : Dev) (a b c i x : Nat) (tr : Bool) : (d.event a b c i x tr).free = d.free := rfl
@[simp] theorem Dev.event_out (d : Dev) (a b c i x : Nat) (tr : Bool) : (d.event a b c i x tr).out = d.out := rfl

@[simp] theorem Dev.notBefore_stns (t : Nat) (d : Dev) : (Dev.notBefore t d).stns = d.stns := rfl
@[simp] theorem Dev.notBefore_tt (t : Nat) (d : Dev) : (Dev.notBefore t d).tt = d.tt := rfl
@[simp] theorem Dev.notBefore_rc (t : Nat) (d : Dev) : (Dev.notBefore t d).rc = d.rc := rfl
@[simp] theorem Dev.notBefore_sh (t : Nat) (d : Dev) : (Dev.notBefore t d).sh = d.sh := rfl
@[simp] theorem Dev.notBefore_links (t : Nat) (d : Dev) : (Dev.notBefore t d).links = d.links := rfl
@[simp] theorem Dev.notBefore_jn (t : Nat) (d : Dev) : (Dev.notBefore t d).jn = d.jn := rfl
@[simp] theorem Dev.notBefore_host (t : Nat) (d : Dev) : (Dev.notBefore t d).host = d.host := rfl
@[simp] theorem Dev.notBefore_bd (t : Nat) (d : Dev) : (Dev.notBefore t d).bd = d.bd := rfl
@[simp] theorem Dev.notBefore_sec (t : Nat) (d : Dev) : (Dev.notBefore t d).sec = d.sec := rfl
@[simp] theorem Dev.notBefore_dict (t : Nat) (d : Dev) : (Dev.notBefore t d).dict = d.dict := rfl
@[simp] theorem Dev.notBefore_pw (t : Nat) (d : Dev) : (Dev.notBefore t d).pw = d.pw := rfl
@[simp] theorem Dev.notBefore_tap (t : Nat) (d : Dev) : (Dev.notBefore t d).tap = d.tap := rfl
@[simp] theorem Dev.notBefore_capL (t : Nat) (d : Dev) : (Dev.notBefore t d).capL = d.capL := rfl
@[simp] theorem Dev.notBefore_cfatal (t : Nat) (d : Dev) : (Dev.notBefore t d).cfatal = d.cfatal := rfl
@[simp] theorem Dev.notBefore_dfatal (t : Nat) (d : Dev) : (Dev.notBefore t d).dfatal = d.dfatal := rfl
@[simp] theorem Dev.notBefore_retireEv (t : Nat) (d : Dev) : (Dev.notBefore t d).retireEv = d.retireEv := rfl
@[simp] theorem Dev.notBefore_made (t : Nat) (d : Dev) : (Dev.notBefore t d).made = d.made := rfl
@[simp] theorem Dev.notBefore_retStn (t : Nat) (d : Dev) : (Dev.notBefore t d).retStn = d.retStn := rfl
@[simp] theorem Dev.notBefore_retPend (t : Nat) (d : Dev) : (Dev.notBefore t d).retPend = d.retPend := rfl
@[simp] theorem Dev.notBefore_listed (t : Nat) (d : Dev) : (Dev.notBefore t d).listed = d.listed := rfl
@[simp] theorem Dev.notBefore_consist (t : Nat) (d : Dev) : (Dev.notBefore t d).consist = d.consist := rfl
@[simp] theorem Dev.notBefore_free (t : Nat) (d : Dev) : (Dev.notBefore t d).free = d.free := rfl
@[simp] theorem Dev.notBefore_out (t : Nat) (d : Dev) : (Dev.notBefore t d).out = d.out := rfl

@[simp] theorem Dev.notBefore_now (t : Nat) (d : Dev) : (Dev.notBefore t d).now = max d.now t := rfl
@[simp] theorem Dev.emit_out (d : Dev) (o : Out) : (d.emit o).out = d.out ++ [o] := rfl
@[simp] theorem Dev.event_retireEv (d : Dev) (a b c i x : Nat) (tr : Bool) :
    (d.event a b c i x tr).retireEv = (d.retireEv || decide (c = 3)) := rfl

/-! ### Stations and threads -/

theorem Dev.stn_setStn (d : Dev) (n m : Nat) (x : Station) : (d.setStn n x).stn m = if n = m then x else d.stn m :=
  Tab.getD_set _ _ _ _ _

@[simp] theorem Dev.stn_setStn_self (d : Dev) (n : Nat) (x : Station) : (d.setStn n x).stn n = x := by
  rw [Dev.stn_setStn, if_pos rfl]

theorem Dev.stn_updStn (d : Dev) (n m : Nat) (f : Station → Station) :
    (d.updStn n f).stn m = if n = m then f (d.stn n) else d.stn m := Dev.stn_setStn _ _ _ _

@[simp] theorem Dev.stn_updStn_self (d : Dev) (n : Nat) (f : Station → Station) : (d.updStn n f).stn n = f (d.stn n) := by
  rw [Dev.stn_updStn, if_pos rfl]

theorem Dev.stn_updStn_ne (d : Dev) {n m : Nat} (f : Station → Station) (h : n ≠ m) : (d.updStn n f).stn m = d.stn m := by
  rw [Dev.stn_updStn, if_neg h]

theorem Station.thr_setThr (s : Station) (t u : Nat) (x : Thread) : (s.setThr t x).thr u = if t = u then x else s.thr u :=
  Tab.getD_set _ _ _ _ _

@[simp] theorem Station.thr_setThr_self (s : Station) (t : Nat) (x : Thread) : (s.setThr t x).thr t = x := by
  rw [Station.thr_setThr, if_pos rfl]

theorem Station.thr_updThr (s : Station) (t u : Nat) (f : Thread → Thread) :
    (s.updThr t f).thr u = if t = u then f (s.thr t) else s.thr u := Station.thr_setThr _ _ _ _

@[simp] theorem Station.thr_updThr_self (s : Station) (t : Nat) (f : Thread → Thread) : (s.updThr t f).thr t = f (s.thr t) := by
  rw [Station.thr_updThr, if_pos rfl]

theorem Station.thr_updThr_ne (s : Station) {t u : Nat} (f : Thread → Thread) (h : t ≠ u) : (s.updThr t f).thr u = s.thr u := by
  rw [Station.thr_updThr, if_neg h]

/-- A change of all four threads. -/
theorem Station.thr_allThr (s : Station) (f : Thread → Thread) (t : Fin 4) : (s.allThr f).thr t = f (s.thr t) := by
  obtain ⟨k, hk⟩ := t
  have h : k = 0 ∨ k = 1 ∨ k = 2 ∨ k = 3 := by omega
  unfold Station.allThr
  rcases h with h | h | h | h <;> subst h <;> simp [Station.thr_updThr]

@[simp] theorem Station.setThr_running (s : Station) (t : Nat) (x : Thread) : (s.setThr t x).running = s.running := rfl
@[simp] theorem Station.setThr_cycle (s : Station) (t : Nat) (x : Thread) : (s.setThr t x).cycle = s.cycle := rfl
@[simp] theorem Station.setThr_xvec (s : Station) (t : Nat) (x : Thread) : (s.setThr t x).xvec = s.xvec := rfl
@[simp] theorem Station.setThr_gatePc (s : Station) (t : Nat) (x : Thread) : (s.setThr t x).gatePc = s.gatePc := rfl
@[simp] theorem Station.setThr_xdel0 (s : Station) (t : Nat) (x : Thread) : (s.setThr t x).xdel0 = s.xdel0 := rfl
@[simp] theorem Station.setThr_xdel1 (s : Station) (t : Nat) (x : Thread) : (s.setThr t x).xdel1 = s.xdel1 := rfl
@[simp] theorem Station.setThr_nointMax (s : Station) (t : Nat) (x : Thread) : (s.setThr t x).nointMax = s.nointMax := rfl
@[simp] theorem Station.setThr_gtab (s : Station) (t : Nat) (x : Thread) : (s.setThr t x).gtab = s.gtab := rfl
@[simp] theorem Station.setThr_vq (s : Station) (t : Nat) (x : Thread) : (s.setThr t x).vq = s.vq := rfl
@[simp] theorem Station.setThr_pgEn (s : Station) (t : Nat) (x : Thread) : (s.setThr t x).pgEn = s.pgEn := rfl
@[simp] theorem Station.setThr_pgIdle (s : Station) (t : Nat) (x : Thread) : (s.setThr t x).pgIdle = s.pgIdle := rfl
@[simp] theorem Station.setThr_pgOn (s : Station) (t : Nat) (x : Thread) : (s.setThr t x).pgOn = s.pgOn := rfl
@[simp] theorem Station.setThr_pgLast (s : Station) (t : Nat) (x : Thread) : (s.setThr t x).pgLast = s.pgLast := rfl
@[simp] theorem Station.setThr_tiles (s : Station) (t : Nat) (x : Thread) : (s.setThr t x).tiles = s.tiles := rfl
@[simp] theorem Station.setThr_tcfg (s : Station) (t : Nat) (x : Thread) : (s.setThr t x).tcfg = s.tcfg := rfl
@[simp] theorem Station.setThr_owner (s : Station) (t : Nat) (x : Thread) : (s.setThr t x).owner = s.owner := rfl
@[simp] theorem Station.setThr_ownPend (s : Station) (t : Nat) (x : Thread) : (s.setThr t x).ownPend = s.ownPend := rfl
@[simp] theorem Station.setThr_reuseStat (s : Station) (t : Nat) (x : Thread) : (s.setThr t x).reuseStat = s.reuseStat := rfl
@[simp] theorem Station.setThr_reuseRow (s : Station) (t : Nat) (x : Thread) : (s.setThr t x).reuseRow = s.reuseRow := rfl
@[simp] theorem Station.setThr_tgen (s : Station) (t : Nat) (x : Thread) : (s.setThr t x).tgen = s.tgen := rfl
@[simp] theorem Station.setThr_rowLatch (s : Station) (t : Nat) (x : Thread) : (s.setThr t x).rowLatch = s.rowLatch := rfl
@[simp] theorem Station.setThr_tops (s : Station) (t : Nat) (x : Thread) : (s.setThr t x).tops = s.tops := rfl
@[simp] theorem Station.setThr_eng (s : Station) (t : Nat) (x : Thread) : (s.setThr t x).eng = s.eng := rfl
@[simp] theorem Station.setThr_phFlags (s : Station) (t : Nat) (x : Thread) : (s.setThr t x).phFlags = s.phFlags := rfl
@[simp] theorem Station.setThr_phRetries (s : Station) (t : Nat) (x : Thread) : (s.setThr t x).phRetries = s.phRetries := rfl
@[simp] theorem Station.setThr_sp (s : Station) (t : Nat) (x : Thread) : (s.setThr t x).sp = s.sp := rfl
@[simp] theorem Station.setThr_spPoison (s : Station) (t : Nat) (x : Thread) : (s.setThr t x).spPoison = s.spPoison := rfl
@[simp] theorem Station.setThr_spState (s : Station) (t : Nat) (x : Thread) : (s.setThr t x).spState = s.spState := rfl
@[simp] theorem Station.setThr_spTarget (s : Station) (t : Nat) (x : Thread) : (s.setThr t x).spTarget = s.spTarget := rfl
@[simp] theorem Station.setThr_logs (s : Station) (t : Nat) (x : Thread) : (s.setThr t x).logs = s.logs := rfl
@[simp] theorem Station.setThr_ge (s : Station) (t : Nat) (x : Thread) : (s.setThr t x).ge = s.ge := rfl
@[simp] theorem Station.setThr_geDone (s : Station) (t : Nat) (x : Thread) : (s.setThr t x).geDone = s.geDone := rfl
@[simp] theorem Station.setThr_geFault (s : Station) (t : Nat) (x : Thread) : (s.setThr t x).geFault = s.geFault := rfl
@[simp] theorem Station.setThr_geFaddr (s : Station) (t : Nat) (x : Thread) : (s.setThr t x).geFaddr = s.geFaddr := rfl
@[simp] theorem Station.setThr_geLast (s : Station) (t : Nat) (x : Thread) : (s.setThr t x).geLast = s.geLast := rfl
@[simp] theorem Station.setThr_geTlb (s : Station) (t : Nat) (x : Thread) : (s.setThr t x).geTlb = s.geTlb := rfl
@[simp] theorem Station.setThr_mmBase (s : Station) (t : Nat) (x : Thread) : (s.setThr t x).mmBase = s.mmBase := rfl
@[simp] theorem Station.setThr_mmEn (s : Station) (t : Nat) (x : Thread) : (s.setThr t x).mmEn = s.mmEn := rfl
@[simp] theorem Station.setThr_tlb (s : Station) (t : Nat) (x : Thread) : (s.setThr t x).tlb = s.tlb := rfl
@[simp] theorem Station.setThr_slots (s : Station) (t : Nat) (x : Thread) : (s.setThr t x).slots = s.slots := rfl
@[simp] theorem Station.setThr_locked (s : Station) (t : Nat) (x : Thread) : (s.setThr t x).locked = s.locked := rfl
@[simp] theorem Station.setThr_held (s : Station) (t : Nat) (x : Thread) : (s.setThr t x).held = s.held := rfl
@[simp] theorem Station.setThr_xorder (s : Station) (t : Nat) (x : Thread) : (s.setThr t x).xorder = s.xorder := rfl
@[simp] theorem Station.updThr_running (s : Station) (t : Nat) (f : Thread → Thread) : (s.updThr t f).running = s.running := rfl
@[simp] theorem Station.updThr_cycle (s : Station) (t : Nat) (f : Thread → Thread) : (s.updThr t f).cycle = s.cycle := rfl
@[simp] theorem Station.updThr_xvec (s : Station) (t : Nat) (f : Thread → Thread) : (s.updThr t f).xvec = s.xvec := rfl
@[simp] theorem Station.updThr_gatePc (s : Station) (t : Nat) (f : Thread → Thread) : (s.updThr t f).gatePc = s.gatePc := rfl
@[simp] theorem Station.updThr_xdel0 (s : Station) (t : Nat) (f : Thread → Thread) : (s.updThr t f).xdel0 = s.xdel0 := rfl
@[simp] theorem Station.updThr_xdel1 (s : Station) (t : Nat) (f : Thread → Thread) : (s.updThr t f).xdel1 = s.xdel1 := rfl
@[simp] theorem Station.updThr_nointMax (s : Station) (t : Nat) (f : Thread → Thread) : (s.updThr t f).nointMax = s.nointMax := rfl
@[simp] theorem Station.updThr_gtab (s : Station) (t : Nat) (f : Thread → Thread) : (s.updThr t f).gtab = s.gtab := rfl
@[simp] theorem Station.updThr_vq (s : Station) (t : Nat) (f : Thread → Thread) : (s.updThr t f).vq = s.vq := rfl
@[simp] theorem Station.updThr_pgEn (s : Station) (t : Nat) (f : Thread → Thread) : (s.updThr t f).pgEn = s.pgEn := rfl
@[simp] theorem Station.updThr_pgIdle (s : Station) (t : Nat) (f : Thread → Thread) : (s.updThr t f).pgIdle = s.pgIdle := rfl
@[simp] theorem Station.updThr_pgOn (s : Station) (t : Nat) (f : Thread → Thread) : (s.updThr t f).pgOn = s.pgOn := rfl
@[simp] theorem Station.updThr_pgLast (s : Station) (t : Nat) (f : Thread → Thread) : (s.updThr t f).pgLast = s.pgLast := rfl
@[simp] theorem Station.updThr_tiles (s : Station) (t : Nat) (f : Thread → Thread) : (s.updThr t f).tiles = s.tiles := rfl
@[simp] theorem Station.updThr_tcfg (s : Station) (t : Nat) (f : Thread → Thread) : (s.updThr t f).tcfg = s.tcfg := rfl
@[simp] theorem Station.updThr_owner (s : Station) (t : Nat) (f : Thread → Thread) : (s.updThr t f).owner = s.owner := rfl
@[simp] theorem Station.updThr_ownPend (s : Station) (t : Nat) (f : Thread → Thread) : (s.updThr t f).ownPend = s.ownPend := rfl
@[simp] theorem Station.updThr_reuseStat (s : Station) (t : Nat) (f : Thread → Thread) : (s.updThr t f).reuseStat = s.reuseStat := rfl
@[simp] theorem Station.updThr_reuseRow (s : Station) (t : Nat) (f : Thread → Thread) : (s.updThr t f).reuseRow = s.reuseRow := rfl
@[simp] theorem Station.updThr_tgen (s : Station) (t : Nat) (f : Thread → Thread) : (s.updThr t f).tgen = s.tgen := rfl
@[simp] theorem Station.updThr_rowLatch (s : Station) (t : Nat) (f : Thread → Thread) : (s.updThr t f).rowLatch = s.rowLatch := rfl
@[simp] theorem Station.updThr_tops (s : Station) (t : Nat) (f : Thread → Thread) : (s.updThr t f).tops = s.tops := rfl
@[simp] theorem Station.updThr_eng (s : Station) (t : Nat) (f : Thread → Thread) : (s.updThr t f).eng = s.eng := rfl
@[simp] theorem Station.updThr_phFlags (s : Station) (t : Nat) (f : Thread → Thread) : (s.updThr t f).phFlags = s.phFlags := rfl
@[simp] theorem Station.updThr_phRetries (s : Station) (t : Nat) (f : Thread → Thread) : (s.updThr t f).phRetries = s.phRetries := rfl
@[simp] theorem Station.updThr_sp (s : Station) (t : Nat) (f : Thread → Thread) : (s.updThr t f).sp = s.sp := rfl
@[simp] theorem Station.updThr_spPoison (s : Station) (t : Nat) (f : Thread → Thread) : (s.updThr t f).spPoison = s.spPoison := rfl
@[simp] theorem Station.updThr_spState (s : Station) (t : Nat) (f : Thread → Thread) : (s.updThr t f).spState = s.spState := rfl
@[simp] theorem Station.updThr_spTarget (s : Station) (t : Nat) (f : Thread → Thread) : (s.updThr t f).spTarget = s.spTarget := rfl
@[simp] theorem Station.updThr_logs (s : Station) (t : Nat) (f : Thread → Thread) : (s.updThr t f).logs = s.logs := rfl
@[simp] theorem Station.updThr_ge (s : Station) (t : Nat) (f : Thread → Thread) : (s.updThr t f).ge = s.ge := rfl
@[simp] theorem Station.updThr_geDone (s : Station) (t : Nat) (f : Thread → Thread) : (s.updThr t f).geDone = s.geDone := rfl
@[simp] theorem Station.updThr_geFault (s : Station) (t : Nat) (f : Thread → Thread) : (s.updThr t f).geFault = s.geFault := rfl
@[simp] theorem Station.updThr_geFaddr (s : Station) (t : Nat) (f : Thread → Thread) : (s.updThr t f).geFaddr = s.geFaddr := rfl
@[simp] theorem Station.updThr_geLast (s : Station) (t : Nat) (f : Thread → Thread) : (s.updThr t f).geLast = s.geLast := rfl
@[simp] theorem Station.updThr_geTlb (s : Station) (t : Nat) (f : Thread → Thread) : (s.updThr t f).geTlb = s.geTlb := rfl
@[simp] theorem Station.updThr_mmBase (s : Station) (t : Nat) (f : Thread → Thread) : (s.updThr t f).mmBase = s.mmBase := rfl
@[simp] theorem Station.updThr_mmEn (s : Station) (t : Nat) (f : Thread → Thread) : (s.updThr t f).mmEn = s.mmEn := rfl
@[simp] theorem Station.updThr_tlb (s : Station) (t : Nat) (f : Thread → Thread) : (s.updThr t f).tlb = s.tlb := rfl
@[simp] theorem Station.updThr_slots (s : Station) (t : Nat) (f : Thread → Thread) : (s.updThr t f).slots = s.slots := rfl
@[simp] theorem Station.updThr_locked (s : Station) (t : Nat) (f : Thread → Thread) : (s.updThr t f).locked = s.locked := rfl
@[simp] theorem Station.updThr_held (s : Station) (t : Nat) (f : Thread → Thread) : (s.updThr t f).held = s.held := rfl
@[simp] theorem Station.updThr_xorder (s : Station) (t : Nat) (f : Thread → Thread) : (s.updThr t f).xorder = s.xorder := rfl
@[simp] theorem Station.allThr_running (s : Station) (f : Thread → Thread) : (s.allThr f).running = s.running := rfl
@[simp] theorem Station.allThr_cycle (s : Station) (f : Thread → Thread) : (s.allThr f).cycle = s.cycle := rfl
@[simp] theorem Station.allThr_xvec (s : Station) (f : Thread → Thread) : (s.allThr f).xvec = s.xvec := rfl
@[simp] theorem Station.allThr_gatePc (s : Station) (f : Thread → Thread) : (s.allThr f).gatePc = s.gatePc := rfl
@[simp] theorem Station.allThr_xdel0 (s : Station) (f : Thread → Thread) : (s.allThr f).xdel0 = s.xdel0 := rfl
@[simp] theorem Station.allThr_xdel1 (s : Station) (f : Thread → Thread) : (s.allThr f).xdel1 = s.xdel1 := rfl
@[simp] theorem Station.allThr_nointMax (s : Station) (f : Thread → Thread) : (s.allThr f).nointMax = s.nointMax := rfl
@[simp] theorem Station.allThr_gtab (s : Station) (f : Thread → Thread) : (s.allThr f).gtab = s.gtab := rfl
@[simp] theorem Station.allThr_vq (s : Station) (f : Thread → Thread) : (s.allThr f).vq = s.vq := rfl
@[simp] theorem Station.allThr_pgEn (s : Station) (f : Thread → Thread) : (s.allThr f).pgEn = s.pgEn := rfl
@[simp] theorem Station.allThr_pgIdle (s : Station) (f : Thread → Thread) : (s.allThr f).pgIdle = s.pgIdle := rfl
@[simp] theorem Station.allThr_pgOn (s : Station) (f : Thread → Thread) : (s.allThr f).pgOn = s.pgOn := rfl
@[simp] theorem Station.allThr_pgLast (s : Station) (f : Thread → Thread) : (s.allThr f).pgLast = s.pgLast := rfl
@[simp] theorem Station.allThr_tiles (s : Station) (f : Thread → Thread) : (s.allThr f).tiles = s.tiles := rfl
@[simp] theorem Station.allThr_tcfg (s : Station) (f : Thread → Thread) : (s.allThr f).tcfg = s.tcfg := rfl
@[simp] theorem Station.allThr_owner (s : Station) (f : Thread → Thread) : (s.allThr f).owner = s.owner := rfl
@[simp] theorem Station.allThr_ownPend (s : Station) (f : Thread → Thread) : (s.allThr f).ownPend = s.ownPend := rfl
@[simp] theorem Station.allThr_reuseStat (s : Station) (f : Thread → Thread) : (s.allThr f).reuseStat = s.reuseStat := rfl
@[simp] theorem Station.allThr_reuseRow (s : Station) (f : Thread → Thread) : (s.allThr f).reuseRow = s.reuseRow := rfl
@[simp] theorem Station.allThr_tgen (s : Station) (f : Thread → Thread) : (s.allThr f).tgen = s.tgen := rfl
@[simp] theorem Station.allThr_rowLatch (s : Station) (f : Thread → Thread) : (s.allThr f).rowLatch = s.rowLatch := rfl
@[simp] theorem Station.allThr_tops (s : Station) (f : Thread → Thread) : (s.allThr f).tops = s.tops := rfl
@[simp] theorem Station.allThr_eng (s : Station) (f : Thread → Thread) : (s.allThr f).eng = s.eng := rfl
@[simp] theorem Station.allThr_phFlags (s : Station) (f : Thread → Thread) : (s.allThr f).phFlags = s.phFlags := rfl
@[simp] theorem Station.allThr_phRetries (s : Station) (f : Thread → Thread) : (s.allThr f).phRetries = s.phRetries := rfl
@[simp] theorem Station.allThr_sp (s : Station) (f : Thread → Thread) : (s.allThr f).sp = s.sp := rfl
@[simp] theorem Station.allThr_spPoison (s : Station) (f : Thread → Thread) : (s.allThr f).spPoison = s.spPoison := rfl
@[simp] theorem Station.allThr_spState (s : Station) (f : Thread → Thread) : (s.allThr f).spState = s.spState := rfl
@[simp] theorem Station.allThr_spTarget (s : Station) (f : Thread → Thread) : (s.allThr f).spTarget = s.spTarget := rfl
@[simp] theorem Station.allThr_logs (s : Station) (f : Thread → Thread) : (s.allThr f).logs = s.logs := rfl
@[simp] theorem Station.allThr_ge (s : Station) (f : Thread → Thread) : (s.allThr f).ge = s.ge := rfl
@[simp] theorem Station.allThr_geDone (s : Station) (f : Thread → Thread) : (s.allThr f).geDone = s.geDone := rfl
@[simp] theorem Station.allThr_geFault (s : Station) (f : Thread → Thread) : (s.allThr f).geFault = s.geFault := rfl
@[simp] theorem Station.allThr_geFaddr (s : Station) (f : Thread → Thread) : (s.allThr f).geFaddr = s.geFaddr := rfl
@[simp] theorem Station.allThr_geLast (s : Station) (f : Thread → Thread) : (s.allThr f).geLast = s.geLast := rfl
@[simp] theorem Station.allThr_geTlb (s : Station) (f : Thread → Thread) : (s.allThr f).geTlb = s.geTlb := rfl
@[simp] theorem Station.allThr_mmBase (s : Station) (f : Thread → Thread) : (s.allThr f).mmBase = s.mmBase := rfl
@[simp] theorem Station.allThr_mmEn (s : Station) (f : Thread → Thread) : (s.allThr f).mmEn = s.mmEn := rfl
@[simp] theorem Station.allThr_tlb (s : Station) (f : Thread → Thread) : (s.allThr f).tlb = s.tlb := rfl
@[simp] theorem Station.allThr_slots (s : Station) (f : Thread → Thread) : (s.allThr f).slots = s.slots := rfl
@[simp] theorem Station.allThr_locked (s : Station) (f : Thread → Thread) : (s.allThr f).locked = s.locked := rfl
@[simp] theorem Station.allThr_held (s : Station) (f : Thread → Thread) : (s.allThr f).held = s.held := rfl
@[simp] theorem Station.allThr_xorder (s : Station) (f : Thread → Thread) : (s.allThr f).xorder = s.xorder := rfl
@[simp] theorem Station.pass_running (n : Nat) (s : Station) : (s.pass n).running = s.running := rfl
@[simp] theorem Station.pass_cycle (n : Nat) (s : Station) : (s.pass n).cycle = s.cycle + n := rfl
@[simp] theorem Station.pass_xvec (n : Nat) (s : Station) : (s.pass n).xvec = s.xvec := rfl
@[simp] theorem Station.pass_gatePc (n : Nat) (s : Station) : (s.pass n).gatePc = s.gatePc := rfl
@[simp] theorem Station.pass_xdel0 (n : Nat) (s : Station) : (s.pass n).xdel0 = s.xdel0 := rfl
@[simp] theorem Station.pass_xdel1 (n : Nat) (s : Station) : (s.pass n).xdel1 = s.xdel1 := rfl
@[simp] theorem Station.pass_nointMax (n : Nat) (s : Station) : (s.pass n).nointMax = s.nointMax := rfl
@[simp] theorem Station.pass_gtab (n : Nat) (s : Station) : (s.pass n).gtab = s.gtab := rfl
@[simp] theorem Station.pass_vq (n : Nat) (s : Station) : (s.pass n).vq = s.vq := rfl
@[simp] theorem Station.pass_pgEn (n : Nat) (s : Station) : (s.pass n).pgEn = s.pgEn := rfl
@[simp] theorem Station.pass_pgIdle (n : Nat) (s : Station) : (s.pass n).pgIdle = s.pgIdle := rfl
@[simp] theorem Station.pass_pgOn (n : Nat) (s : Station) : (s.pass n).pgOn = s.pgOn := rfl
@[simp] theorem Station.pass_pgLast (n : Nat) (s : Station) : (s.pass n).pgLast = s.pgLast := rfl
@[simp] theorem Station.pass_tiles (n : Nat) (s : Station) : (s.pass n).tiles = s.tiles := rfl
@[simp] theorem Station.pass_tcfg (n : Nat) (s : Station) : (s.pass n).tcfg = s.tcfg := rfl
@[simp] theorem Station.pass_owner (n : Nat) (s : Station) : (s.pass n).owner = s.owner := rfl
@[simp] theorem Station.pass_ownPend (n : Nat) (s : Station) : (s.pass n).ownPend = s.ownPend := rfl
@[simp] theorem Station.pass_reuseStat (n : Nat) (s : Station) : (s.pass n).reuseStat = s.reuseStat := rfl
@[simp] theorem Station.pass_reuseRow (n : Nat) (s : Station) : (s.pass n).reuseRow = s.reuseRow := rfl
@[simp] theorem Station.pass_tgen (n : Nat) (s : Station) : (s.pass n).tgen = s.tgen := rfl
@[simp] theorem Station.pass_rowLatch (n : Nat) (s : Station) : (s.pass n).rowLatch = s.rowLatch := rfl
@[simp] theorem Station.pass_tops (n : Nat) (s : Station) : (s.pass n).tops = s.tops := rfl
@[simp] theorem Station.pass_eng (n : Nat) (s : Station) : (s.pass n).eng = s.eng := rfl
@[simp] theorem Station.pass_phFlags (n : Nat) (s : Station) : (s.pass n).phFlags = s.phFlags := rfl
@[simp] theorem Station.pass_phRetries (n : Nat) (s : Station) : (s.pass n).phRetries = s.phRetries := rfl
@[simp] theorem Station.pass_sp (n : Nat) (s : Station) : (s.pass n).sp = s.sp := rfl
@[simp] theorem Station.pass_spPoison (n : Nat) (s : Station) : (s.pass n).spPoison = s.spPoison := rfl
@[simp] theorem Station.pass_spState (n : Nat) (s : Station) : (s.pass n).spState = s.spState := rfl
@[simp] theorem Station.pass_spTarget (n : Nat) (s : Station) : (s.pass n).spTarget = s.spTarget := rfl
@[simp] theorem Station.pass_logs (n : Nat) (s : Station) : (s.pass n).logs = s.logs := rfl
@[simp] theorem Station.pass_ge (n : Nat) (s : Station) : (s.pass n).ge = s.ge := rfl
@[simp] theorem Station.pass_geDone (n : Nat) (s : Station) : (s.pass n).geDone = s.geDone := rfl
@[simp] theorem Station.pass_geFault (n : Nat) (s : Station) : (s.pass n).geFault = s.geFault := rfl
@[simp] theorem Station.pass_geFaddr (n : Nat) (s : Station) : (s.pass n).geFaddr = s.geFaddr := rfl
@[simp] theorem Station.pass_geLast (n : Nat) (s : Station) : (s.pass n).geLast = s.geLast := rfl
@[simp] theorem Station.pass_geTlb (n : Nat) (s : Station) : (s.pass n).geTlb = s.geTlb := rfl
@[simp] theorem Station.pass_mmBase (n : Nat) (s : Station) : (s.pass n).mmBase = s.mmBase := rfl
@[simp] theorem Station.pass_mmEn (n : Nat) (s : Station) : (s.pass n).mmEn = s.mmEn := rfl
@[simp] theorem Station.pass_tlb (n : Nat) (s : Station) : (s.pass n).tlb = s.tlb := rfl
@[simp] theorem Station.pass_slots (n : Nat) (s : Station) : (s.pass n).slots = s.slots := rfl
@[simp] theorem Station.pass_locked (n : Nat) (s : Station) : (s.pass n).locked = s.locked := rfl
@[simp] theorem Station.pass_held (n : Nat) (s : Station) : (s.pass n).held = s.held := rfl
@[simp] theorem Station.pass_xorder (n : Nat) (s : Station) : (s.pass n).xorder = s.xorder := rfl

/-- After some cycles every thread is as before but for the mq writes that have landed (R71). -/
theorem Station.thr_pass (n : Nat) (s : Station) (t : Fin 4) : (s.pass n).thr t = Thread.land (s.cycle + n) (s.thr t) := by
  unfold Station.pass
  rw [Station.thr_allThr]
  rfl

/-! ### Thread registers -/

@[simp] theorem Thread.land_pc (c : Nat) (t : Thread) : (t.land c).pc = t.pc := rfl
@[simp] theorem Thread.land_g (c : Nat) (t : Thread) : (t.land c).g = t.g := rfl
@[simp] theorem Thread.land_v (c : Nat) (t : Thread) : (t.land c).v = t.v := rfl
@[simp] theorem Thread.land_k (c : Nat) (t : Thread) : (t.land c).k = t.k := rfl
@[simp] theorem Thread.land_sew (c : Nat) (t : Thread) : (t.land c).sew = t.sew := rfl
@[simp] theorem Thread.land_vl (c : Nat) (t : Thread) : (t.land c).vl = t.vl := rfl
@[simp] theorem Thread.land_frm (c : Nat) (t : Thread) : (t.land c).frm = t.frm := rfl
@[simp] theorem Thread.land_vflags (c : Nat) (t : Thread) : (t.land c).vflags = t.vflags := rfl
@[simp] theorem Thread.land_vfault (c : Nat) (t : Thread) : (t.land c).vfault = t.vfault := rfl
@[simp] theorem Thread.land_vslfsr (c : Nat) (t : Thread) : (t.land c).vslfsr = t.vslfsr := rfl
@[simp] theorem Thread.land_ma (c : Nat) (t : Thread) : (t.land c).ma = t.ma := rfl
@[simp] theorem Thread.land_lc (c : Nat) (t : Thread) : (t.land c).lc = t.lc := rfl
@[simp] theorem Thread.land_lrem (c : Nat) (t : Thread) : (t.land c).lrem = t.lrem := rfl
@[simp] theorem Thread.land_lhead (c : Nat) (t : Thread) : (t.land c).lhead = t.lhead := rfl
@[simp] theorem Thread.land_ltail (c : Nat) (t : Thread) : (t.land c).ltail = t.ltail := rfl
@[simp] theorem Thread.land_lflags (c : Nat) (t : Thread) : (t.land c).lflags = t.lflags := rfl
@[simp] theorem Thread.land_qrm (c : Nat) (t : Thread) : (t.land c).qrm = t.qrm := rfl
@[simp] theorem Thread.land_fxSat (c : Nat) (t : Thread) : (t.land c).fxSat = t.fxSat := rfl
@[simp] theorem Thread.land_fxOv (c : Nat) (t : Thread) : (t.land c).fxOv = t.fxOv := rfl
@[simp] theorem Thread.land_qlfsr (c : Nat) (t : Thread) : (t.land c).qlfsr = t.qlfsr := rfl
@[simp] theorem Thread.land_instret (c : Nat) (t : Thread) : (t.land c).instret = t.instret := rfl
@[simp] theorem Thread.land_status (c : Nat) (t : Thread) : (t.land c).status = t.status := rfl
@[simp] theorem Thread.land_xpc (c : Nat) (t : Thread) : (t.land c).xpc = t.xpc := rfl
@[simp] theorem Thread.land_xst (c : Nat) (t : Thread) : (t.land c).xst = t.xst := rfl
@[simp] theorem Thread.land_xcause (c : Nat) (t : Thread) : (t.land c).xcause = t.xcause := rfl
@[simp] theorem Thread.land_xaddr (c : Nat) (t : Thread) : (t.land c).xaddr = t.xaddr := rfl
@[simp] theorem Thread.land_xsp (c : Nat) (t : Thread) : (t.land c).xsp = t.xsp := rfl
@[simp] theorem Thread.land_gateSp (c : Nat) (t : Thread) : (t.land c).gateSp = t.gateSp := rfl
@[simp] theorem Thread.land_nointFrom (c : Nat) (t : Thread) : (t.land c).nointFrom = t.nointFrom := rfl
@[simp] theorem Thread.land_ipend (c : Nat) (t : Thread) : (t.land c).ipend = t.ipend := rfl
@[simp] theorem Thread.land_imask (c : Nat) (t : Thread) : (t.land c).imask = t.imask := rfl
@[simp] theorem Thread.land_tcFault (c : Nat) (t : Thread) : (t.land c).tcFault = t.tcFault := rfl
@[simp] theorem Thread.land_mchk (c : Nat) (t : Thread) : (t.land c).mchk = t.mchk := rfl
@[simp] theorem Thread.land_parith (c : Nat) (t : Thread) : (t.land c).parith = t.parith := rfl
@[simp] theorem Thread.land_arith (c : Nat) (t : Thread) : (t.land c).arith = t.arith := rfl
@[simp] theorem Thread.land_mecmd (c : Nat) (t : Thread) : (t.land c).mecmd = t.mecmd := rfl
@[simp] theorem Thread.land_enabled (c : Nat) (t : Thread) : (t.land c).enabled = t.enabled := rfl
@[simp] theorem Thread.land_wait (c : Nat) (t : Thread) : (t.land c).wait = t.wait := rfl
@[simp] theorem Thread.land_acks (c : Nat) (t : Thread) : (t.land c).acks = t.acks := rfl
@[simp] theorem Thread.land_gr (c : Nat) (t : Thread) (r : Nat) : (t.land c).gr r = t.gr r := rfl

@[simp] theorem Thread.setG_pc (t : Thread) (r : Nat) (v : Word) : (t.setG r v).pc = t.pc := by
  unfold Thread.setG; split <;> rfl
@[simp] theorem Thread.setG_v (t : Thread) (r : Nat) (v : Word) : (t.setG r v).v = t.v := by
  unfold Thread.setG; split <;> rfl
@[simp] theorem Thread.setG_k (t : Thread) (r : Nat) (v : Word) : (t.setG r v).k = t.k := by
  unfold Thread.setG; split <;> rfl
@[simp] theorem Thread.setG_sew (t : Thread) (r : Nat) (v : Word) : (t.setG r v).sew = t.sew := by
  unfold Thread.setG; split <;> rfl
@[simp] theorem Thread.setG_vl (t : Thread) (r : Nat) (v : Word) : (t.setG r v).vl = t.vl := by
  unfold Thread.setG; split <;> rfl
@[simp] theorem Thread.setG_frm (t : Thread) (r : Nat) (v : Word) : (t.setG r v).frm = t.frm := by
  unfold Thread.setG; split <;> rfl
@[simp] theorem Thread.setG_vflags (t : Thread) (r : Nat) (v : Word) : (t.setG r v).vflags = t.vflags := by
  unfold Thread.setG; split <;> rfl
@[simp] theorem Thread.setG_vfault (t : Thread) (r : Nat) (v : Word) : (t.setG r v).vfault = t.vfault := by
  unfold Thread.setG; split <;> rfl
@[simp] theorem Thread.setG_vslfsr (t : Thread) (r : Nat) (v : Word) : (t.setG r v).vslfsr = t.vslfsr := by
  unfold Thread.setG; split <;> rfl
@[simp] theorem Thread.setG_ma (t : Thread) (r : Nat) (v : Word) : (t.setG r v).ma = t.ma := by
  unfold Thread.setG; split <;> rfl
@[simp] theorem Thread.setG_lc (t : Thread) (r : Nat) (v : Word) : (t.setG r v).lc = t.lc := by
  unfold Thread.setG; split <;> rfl
@[simp] theorem Thread.setG_lrem (t : Thread) (r : Nat) (v : Word) : (t.setG r v).lrem = t.lrem := by
  unfold Thread.setG; split <;> rfl
@[simp] theorem Thread.setG_lhead (t : Thread) (r : Nat) (v : Word) : (t.setG r v).lhead = t.lhead := by
  unfold Thread.setG; split <;> rfl
@[simp] theorem Thread.setG_ltail (t : Thread) (r : Nat) (v : Word) : (t.setG r v).ltail = t.ltail := by
  unfold Thread.setG; split <;> rfl
@[simp] theorem Thread.setG_lflags (t : Thread) (r : Nat) (v : Word) : (t.setG r v).lflags = t.lflags := by
  unfold Thread.setG; split <;> rfl
@[simp] theorem Thread.setG_qrm (t : Thread) (r : Nat) (v : Word) : (t.setG r v).qrm = t.qrm := by
  unfold Thread.setG; split <;> rfl
@[simp] theorem Thread.setG_fxSat (t : Thread) (r : Nat) (v : Word) : (t.setG r v).fxSat = t.fxSat := by
  unfold Thread.setG; split <;> rfl
@[simp] theorem Thread.setG_fxOv (t : Thread) (r : Nat) (v : Word) : (t.setG r v).fxOv = t.fxOv := by
  unfold Thread.setG; split <;> rfl
@[simp] theorem Thread.setG_qlfsr (t : Thread) (r : Nat) (v : Word) : (t.setG r v).qlfsr = t.qlfsr := by
  unfold Thread.setG; split <;> rfl
@[simp] theorem Thread.setG_instret (t : Thread) (r : Nat) (v : Word) : (t.setG r v).instret = t.instret := by
  unfold Thread.setG; split <;> rfl
@[simp] theorem Thread.setG_status (t : Thread) (r : Nat) (v : Word) : (t.setG r v).status = t.status := by
  unfold Thread.setG; split <;> rfl
@[simp] theorem Thread.setG_xpc (t : Thread) (r : Nat) (v : Word) : (t.setG r v).xpc = t.xpc := by
  unfold Thread.setG; split <;> rfl
@[simp] theorem Thread.setG_xst (t : Thread) (r : Nat) (v : Word) : (t.setG r v).xst = t.xst := by
  unfold Thread.setG; split <;> rfl
@[simp] theorem Thread.setG_xcause (t : Thread) (r : Nat) (v : Word) : (t.setG r v).xcause = t.xcause := by
  unfold Thread.setG; split <;> rfl
@[simp] theorem Thread.setG_xaddr (t : Thread) (r : Nat) (v : Word) : (t.setG r v).xaddr = t.xaddr := by
  unfold Thread.setG; split <;> rfl
@[simp] theorem Thread.setG_xsp (t : Thread) (r : Nat) (v : Word) : (t.setG r v).xsp = t.xsp := by
  unfold Thread.setG; split <;> rfl
@[simp] theorem Thread.setG_gateSp (t : Thread) (r : Nat) (v : Word) : (t.setG r v).gateSp = t.gateSp := by
  unfold Thread.setG; split <;> rfl
@[simp] theorem Thread.setG_nointFrom (t : Thread) (r : Nat) (v : Word) : (t.setG r v).nointFrom = t.nointFrom := by
  unfold Thread.setG; split <;> rfl
@[simp] theorem Thread.setG_ipend (t : Thread) (r : Nat) (v : Word) : (t.setG r v).ipend = t.ipend := by
  unfold Thread.setG; split <;> rfl
@[simp] theorem Thread.setG_imask (t : Thread) (r : Nat) (v : Word) : (t.setG r v).imask = t.imask := by
  unfold Thread.setG; split <;> rfl
@[simp] theorem Thread.setG_tcFault (t : Thread) (r : Nat) (v : Word) : (t.setG r v).tcFault = t.tcFault := by
  unfold Thread.setG; split <;> rfl
@[simp] theorem Thread.setG_mchk (t : Thread) (r : Nat) (v : Word) : (t.setG r v).mchk = t.mchk := by
  unfold Thread.setG; split <;> rfl
@[simp] theorem Thread.setG_parith (t : Thread) (r : Nat) (v : Word) : (t.setG r v).parith = t.parith := by
  unfold Thread.setG; split <;> rfl
@[simp] theorem Thread.setG_arith (t : Thread) (r : Nat) (v : Word) : (t.setG r v).arith = t.arith := by
  unfold Thread.setG; split <;> rfl
@[simp] theorem Thread.setG_mecmd (t : Thread) (r : Nat) (v : Word) : (t.setG r v).mecmd = t.mecmd := by
  unfold Thread.setG; split <;> rfl
@[simp] theorem Thread.setG_enabled (t : Thread) (r : Nat) (v : Word) : (t.setG r v).enabled = t.enabled := by
  unfold Thread.setG; split <;> rfl
@[simp] theorem Thread.setG_wait (t : Thread) (r : Nat) (v : Word) : (t.setG r v).wait = t.wait := by
  unfold Thread.setG; split <;> rfl
@[simp] theorem Thread.setG_acks (t : Thread) (r : Nat) (v : Word) : (t.setG r v).acks = t.acks := by
  unfold Thread.setG; split <;> rfl
@[simp] theorem Thread.setG_mq (t : Thread) (r : Nat) (v : Word) : (t.setG r v).mq = t.mq := by
  unfold Thread.setG; split <;> rfl
@[simp] theorem Thread.setG_mqPend (t : Thread) (r : Nat) (v : Word) : (t.setG r v).mqPend = t.mqPend := by
  unfold Thread.setG; split <;> rfl

/-- g0 reads zero (R49). -/
@[simp] theorem Thread.gr_zero (t : Thread) : t.gr 0 = 0 := rfl

/-- A general register after a write of one: g0 ignores it (R49). -/
theorem Thread.gr_setG (t : Thread) (r j : Nat) (v : Word) :
    (t.setG r v).gr j = if j ≠ 0 ∧ j = r then v else t.gr j := by
  unfold Thread.setG Thread.gr
  by_cases hr : r = 0
  · subst hr
    by_cases hj : j = 0 <;> simp [hj]
  · by_cases hj : j = 0
    · simp [hj]
    · by_cases he : j = r
      · subst he; simp [hj]
      · simp [hj, hr, he, Tab.getD_set, Ne.symm he]

@[simp] theorem Thread.setG_zero (t : Thread) (v : Word) : t.setG 0 v = t := rfl

end Sys2Proof.Machine
end

