-- ==== Sys2Proof/Laws/Issue.lean ====
section
/-! SUPPORT. What the shared operations of the station core can do: the issue of an instruction, its completion, a control transfer,
a wait, and the entry to a ring. One lemma an operation, which a proof cites instead of unfolding it. -/

namespace Sys2Proof.Machine

/-! ### Issue -/

/-- An instruction whose hart can issue, at a boundary where nothing is taken, with its words fetched, runs its body. -/
theorem Dev.issue_ready {d d1 : Dev} {h : Hart} {len : Nat} (body : Dev → Dev) (hc : d.canIssue h = true)
    (hb : d.boundary h = none) (hf : d.fetch h len = .ok d1) : d.issue h len body = body d1 := by
  unfold Dev.issue
  simp [hc, hb, hf]

/-- Everything an issue can do: nothing, an entry at the boundary, a fetch fault, or the body. -/
theorem Dev.issue_cases (d : Dev) (h : Hart) (len : Nat) (body : Dev → Dev) :
    (d.canIssue h = false ∧ d.issue h len body = d) ∨
    (d.canIssue h = true ∧ ∃ d1, d.boundary h = some d1 ∧ d.issue h len body = d1) ∨
    (d.canIssue h = true ∧ d.boundary h = none ∧ ∃ c a, d.fetch h len = .error (c, a) ∧ d.issue h len body = d.exc h c a) ∨
    (d.canIssue h = true ∧ d.boundary h = none ∧ ∃ d1, d.fetch h len = .ok d1 ∧ d.issue h len body = body d1) := by
  cases hc : d.canIssue h with
  | false => exact .inl ⟨rfl, by simp [Dev.issue, hc]⟩
  | true =>
    cases hb : d.boundary h with
    | some d1 => exact .inr (.inl ⟨rfl, d1, rfl, by simp [Dev.issue, hc, hb]⟩)
    | none =>
      cases hf : d.fetch h len with
      | error p => exact .inr (.inr (.inl ⟨rfl, rfl, p.1, p.2, rfl, by simp [Dev.issue, hc, hb, hf]⟩))
      | ok d1 => exact .inr (.inr (.inr ⟨rfl, rfl, d1, rfl, by simp [Dev.issue, hc, hb, hf]⟩))

/-- A hart that cannot issue turns the command away. -/
theorem Dev.issue_away {d : Dev} {h : Hart} (len : Nat) (body : Dev → Dev) (hc : d.canIssue h = false) :
    d.issue h len body = d := by simp [Dev.issue, hc]

/-- The command's effect is a change of the device. -/
theorem onDev_eq (s : State) (f : Dev → Dev) : onDev s f = .next { s with dev := f s.dev } := rfl

/-! ### Threads of a changed station -/

theorem Dev.thr_updStn (d : Dev) (n : Nat) (f : Station → Station) (h : Hart) (hn : n = h.stn) :
    (d.updStn n f).thr h = (f (d.stn h.stn)).thr h.thr := by
  subst hn; simp [Dev.thr]

theorem Dev.thr_updStn_ne (d : Dev) (n : Nat) (f : Station → Station) (h : Hart) (hn : n ≠ h.stn) :
    (d.updStn n f).thr h = d.thr h := by
  simp [Dev.thr, Dev.stn_updStn_ne _ _ hn]

/-! ### Completion -/

theorem Dev.finish_stn_ne (d : Dev) (h : Hart) (len c : Nat) (f : Thread → Thread) {n : Nat} (hn : n ≠ h.stn) :
    (d.finish h len c f).stn n = d.stn n := Dev.stn_updStn_ne _ _ (Ne.symm hn)

/-- The thread that completes. -/
theorem Dev.finish_thr (d : Dev) (h : Hart) (len c : Nat) (f : Thread → Thread) :
    (d.finish h len c f).thr h = Thread.land ((d.stn h.stn).cycle + c) ((f (d.thr h)).done len) := by
  unfold Dev.finish
  rw [Dev.thr_updStn _ _ _ _ rfl, Station.thr_pass]
  simp [Dev.thr]

/-- The station's other threads. -/
theorem Dev.finish_thr_ne (d : Dev) (h : Hart) (len c : Nat) (f : Thread → Thread) {k : Fin 4} (hk : k ≠ h.thr) :
    (d.finish h len c f).thr ⟨h.stn, k⟩ = Thread.land ((d.stn h.stn).cycle + c) (d.thr ⟨h.stn, k⟩) := by
  have hk' : (h.thr : Nat) ≠ k := fun e => hk (Fin.ext e.symm)
  unfold Dev.finish
  rw [Dev.thr_updStn _ _ _ ⟨h.stn, k⟩ rfl, Station.thr_pass, Station.thr_updThr_ne _ _ hk']
  rfl

/-- The station but for its threads. -/
theorem Dev.finish_stn (d : Dev) (h : Hart) (len c : Nat) (f : Thread → Thread) :
    (d.finish h len c f).stn h.stn =
      { d.stn h.stn with th := ((d.finish h len c f).stn h.stn).th, cycle := (d.stn h.stn).cycle + c } := by
  simp only [Dev.finish, Dev.stn_updStn_self]
  rfl

/-! ### Control transfer -/

theorem Dev.transfer_stn_ne (d : Dev) (h : Hart) (p : Word) (b : Bool) (f : Thread → Thread) {n : Nat} (hn : n ≠ h.stn) :
    (d.transfer h p b f).stn n = d.stn n := Dev.stn_updStn_ne _ _ (Ne.symm hn)

theorem Dev.transfer_thr (d : Dev) (h : Hart) (p : Word) (b : Bool) (f : Thread → Thread) :
    (d.transfer h p b f).thr h = Thread.land ((d.stn h.stn).cycle + 2) ((f (d.thr h)).jump p b) := by
  unfold Dev.transfer
  rw [Dev.thr_updStn _ _ _ _ rfl, Station.thr_pass]
  simp [Dev.thr]

theorem Dev.transfer_thr_ne (d : Dev) (h : Hart) (p : Word) (b : Bool) (f : Thread → Thread) {k : Fin 4} (hk : k ≠ h.thr) :
    (d.transfer h p b f).thr ⟨h.stn, k⟩ = Thread.land ((d.stn h.stn).cycle + 2) (d.thr ⟨h.stn, k⟩) := by
  have hk' : (h.thr : Nat) ≠ k := fun e => hk (Fin.ext e.symm)
  unfold Dev.transfer
  rw [Dev.thr_updStn _ _ _ ⟨h.stn, k⟩ rfl, Station.thr_pass, Station.thr_updThr_ne _ _ hk']
  rfl

theorem Dev.transfer_stn (d : Dev) (h : Hart) (p : Word) (b : Bool) (f : Thread → Thread) :
    (d.transfer h p b f).stn h.stn =
      { d.stn h.stn with th := ((d.transfer h p b f).stn h.stn).th, cycle := (d.stn h.stn).cycle + 2 } := by
  simp only [Dev.transfer, Dev.stn_updStn_self]
  rfl

/-! ### The next instruction -/

theorem Thread.loopEnd_idle (n : Nat) (t : Thread) (h : ¬ (t.act n = true ∧ t.ltail.getD n 0 = t.pc)) :
    t.loopEnd n = (t, none) := by
  unfold Thread.loopEnd
  rw [if_neg]
  simpa using h

/-- Where no active loop ends at the instruction, the next one follows it. -/
theorem Thread.advance_plain (len : Nat) (t : Thread) (h0 : ¬ (t.act 0 = true ∧ t.ltail.getD 0 0 = t.pc))
    (h1 : ¬ (t.act 1 = true ∧ t.ltail.getD 1 0 = t.pc)) : t.advance len = { t with pc := t.pc + word len } := by
  have hi : t.inner = 0 ∨ t.inner = 1 := by unfold Thread.inner; split <;> simp
  unfold Thread.advance
  rcases hi with hi | hi <;> simp [hi, Thread.loopEnd_idle _ _ h0, Thread.loopEnd_idle _ _ h1]

/-! ### Entry -/

/-- An entry that finds its shadow set occupied locks the station up; any other enters. -/
theorem Dev.enter_occ (d : Dev) (h : Hart) (x : XEntry) (ho : (d.thr h).occ x.target = true) :
    d.enter h x = d.lockup h x.target (wfld ((d.thr h).xcause.getD x.target 0) 5 0) x.code := by
  unfold Dev.enter; simp [ho]

theorem Dev.enter_free (d : Dev) (h : Hart) (x : XEntry) (ho : (d.thr h).occ x.target = false) :
    d.enter h x = d.updStn h.stn (fun s =>
      let s1 := s.pass ((s.thr h.thr).lastLanding - s.cycle)
      (s1.updThr h.thr (fun u => { (u.enter s1.cycle x (s1.vector x)) with wait := .ready })).pass 2) := by
  unfold Dev.enter; simp [ho]

end Sys2Proof.Machine
end

