-- ==== Sys2Proof/Laws/MemFrame.lean ====
section
/-! SUPPORT. What leaves the memory outside the stations alone: for every operation that stores nothing there, that the
memory after it is the memory before it. One lemma per operation; a statement about a command cites them and unfolds
nothing below. -/

set_option linter.unusedSimpArgs false
set_option linter.unusedVariables false

namespace Sys2Proof.Machine

theorem mem_ite (c : Prop) [Decidable c] (a b : Dev) : (if c then a else b).mem = if c then a.mem else b.mem := by exact apply_ite _ _ _ _
theorem foldl_mem {α : Type} (f : Dev → α → Dev) (hf : ∀ d a, (f d a).mem = d.mem) (l : List α) (d : Dev) : (l.foldl f d).mem = d.mem := by
  induction l generalizing d with
  | nil => rfl
  | cons a r ih => simp only [List.foldl_cons, ih, hf]

@[simp] theorem Dev.emit_mem (d : Dev) (o : Out) : (Dev.emit d o).mem = d.mem := by
  unfold Dev.emit
  with_reducible rfl

@[simp] theorem Dev.updLink_mem (d : Dev) (l : Nat) (f : Link → Link) : (Dev.updLink d l f).mem = d.mem := by
  unfold Dev.updLink
  with_reducible rfl

@[simp] theorem Dev.pump_mem (l n : Nat) (d : Dev) : (Dev.pump l n d).mem = d.mem := by
  induction n generalizing d with
  | zero => rfl
  | succ n ih => unfold Dev.pump; split <;> simp [ih]

@[simp] theorem Dev.sendAll_mem (d : Dev) (l : Nat) : (Dev.sendAll d l).mem = d.mem := by
  unfold Dev.sendAll
  simp only [Dev.pump_mem]

@[simp] theorem Dev.toLink_mem (d : Dev) (l : Nat) (f : Flit) : (Dev.toLink d l f).mem = d.mem := by
  unfold Dev.toLink
  simp only [Dev.sendAll_mem, Dev.updLink_mem]

@[simp] theorem Dev.toTree_mem (d : Dev) (l : Nat) (f : Flit) : (Dev.toTree d l f).mem = d.mem := by
  unfold Dev.toTree
  simp only [mem_ite, ite_self, Dev.toLink_mem]

@[simp] theorem Dev.sendReport_mem (d : Dev) (why : Option Nat) : (Dev.sendReport d why).mem = d.mem := by
  unfold Dev.sendReport
  simp only [mem_ite, ite_self, Dev.toTree_mem]

@[simp] theorem Dev.notBefore_mem (t : Nat) (d : Dev) : (Dev.notBefore t d).mem = d.mem := by
  unfold Dev.notBefore
  with_reducible rfl

@[simp] theorem Dev.setStn_mem (d : Dev) (n : Nat) (s : Station) : (Dev.setStn d n s).mem = d.mem := by
  unfold Dev.setStn
  with_reducible rfl

@[simp] theorem Dev.updStn_mem (d : Dev) (n : Nat) (f : Station → Station) : (Dev.updStn d n f).mem = d.mem := by
  unfold Dev.updStn
  simp only [Dev.setStn_mem]

@[simp] theorem Dev.updThr_mem (d : Dev) (h : Hart) (f : Thread → Thread) : (Dev.updThr d h f).mem = d.mem := by
  unfold Dev.updThr
  simp only [Dev.updStn_mem]

@[simp] theorem Dev.pass_mem (d : Dev) (n : Nat) (c : Nat) : (Dev.pass d n c).mem = d.mem := by
  unfold Dev.pass
  simp only [Dev.updStn_mem]

@[simp] theorem Dev.block_mem (d : Dev) (h : Hart) (w : Wait) : (Dev.block d h w).mem = d.mem := by
  unfold Dev.block
  simp only [Dev.updStn_mem]

@[simp] theorem Dev.event_mem (d : Dev) (src : Nat) (code : Nat) (cls : Nat) (inst : Nat) (data : Nat) (trig : Bool) : (Dev.event d src code cls inst data trig).mem = d.mem := by
  unfold Dev.event
  with_reducible rfl

@[simp] theorem Dev.placeHalt_mem (d : Dev) (reason : Nat) (fixed : Option (Nat × Nat)) : (Dev.placeHalt d reason fixed).mem = d.mem := by
  unfold Dev.placeHalt
  repeat' split
  all_goals with_reducible rfl

@[simp] theorem Dev.haltRequest_mem (d : Dev) (reason : Nat) : (Dev.haltRequest d reason).mem = d.mem := by
  unfold Dev.haltRequest
  simp only [mem_ite, ite_self, Dev.placeHalt_mem, Dev.sendReport_mem]

@[simp] theorem Dev.containedHalt_mem (d : Dev) (src : Nat) (code : Nat) (inst : Nat) (data : Nat) : (Dev.containedHalt d src code inst data).mem = d.mem := by
  unfold Dev.containedHalt
  simp only [Dev.event_mem, Dev.haltRequest_mem]

@[simp] theorem Dev.lockup_mem (d : Dev) (h : Hart) (ring : Nat) (occupied : Nat) (new : Nat) : (Dev.lockup d h ring occupied new).mem = d.mem := by
  unfold Dev.lockup
  simp only [Dev.containedHalt_mem, Dev.updStn_mem]

@[simp] theorem Dev.enter_mem (d : Dev) (h : Hart) (x : XEntry) : (Dev.enter d h x).mem = d.mem := by
  unfold Dev.enter
  simp only [mem_ite, ite_self, Dev.lockup_mem, Dev.pass_mem, Dev.updStn_mem, Dev.updThr_mem]

@[simp] theorem Dev.exc_mem (d : Dev) (h : Hart) (code : Nat) (xaddr : Word) (detail : optParam Nat 0) : (Dev.exc d h code xaddr detail).mem = d.mem := by
  unfold Dev.exc
  simp only [Dev.enter_mem, Dev.pass_mem]

@[simp] theorem Dev.illegal_mem (d : Dev) (h : Hart) (bits : Word) : (Dev.illegal d h bits).mem = d.mem := by
  unfold Dev.illegal
  simp only [Dev.exc_mem]

@[simp] theorem Dev.priv_mem (d : Dev) (h : Hart) (bits : Word) : (Dev.priv d h bits).mem = d.mem := by
  unfold Dev.priv
  simp only [Dev.exc_mem]

@[simp] theorem Dev.raiseMchk_mem (d : Dev) (n : Nat) (t : Fin 4) (xaddr : Word) : (Dev.raiseMchk d n t xaddr).mem = d.mem := by
  unfold Dev.raiseMchk
  simp only [Dev.updStn_mem, Dev.updThr_mem]

@[simp] theorem Dev.raiseMeCmd_mem (d : Dev) (n : Nat) (t : Fin 4) (xaddr : Word) (ring : Nat) : (Dev.raiseMeCmd d n t xaddr ring).mem = d.mem := by
  unfold Dev.raiseMeCmd
  simp only [Dev.updStn_mem, Dev.updThr_mem]

@[simp] theorem Dev.raiseArith_mem (d : Dev) (n : Nat) (t : Fin 4) (en : BitVec 5) (addr : Word) (ring : Nat) (precise : Bool) (elem : Option Nat) : (Dev.raiseArith d n t en addr ring precise elem).mem = d.mem := by
  unfold Dev.raiseArith
  simp only [mem_ite, ite_self, Dev.updStn_mem, Dev.updThr_mem]

@[simp] theorem Dev.takeMchk_mem (d : Dev) (h : Hart) (p : PendX) : (Dev.takeMchk d h p).mem = d.mem := by
  unfold Dev.takeMchk
  simp only [Dev.enter_mem, Dev.updThr_mem]

@[simp] theorem Dev.takeParith_mem (d : Dev) (h : Hart) (p : PendX) : (Dev.takeParith d h p).mem = d.mem := by
  unfold Dev.takeParith
  simp only [mem_ite, ite_self, Dev.enter_mem, Dev.updThr_mem]

@[simp] theorem Dev.takeImpr_mem (d : Dev) (h : Hart) (ar : Bool) (p : PendX) : (Dev.takeImpr d h ar p).mem = d.mem := by
  unfold Dev.takeImpr
  simp only [Dev.enter_mem, Dev.updThr_mem]

@[simp] theorem Dev.takeIrq_mem (d : Dev) (h : Hart) (i : Nat) : (Dev.takeIrq d h i).mem = d.mem := by
  unfold Dev.takeIrq
  simp only [Dev.enter_mem]

theorem Dev.boundary_mem (d d' : Dev) (h : Hart) (hs : d.boundary h = some d') : d'.mem = d.mem := by
  unfold Dev.boundary at hs
  dsimp only at hs
  split at hs
  · cases hs; simp
  · split at hs
    · cases hs; simp
    · split at hs
      · cases hs; simp
      · simp only [Option.map_eq_some_iff] at hs; obtain ⟨i, -, rfl⟩ := hs; simp

@[simp] theorem Dev.finish_mem (d : Dev) (h : Hart) (len : Nat) (c : Nat) (f : Thread → Thread) : (Dev.finish d h len c f).mem = d.mem := by
  unfold Dev.finish
  simp only [Dev.pass_mem, Dev.updStn_mem, Dev.updThr_mem]

@[simp] theorem Dev.transfer_mem (d : Dev) (h : Hart) (target : Word) (abandons : Bool) (f : Thread → Thread) : (Dev.transfer d h target abandons f).mem = d.mem := by
  unfold Dev.transfer
  simp only [Dev.pass_mem, Dev.updStn_mem, Dev.updThr_mem]

@[simp] theorem Dev.install_mem (d : Dev) (n : Nat) (x : Xlat) : (Dev.install d n x).mem = d.mem := by
  unfold Dev.install
  repeat' split
  all_goals first | with_reducible rfl | simp only [Dev.updStn_mem]

theorem Dev.fetch_mem (d d' : Dev) (h : Hart) (len : Nat) (hs : d.fetch h len = .ok d') : d'.mem = d.mem := by
  unfold Dev.fetch at hs
  dsimp only at hs
  split at hs
  · cases hs
  · split at hs
    · cases hs; simp
    · split at hs
      · cases hs
      · cases hs; simp

theorem Dev.issue_mem (d : Dev) (h : Hart) (len : Nat) (body : Dev → Dev) (hb : ∀ x, (body x).mem = x.mem) :
    (d.issue h len body).mem = d.mem := by
  unfold Dev.issue
  split
  · rfl
  · split
    · next d1 h1 => exact Dev.boundary_mem _ _ _ h1
    · split
      · simp
      · next d1 h1 => rw [hb, Dev.fetch_mem _ _ _ _ h1]

@[simp] theorem Dev.setIpend_mem (d : Dev) (n : Nat) (t : Fin 4) (i : Nat) : (Dev.setIpend d n t i).mem = d.mem := by
  unfold Dev.setIpend
  simp only [Dev.updStn_mem, Dev.updThr_mem]

@[simp] theorem Dev.shapeFault_mem (d : Dev) (h : Hart) (f : Word) : (Dev.shapeFault d h f).mem = d.mem := by
  unfold Dev.shapeFault
  simp only [mem_ite, ite_self, Dev.exc_mem, Dev.updThr_mem]

@[simp] theorem Dev.cfgFault_mem (d : Dev) (h : Hart) (f : Word) : (Dev.cfgFault d h f).mem = d.mem := by
  unfold Dev.cfgFault
  simp only [mem_ite, ite_self, Dev.exc_mem, Dev.updThr_mem]

@[simp] theorem Dev.ownFault_mem (d : Dev) (h : Hart) : (Dev.ownFault d h).mem = d.mem := by
  unfold Dev.ownFault
  simp only [Dev.exc_mem]

@[simp] theorem Dev.poisonEvent_mem (d : Dev) (pa : Nat) : (Dev.poisonEvent d pa).mem = d.mem := by
  unfold Dev.poisonEvent
  repeat' split
  all_goals first | with_reducible rfl | simp only [Dev.event_mem]

@[simp] theorem Dev.poisoned_mem (d : Dev) (h : Hart) (pa : Nat) : (Dev.poisoned d h pa).1.mem = d.mem := by
  unfold Dev.poisoned
  simp only [Dev.poisonEvent_mem, Dev.raiseMchk_mem]

@[simp] theorem Dev.wakeAll_mem (d : Dev) (l : List Nat) : (Dev.wakeAll d l).mem = d.mem := by
  unfold Dev.wakeAll
  refine foldl_mem _ (fun x y => ?_) _ _
  repeat' split
  all_goals first | with_reducible rfl | simp only [Dev.updStn_mem]

@[simp] theorem Dev.geXlat_mem (d : Dev) (n : Nat) (ring : Nat) (ak : AK) (va : Nat) : (Dev.geXlat d n ring ak va).1.mem = d.mem := by
  unfold Dev.geXlat
  dsimp only
  repeat' split
  all_goals first | with_reducible rfl | simp only [Dev.updStn_mem]

@[simp] theorem Dev.geFail_mem (d : Dev) (n : Nat) (k : Nat) (code : Nat) (a : Word) : (Dev.geFail d n k code a).mem = d.mem := by
  unfold Dev.geFail
  simp only [Dev.updStn_mem]

@[simp] theorem Dev.geData_mem (d : Dev) (n : Nat) (k : Nat) (a : Word) : (Dev.geData d n k a).mem = d.mem := by
  unfold Dev.geData
  simp only [Dev.event_mem, Dev.geFail_mem]

@[simp] theorem Dev.geDid_mem (d : Dev) (n : Nat) (k : Nat) : (Dev.geDid d n k).mem = d.mem := by
  unfold Dev.geDid
  simp only [Dev.updStn_mem]

@[simp] theorem Dev.geEnd_mem (d : Dev) (n : Nat) (k : Nat) : (Dev.geEnd d n k).mem = d.mem := by
  unfold Dev.geEnd
  dsimp only
  repeat' split
  all_goals first | with_reducible rfl | simp only [Dev.setIpend_mem, Dev.updStn_mem]

@[simp] theorem Dev.tlbInvWrite_mem (d : Dev) (n : Nat) (v : Word) : (Dev.tlbInvWrite d n v).mem = d.mem := by
  unfold Dev.tlbInvWrite
  first | with_reducible rfl | (simp only [foldl_mem, mem_ite, ite_self, Dev.updStn_mem]; done) | (refine foldl_mem _ (fun x y => ?_) _ _; (try dsimp only); (repeat' split) <;> first | with_reducible rfl | (simp only [foldl_mem, mem_ite, ite_self, Dev.updStn_mem]; done)) | ((try dsimp only); (repeat' split) <;> first | with_reducible rfl | (simp only [foldl_mem, mem_ite, ite_self, Dev.updStn_mem]; done) | (simp_all only [foldl_mem, mem_ite, ite_self, Dev.updStn_mem]; done) | (simp_all [foldl_mem, mem_ite]; done))

@[simp] theorem Dev.ttResume_mem (d : Dev) : (Dev.ttResume d).mem = d.mem := by
  unfold Dev.ttResume
  repeat' split
  all_goals with_reducible rfl

@[simp] theorem Dev.ttHalt_mem (d : Dev) : (Dev.ttHalt d).mem = d.mem := by
  unfold Dev.ttHalt
  simp only [Dev.haltRequest_mem]

@[simp] theorem Dev.ttCtrl_mem (d : Dev) (v : Word) : (Dev.ttCtrl d v).mem = d.mem := by
  unfold Dev.ttCtrl
  simp only [mem_ite, ite_self, Dev.ttHalt_mem, Dev.ttResume_mem]

@[simp] theorem Dev.ttWrite_mem (d : Dev) (off : Nat) (v : Word) : (Dev.ttWrite d off v).mem = d.mem := by
  unfold Dev.ttWrite
  simp only [mem_ite, ite_self, Dev.ttCtrl_mem]

@[simp] theorem Dev.updGrp_mem (d : Dev) (g : Nat) (f : RedGrp → RedGrp) : (Dev.updGrp d g f).mem = d.mem := by
  unfold Dev.updGrp
  with_reducible rfl

@[simp] theorem Dev.updInst_mem (d : Dev) (g : Nat) (f : RedInst → RedInst) : (Dev.updInst d g f).mem = d.mem := by
  unfold Dev.updInst
  simp only [Dev.updGrp_mem]

@[simp] theorem Dev.redAbort_mem (d : Dev) (g : Nat) (i : RedInst) (status : Nat) : (Dev.redAbort d g i status).mem = d.mem := by
  unfold Dev.redAbort
  refine foldl_mem _ (fun x y => ?_) _ _
  repeat' split
  all_goals first | with_reducible rfl | simp only [Dev.toTree_mem]

@[simp] theorem Dev.treeLost_mem (l : Nat) (d : Dev) (g : Nat) : (Dev.treeLost l d g).mem = d.mem := by
  unfold Dev.treeLost
  dsimp only
  repeat' split
  all_goals first | with_reducible rfl | simp only [Dev.redAbort_mem, Dev.updInst_mem]

@[simp] theorem Dev.linkLost_mem (d : Dev) (l : Nat) : (Dev.linkLost d l).mem = d.mem := by
  unfold Dev.linkLost
  refine foldl_mem _ (fun x y => ?_) _ _
  repeat' split
  all_goals first | with_reducible rfl | simp only [Dev.treeLost_mem]

@[simp] theorem Dev.linkReset_mem (d : Dev) (l : Nat) : (Dev.linkReset d l).mem = d.mem := by
  unfold Dev.linkReset
  simp only [mem_ite, ite_self, Dev.linkLost_mem, Dev.updLink_mem]

@[simp] theorem Dev.linkDisable_mem (d : Dev) (l : Nat) : (Dev.linkDisable d l).mem = d.mem := by
  unfold Dev.linkDisable
  simp only [mem_ite, ite_self, Dev.linkLost_mem, Dev.updLink_mem]

@[simp] theorem Dev.lkCtrl_mem (d : Dev) (l : Nat) (v : Word) : (Dev.lkCtrl d l v).mem = d.mem := by
  unfold Dev.lkCtrl
  simp only [mem_ite, ite_self, Dev.linkDisable_mem, Dev.linkReset_mem, Dev.updLink_mem]

@[simp] theorem Dev.lkWrite_mem (d : Dev) (l : Nat) (off : Nat) (v : Word) : (Dev.lkWrite d l off v).mem = d.mem := by
  unfold Dev.lkWrite
  simp only [mem_ite, ite_self, Dev.lkCtrl_mem, Dev.updLink_mem]

@[simp] theorem Dev.toInbox_mem (d : Dev) (l : Nat) (f : Flit) : (Dev.toInbox d l f).mem = d.mem := by
  unfold Dev.toInbox
  with_reducible rfl

@[simp] theorem Dev.sendFlit_mem (d : Dev) (f : Flit) : (Dev.sendFlit d f).mem = d.mem := by
  unfold Dev.sendFlit
  repeat' split
  all_goals first | with_reducible rfl | simp only [Dev.toInbox_mem, Dev.toLink_mem]

@[simp] theorem Dev.refuse_mem (d : Dev) (f : Flit) (status : Nat) : (Dev.refuse d f status).mem = d.mem := by
  unfold Dev.refuse
  repeat' split
  all_goals first | with_reducible rfl | simp only [Dev.toInbox_mem, Dev.toLink_mem]

@[simp] theorem Dev.forward_mem (d : Dev) (f : Flit) : (Dev.forward d f).mem = d.mem := by
  unfold Dev.forward
  repeat' split
  all_goals first | with_reducible rfl | simp only [Dev.refuse_mem, Dev.toLink_mem]

@[simp] theorem Dev.junction_mem (d : Dev) (l : Nat) (f : Flit) : (Dev.junction d l f).mem = d.mem := by
  unfold Dev.junction
  simp only [mem_ite, ite_self, Dev.event_mem, Dev.forward_mem, Dev.refuse_mem, Dev.toInbox_mem]

@[simp] theorem Dev.request_mem (d : Dev) (f : Flit) : (Dev.request d f).mem = d.mem := by
  unfold Dev.request
  simp only [mem_ite, ite_self, Dev.forward_mem, Dev.toInbox_mem]

@[simp] theorem Dev.updChan_mem (d : Dev) (e : Nat) (c : Nat) (f : Chan → Chan) : (Dev.updChan d e c f).mem = d.mem := by
  unfold Dev.updChan
  with_reducible rfl

@[simp] theorem Dev.chanIrq_mem (d : Dev) (ctx : BitVec 17) : (Dev.chanIrq d ctx).mem = d.mem := by
  unfold Dev.chanIrq
  simp only [mem_ite, ite_self, Dev.setIpend_mem]

@[simp] theorem Dev.chanEnd_mem (d : Dev) (e : Nat) (c : Nat) (f : Fin_) : (Dev.chanEnd d e c f).mem = d.mem := by
  unfold Dev.chanEnd
  simp only [mem_ite, ite_self, Dev.chanIrq_mem, Dev.updChan_mem]

@[simp] theorem Dev.beginDesc_mem (d : Dev) (e : Nat) (c : Nat) (x : Desc) (direct : Bool) : (Dev.beginDesc d e c x direct).mem = d.mem := by
  unfold Dev.beginDesc
  simp only [Dev.updChan_mem]

@[simp] theorem Dev.remoteNext_mem (d : Dev) (e : Nat) (c : Nat) : (Dev.remoteNext d e c).mem = d.mem := by
  unfold Dev.remoteNext
  first | with_reducible rfl | (simp only [foldl_mem, mem_ite, ite_self, Dev.acked_mem, Dev.request_mem, Dev.updChan_mem]; done) | (refine foldl_mem _ (fun x y => ?_) _ _; (try dsimp only); (repeat' split) <;> first | with_reducible rfl | (simp only [foldl_mem, mem_ite, ite_self, Dev.acked_mem, Dev.request_mem, Dev.updChan_mem]; done)) | ((try dsimp only); (repeat' split) <;> first | with_reducible rfl | (simp only [foldl_mem, mem_ite, ite_self, Dev.acked_mem, Dev.request_mem, Dev.updChan_mem]; done) | (simp_all only [foldl_mem, mem_ite, ite_self, Dev.acked_mem, Dev.request_mem, Dev.updChan_mem]; done) | (simp_all [foldl_mem, mem_ite]; done))

@[simp] theorem Dev.chanGo_mem (d : Dev) (e : Nat) (c : Nat) (chain : Bool) : (Dev.chanGo d e c chain).mem = d.mem := by
  unfold Dev.chanGo
  simp only [mem_ite, ite_self, Dev.beginDesc_mem, Dev.remoteNext_mem, Dev.updChan_mem]

@[simp] theorem Dev.chanStop_mem (d : Dev) (e : Nat) (c : Nat) (why : Nat) : (Dev.chanStop d e c why).mem = d.mem := by
  unfold Dev.chanStop
  simp only [mem_ite, ite_self, Dev.remoteNext_mem, Dev.updChan_mem]

@[simp] theorem Dev.stopChans_mem (d : Dev) (why : Nat) (sel : Chan → Bool) : (Dev.stopChans d why sel).mem = d.mem := by
  unfold Dev.stopChans
  refine foldl_mem _ (fun x y => ?_) _ _
  repeat' split
  all_goals first | with_reducible rfl | simp only [Dev.chanStop_mem]

@[simp] theorem Dev.shCtrl_mem (d : Dev) (e : Nat) (c : Nat) (v : Word) : (Dev.shCtrl d e c v).mem = d.mem := by
  unfold Dev.shCtrl
  simp only [mem_ite, ite_self, Dev.chanGo_mem, Dev.chanStop_mem, Dev.updChan_mem]

@[simp] theorem Dev.chanWrite_mem (d : Dev) (e : Nat) (c : Nat) (o : Nat) (v : Word) : (Dev.chanWrite d e c o v).mem = d.mem := by
  unfold Dev.chanWrite
  simp only [mem_ite, ite_self, Dev.shCtrl_mem, Dev.updChan_mem]

@[simp] theorem Dev.shWrite_mem (d : Dev) (e : Nat) (off : Nat) (v : Word) : (Dev.shWrite d e off v).mem = d.mem := by
  unfold Dev.shWrite
  simp only [mem_ite, ite_self, Dev.chanWrite_mem]

@[simp] theorem Dev.descStart_mem (d : Dev) (e : Nat) (c : Nat) : (Dev.descStart d e c).mem = d.mem := by
  unfold Dev.descStart
  dsimp only
  repeat' split
  all_goals first | with_reducible rfl | simp only [Dev.beginDesc_mem, Dev.chanEnd_mem, Dev.remoteNext_mem]

@[simp] theorem Dev.redFail_mem (d : Dev) (g : Nat) (f : Fin_) : (Dev.redFail d g f).mem = d.mem := by
  unfold Dev.redFail
  repeat' split
  all_goals first | with_reducible rfl | simp only [Dev.redAbort_mem, Dev.updInst_mem]

@[simp] theorem Dev.chunkDone_mem (d : Dev) (g : Nat) (c : Nat) : (Dev.chunkDone d g c).mem = d.mem := by
  unfold Dev.chunkDone
  simp only [Dev.updInst_mem]

@[simp] theorem Dev.redGo_mem (d : Dev) (g : Nat) : (Dev.redGo d g).mem = d.mem := by
  unfold Dev.redGo
  dsimp only
  repeat' split
  all_goals first | with_reducible rfl | simp only [Dev.updGrp_mem]

@[simp] theorem Dev.rgoWrite_mem (d : Dev) (g : Nat) (v : Word) : (Dev.rgoWrite d g v).mem = d.mem := by
  unfold Dev.rgoWrite
  simp only [mem_ite, ite_self, Dev.redGo_mem, Dev.updGrp_mem]

@[simp] theorem Dev.jnWrite_mem (d : Dev) (off : Nat) (v : Word) : (Dev.jnWrite d off v).mem = d.mem := by
  unfold Dev.jnWrite
  simp only [mem_ite, ite_self, Dev.rgoWrite_mem, Dev.updGrp_mem]

@[simp] theorem Dev.updLd_mem (d : Dev) (f : Ledger → Ledger) : (Dev.updLd d f).mem = d.mem := by
  unfold Dev.updLd
  with_reducible rfl

@[simp] theorem Dev.updSq_mem (d : Dev) (q : Nat) (f : Sq → Sq) : (Dev.updSq d q f).mem = d.mem := by
  unfold Dev.updSq
  simp only [Dev.updLd_mem]

@[simp] theorem Dev.ldErr_mem (d : Dev) (i : Nat) : (Dev.ldErr d i).mem = d.mem := by
  unfold Dev.ldErr
  simp only [Dev.updLd_mem]

@[simp] theorem Dev.lockQ_mem (d : Dev) (q : Nat) (seq : Nat) : (Dev.lockQ d q seq).mem = d.mem := by
  unfold Dev.lockQ
  simp only [Dev.event_mem, Dev.updLd_mem]

@[simp] theorem Dev.flush_mem (d : Dev) (q : Nat) (seq : Nat) (what : FlushFor) : (Dev.flush d q seq what).mem = d.mem := by
  unfold Dev.flush
  simp only [Dev.updLd_mem]

@[simp] theorem Dev.doorbell_mem (d : Dev) (q v : Nat) : (Dev.doorbell d q v).mem = d.mem := by
  unfold Dev.doorbell
  extract_lets s ahead
  clear_value s ahead
  rw [mem_ite, Dev.ldErr_mem, Dev.updSq_mem, ite_self]

@[simp] theorem Dev.retireBell_mem (d : Dev) (q : Nat) (v : Word) : (Dev.retireBell d q v).mem = d.mem := by
  unfold Dev.retireBell
  simp only [Dev.updSq_mem]

@[simp] theorem Dev.flushLate_mem (d : Dev) (q : Nat) : (Dev.flushLate d q).mem = d.mem := by
  unfold Dev.flushLate
  repeat' split
  all_goals first | with_reducible rfl | simp only [Dev.ldErr_mem, Dev.lockQ_mem, Dev.notBefore_mem, Dev.updLd_mem]

@[simp] theorem Dev.ldHalt_mem (d : Dev) : (Dev.ldHalt d).mem = d.mem := by
  unfold Dev.ldHalt
  simp only [Dev.updLd_mem]

@[simp] theorem Dev.recover_mem (d : Dev) : (Dev.recover d).mem = d.mem := by
  unfold Dev.recover
  refine foldl_mem _ (fun x y => ?_) _ _
  repeat' split
  all_goals first | with_reducible rfl | simp only [Dev.updSq_mem]

@[simp] theorem Dev.updPort_mem (d : Dev) (h : Nat) (f : HiPort → HiPort) : (Dev.updPort d h f).mem = d.mem := by
  unfold Dev.updPort
  with_reducible rfl

@[simp] theorem Dev.rdmaRead_mem (d : Dev) (port : Nat) (qpn : Nat) (pa : Nat) (rkey : Nat) (n : Nat) : (Dev.rdmaRead d port qpn pa rkey n).mem = d.mem := by
  unfold Dev.rdmaRead
  repeat' split
  all_goals first | with_reducible rfl | simp only [Dev.emit_mem]

@[simp] theorem Dev.hostPortReset_mem (d : Dev) (h : Nat) : (Dev.hostPortReset d h).mem = d.mem := by
  unfold Dev.hostPortReset
  simp only [Dev.updPort_mem]

@[simp] theorem Dev.rcClear_mem (d : Dev) : (Dev.rcClear d).mem = d.mem := by
  unfold Dev.rcClear
  repeat' split
  all_goals with_reducible rfl

@[simp] theorem Dev.rcCtrl_mem (d : Dev) (v : Word) : (Dev.rcCtrl d v).mem = d.mem := by
  unfold Dev.rcCtrl
  simp only [mem_ite, ite_self, Dev.rcClear_mem]

@[simp] theorem Dev.rcWrite_mem (d : Dev) (off : Nat) (v : Word) : (Dev.rcWrite d off v).mem = d.mem := by
  unfold Dev.rcWrite
  simp only [mem_ite, ite_self, Dev.rcCtrl_mem]

@[simp] theorem Dev.snapshot_mem (d : Dev) (cause : Nat) (stop : Bool) : (Dev.snapshot d cause stop).mem = d.mem := by
  unfold Dev.snapshot
  with_reducible rfl

@[simp] theorem Dev.stnReset_mem (d : Dev) (n : Nat) : (Dev.stnReset d n).mem = d.mem := by
  unfold Dev.stnReset
  simp only [mem_ite, ite_self, Dev.stopChans_mem, Dev.updStn_mem]

@[simp] theorem Dev.srstWrite_mem (d : Dev) (j : Nat) (v : Word) : (Dev.srstWrite d j v).mem = d.mem := by
  unfold Dev.srstWrite
  refine foldl_mem _ (fun x y => ?_) _ _
  repeat' split
  all_goals first | with_reducible rfl | simp only [Dev.stnReset_mem]

@[simp] theorem Dev.unitRead_mem (d : Dev) (u : Unit_) (off : Nat) : (Dev.unitRead d u off).1.mem = d.mem := by
  unfold Dev.unitRead
  repeat' split
  all_goals with_reducible rfl

@[simp] theorem Dev.regRead_mem (d : Dev) (_h : Hart) (u : Unit_) (off : Nat) : (Dev.regRead d _h u off).1.mem = d.mem := by
  unfold Dev.regRead
  simp only [Dev.unitRead_mem]

@[simp] theorem Dev.intOp_mem (d : Dev) (h : Hart) (rd : Fin 32) (f : Thread → Word) : (Dev.intOp d h rd f).mem = d.mem := by
  unfold Dev.intOp
  refine Dev.issue_mem _ _ _ _ (fun x => ?_)
  (try dsimp only)
  (repeat' split) <;> first | with_reducible rfl | (simp only [Dev.finish_mem, Dev.illegal_mem]; done) | simp_all

@[simp] theorem Dev.aluR_mem (d : Dev) (h : Hart) (rd : Fin 32) (rs1 : Fin 32) (rs2 : Fin 32) (f : Word → Word → Word) : (Dev.aluR d h rd rs1 rs2 f).mem = d.mem := by
  unfold Dev.aluR
  simp only [Dev.intOp_mem]

@[simp] theorem Dev.aluU_mem (d : Dev) (h : Hart) (fn : Nat) (rd rs1 rs2 : Fin 32) (f : Word → Word) : (Dev.aluU d h fn rd rs1 rs2 f).mem = d.mem := by
  unfold Dev.aluU
  refine Dev.issue_mem _ _ _ _ (fun x => ?_)
  (try dsimp only)
  (repeat' split) <;> first | with_reducible rfl | (simp only [Dev.finish_mem, Dev.illegal_mem]; done) | simp_all

@[simp] theorem Dev.aluI_mem (d : Dev) (h : Hart) (rd : Fin 32) (rs1 : Fin 32) (imm : BitVec 15) (f : Word → Word → Word) : (Dev.aluI d h rd rs1 imm f).mem = d.mem := by
  unfold Dev.aluI
  simp only [Dev.intOp_mem]

@[simp] theorem Dev.branch_mem (d : Dev) (h : Hart) (off : BitVec 12) (c : Thread → Bool) : (Dev.branch d h off c).mem = d.mem := by
  unfold Dev.branch
  refine Dev.issue_mem _ _ _ _ (fun x => ?_)
  (try dsimp only)
  (repeat' split) <;> first | with_reducible rfl | (simp only [Dev.finish_mem, Dev.illegal_mem, Dev.transfer_mem]; done) | simp_all

@[simp] theorem Dev.memFault_mem (d : Dev) (h : Hart) (op : MemOp) (code : Nat) (elem : Nat) (va : Word) : (Dev.memFault d h op code elem va).mem = d.mem := by
  unfold Dev.memFault
  simp only [mem_ite, ite_self, Dev.exc_mem, Dev.updThr_mem]

@[simp] theorem Dev.checkAccs_mem (h : Hart) (ring : Nat) (ak : AK) (cls : Cls) (as_ : List Acc) (d : Dev)
    (ls : List (Nat × TlbE)) : (Dev.checkAccs h ring ak cls as_ d ls).1.mem = d.mem := by
  induction as_ generalizing d ls with
  | nil => rfl
  | cons a r ih => unfold Dev.checkAccs; split <;> simp [ih]

@[simp] theorem Dev.loadPlace_mem (d : Dev) (h : Hart) (l : Nat × TlbE) (n : Nat) (data : Word) : (Dev.loadPlace d h l n data).1.mem = d.mem := by
  unfold Dev.loadPlace
  dsimp only
  repeat' split
  all_goals first | with_reducible rfl | simp only [Dev.regRead_mem]

@[simp] theorem Dev.doAmo_mem (d : Dev) (h : Hart) (k : AmoK) (rd : Fin 32) (rs2 : Fin 32) (va : Nat) (l : Nat × TlbE) (c : Nat) : (Dev.doAmo d h k rd rs2 va l c).mem = d.mem := by
  unfold Dev.doAmo
  dsimp only
  repeat' split
  all_goals first | with_reducible rfl | simp only [Dev.exc_mem, Dev.finish_mem, Dev.poisoned_mem, Dev.updStn_mem]

@[simp] theorem Dev.fillPoison_mem (d : Dev) (n : Nat) (t : Fin 4) (bad : Option Nat) : (Dev.fillPoison d n t bad).mem = d.mem := by
  unfold Dev.fillPoison
  repeat' split
  all_goals first | with_reducible rfl | simp only [Dev.poisonEvent_mem, Dev.raiseMchk_mem]

@[simp] theorem Dev.tileOp_mem (d : Dev) (h : Hart) (fn : Nat) (f : TF) (ok : Bool) (body : Dev → Dev) (hb : ∀ x, (body x).mem = x.mem) : (Dev.tileOp d h fn f ok body).mem = d.mem := by
  unfold Dev.tileOp
  refine Dev.issue_mem _ _ _ _ (fun x => ?_)
  (try dsimp only)
  (repeat' split) <;> first | with_reducible rfl | (simp only [Dev.finish_mem, Dev.illegal_mem, Dev.ownFault_mem]; done) | simp_all

@[simp] theorem Dev.tileIssued_mem (d : Dev) (h : Hart) (n : Nat) (write : Bool) (f : Thread → Thread) : (Dev.tileIssued d h n write f).mem = d.mem := by
  unfold Dev.tileIssued
  simp only [mem_ite, ite_self, Dev.block_mem, Dev.finish_mem, Dev.updStn_mem]

@[simp] theorem Dev.rowMove_mem (d : Dev) (h : Hart) (fn : Nat) (f : TF) (opc : TOpc) (write : Bool) (body : Dev → Dev) (hbody : ∀ x, (body x).mem = x.mem) : (Dev.rowMove d h fn f opc write body).mem = d.mem := by
  unfold Dev.rowMove
  first | with_reducible rfl | (simp only [foldl_mem, mem_ite, ite_self, Dev.block_mem, Dev.shapeFault_mem, Dev.tileOp_mem]; done) | (refine foldl_mem _ (fun x y => ?_) _ _; (try dsimp only); (repeat' split) <;> first | with_reducible rfl | (simp only [foldl_mem, mem_ite, ite_self, Dev.block_mem, Dev.shapeFault_mem, Dev.tileOp_mem]; done)) | ((try dsimp only); (repeat' split) <;> first | with_reducible rfl | (simp only [foldl_mem, mem_ite, ite_self, Dev.block_mem, Dev.shapeFault_mem, Dev.tileOp_mem]; done) | (simp_all only [foldl_mem, mem_ite, ite_self, Dev.block_mem, Dev.shapeFault_mem, Dev.tileOp_mem]; done) | (simp_all [foldl_mem, mem_ite]; done))

@[simp] theorem Dev.tileRetire_mem (d : Dev) (n : Nat) : (Dev.tileRetire d n).mem = d.mem := by
  unfold Dev.tileRetire
  simp only [Dev.updStn_mem]

@[simp] theorem Dev.ownershipFree_mem (d : Dev) (n : Nat) : (Dev.ownershipFree d n).mem = d.mem := by
  unfold Dev.ownershipFree
  simp only [Dev.updStn_mem]

@[simp] theorem Dev.applyLog_mem (n : Nat) (p : Dev × List Nat) (e : LogE) : (Dev.applyLog n p e).1.mem = p.1.mem := by
  unfold Dev.applyLog
  dsimp only
  split
  · split <;> simp
  · simp

theorem foldl_applyLog_mem (n : Nat) (l : List LogE) (p : Dev × List Nat) : (l.foldl (Dev.applyLog n) p).1.mem = p.1.mem := by
  induction l generalizing p with
  | nil => rfl
  | cons a r ih => simp [ih]

@[simp] theorem Dev.applyLogs_mem (d : Dev) (n : Nat) : (Dev.applyLogs d n).mem = d.mem := by
  unfold Dev.applyLogs
  simp [foldl_mem, foldl_applyLog_mem]

@[simp] theorem Dev.engOp_mem (d : Dev) (h : Hart) (fn : Nat) (f : TF) (ok tiles : Bool) (body : Station → Src → EIssue) : (Dev.engOp d h fn f ok tiles body).mem = d.mem := by
  unfold Dev.engOp
  refine Dev.issue_mem _ _ _ _ (fun x => ?_)
  (try dsimp only)
  (repeat' split) <;> first | with_reducible rfl | (simp only [Dev.finish_mem, Dev.illegal_mem, Dev.ownFault_mem, Dev.block_mem, Dev.shapeFault_mem]; done) | simp_all

@[simp] theorem Dev.raiseWork_mem (d : Dev) (n : Nat) (inBlk : Bool) (by_ : Raiser) (ev : Ev) : (Dev.raiseWork d n inBlk by_ ev).mem = d.mem := by
  unfold Dev.raiseWork
  simp only [mem_ite, ite_self, Dev.raiseArith_mem, Dev.updStn_mem]

@[simp] theorem Dev.onLive_mem (d : Dev) (n : Nat) (f : Station → Station) : (Dev.onLive d n f).mem = d.mem := by
  unfold Dev.onLive
  simp only [Dev.updStn_mem]

@[simp] theorem Dev.stopStations_mem (d : Dev) : (Dev.stopStations d).mem = d.mem := by
  unfold Dev.stopStations
  first | with_reducible rfl | (simp only [foldl_mem, mem_ite, ite_self, Dev.setIpend_mem]; done) | (refine foldl_mem _ (fun x y => ?_) _ _; (try dsimp only); (repeat' split) <;> first | with_reducible rfl | (simp only [foldl_mem, mem_ite, ite_self, Dev.setIpend_mem]; done)) | ((try dsimp only); (repeat' split) <;> first | with_reducible rfl | (simp only [foldl_mem, mem_ite, ite_self, Dev.setIpend_mem]; done) | (simp_all only [foldl_mem, mem_ite, ite_self, Dev.setIpend_mem]; done) | (simp_all [foldl_mem, mem_ite]; done))

@[simp] theorem Dev.stopFlits_mem (d : Dev) : (Dev.stopFlits d).mem = d.mem := by
  unfold Dev.stopFlits
  repeat' split
  all_goals with_reducible rfl

@[simp] theorem Dev.stopWork_mem (d : Dev) : (Dev.stopWork d).mem = d.mem := by
  unfold Dev.stopWork
  simp only [Dev.ldHalt_mem, Dev.stopChans_mem, Dev.stopFlits_mem, Dev.stopStations_mem]

@[simp] theorem Dev.startMonitor_mem (d : Dev) : (Dev.startMonitor d).mem = d.mem := by
  unfold Dev.startMonitor
  repeat' split
  all_goals with_reducible rfl

@[simp] theorem Dev.account_mem (d : Dev) (k : Nat) (tag : Nat) (kind : Nat) (ns : Nat) (late : Nat) : (Dev.account d k tag kind ns late).mem = d.mem := by
  unfold Dev.account
  repeat' split
  all_goals with_reducible rfl

@[simp] theorem Dev.capEval_mem (d : Dev) (p : BitVec 16) (tj : BitVec 16) (mj : Nat) : (Dev.capEval d p tj mj).mem = d.mem := by
  unfold Dev.capEval
  with_reducible rfl

@[simp] theorem Dev.evaluate_mem (d : Dev) : (Dev.evaluate d).mem = d.mem := by
  unfold Dev.evaluate
  repeat' split
  all_goals with_reducible rfl

@[simp] theorem Dev.reportBoundary_mem (d : Dev) : (Dev.reportBoundary d).mem = d.mem := by
  unfold Dev.reportBoundary
  simp only [mem_ite, ite_self, Dev.sendReport_mem]

@[simp] theorem Dev.reportEnd_mem (d : Dev) : (Dev.reportEnd d).mem = d.mem := by
  unfold Dev.reportEnd
  simp only [mem_ite, ite_self, Dev.sendReport_mem]

@[simp] theorem Dev.enterHeld_mem (d : Dev) : (Dev.enterHeld d).mem = d.mem := by
  unfold Dev.enterHeld
  simp only [mem_ite, ite_self, Dev.event_mem, Dev.startMonitor_mem]

@[simp] theorem Dev.phaseStation_mem (d : Dev) (n : Nat) : (Dev.phaseStation d n).mem = d.mem := by
  unfold Dev.phaseStation
  simp only [mem_ite, ite_self, Dev.setIpend_mem, Dev.updStn_mem]

@[simp] theorem Dev.goLate_mem (d : Dev) : (Dev.goLate d).mem = d.mem := by
  unfold Dev.goLate
  simp only [Dev.event_mem]

@[simp] theorem Dev.reproApply_mem (d : Dev) (n : Nat) : (Dev.reproApply d n).mem = d.mem := by
  unfold Dev.reproApply
  simp only [mem_ite, ite_self, Dev.applyLogs_mem]

@[simp] theorem Dev.haltPin_mem (d : Dev) : (Dev.haltPin d).mem = d.mem := by
  unfold Dev.haltPin
  simp only [mem_ite, ite_self, Dev.haltRequest_mem]

@[simp] theorem Dev.sendTicks_mem (d : Dev) (m : TickMsg) (master : Nat) : (Dev.sendTicks d m master).mem = d.mem := by
  unfold Dev.sendTicks
  refine foldl_mem _ (fun x y => ?_) _ _
  repeat' split
  all_goals first | with_reducible rfl | simp only [Dev.toTree_mem]

@[simp] theorem Dev.tickSend_mem (d : Dev) : (Dev.tickSend d).mem = d.mem := by
  unfold Dev.tickSend
  simp only [mem_ite, ite_self, Dev.notBefore_mem, Dev.sendTicks_mem]

@[simp] theorem Dev.takeInbox_mem (d : Dev) (p : Flit → Bool) : (Dev.takeInbox d p).2.mem = d.mem := by
  unfold Dev.takeInbox
  repeat' split
  all_goals with_reducible rfl

@[simp] theorem Dev.yieldStaff_mem (d : Dev) : (Dev.yieldStaff d).mem = d.mem := by
  unfold Dev.yieldStaff
  simp only [Dev.placeHalt_mem]

@[simp] theorem Dev.followTick_mem (d : Dev) (l : Nat) (rx : Nat) (f : Flit) : (Dev.followTick d l rx f).mem = d.mem := by
  unfold Dev.followTick
  simp only [mem_ite, ite_self, Dev.sendTicks_mem]

@[simp] theorem Dev.tickReceive_mem (d : Dev) : (Dev.tickReceive d).mem = d.mem := by
  unfold Dev.tickReceive
  split
  · rfl
  · next l rx f d1 h =>
    have h1 : d1.mem = d.mem := by rw [← Dev.takeInbox_mem d isTick, h]
    (repeat' split) <;> simp [h1, mem_ite]

@[simp] theorem Dev.reportedHalt_mem (d : Dev) (f : Flit) : (Dev.reportedHalt d f).mem = d.mem := by
  unfold Dev.reportedHalt
  simp only [mem_ite, ite_self, Dev.haltRequest_mem]

@[simp] theorem Dev.reportReceive_mem (d : Dev) : (Dev.reportReceive d).mem = d.mem := by
  unfold Dev.reportReceive
  split
  · rfl
  · next l r f d1 h =>
    have h1 : d1.mem = d.mem := by rw [← Dev.takeInbox_mem d isReport, h]
    (repeat' split) <;> simp [h1]

@[simp] theorem Dev.reportTimeout_mem (d : Dev) : (Dev.reportTimeout d).mem = d.mem := by
  unfold Dev.reportTimeout
  simp only [mem_ite, ite_self, Dev.notBefore_mem, Dev.sendReport_mem]

@[simp] theorem Dev.haltNext_mem (d : Dev) (reason : Nat) : (Dev.haltNext d reason).mem = d.mem := by
  unfold Dev.haltNext
  repeat' split
  all_goals with_reducible rfl

@[simp] theorem Dev.partitionDetect_mem (d : Dev) : (Dev.partitionDetect d).mem = d.mem := by
  unfold Dev.partitionDetect
  simp only [mem_ite, ite_self, Dev.haltNext_mem]

@[simp] theorem Dev.leaseExpiry_mem (d : Dev) : (Dev.leaseExpiry d).mem = d.mem := by
  unfold Dev.leaseExpiry
  simp only [mem_ite, ite_self, Dev.haltNext_mem, Dev.tickSend_mem]

theorem Dev.orderResume_mem (d : Dev) (r : Nat) (d' : Dev) (hs : Dev.orderResume d r = some d') : d'.mem = d.mem := by
  unfold Dev.orderResume at hs
  dsimp only at hs
  generalize d.tt.lastAnn = y at hs
  generalize (if d.tt.role = 0 then !d.cfatal else d.tt.nMiss == 0 && d.tt.allReady) = z at hs
  obtain ⟨n, at_, p⟩ := y
  dsimp only at hs
  by_cases hc : d.tt.state = 5 ∧ d.tt.hold = true ∧ d.bd.state = 2 ∧ n < r ∧
      d.now + d.tt.lead * usU ≤ at_ + (r - n) * p * nsU ∧ r < d.tt.expiry ∧ z = true
  · rw [if_pos hc] at hs; cases hs; rfl
  · rw [if_neg hc] at hs; cases hs

theorem Dev.orderLease_mem (d : Dev) (epoch : Nat) (expiry : Nat) (d' : Dev) (hs : Dev.orderLease d epoch expiry = some d') : d'.mem = d.mem := by
  unfold Dev.orderLease at hs
  repeat' split at hs
  all_goals cases hs
  all_goals with_reducible rfl

theorem Dev.orderStaff_mem (d : Dev) (epoch : Nat) (expiry : Nat) (d' : Dev) (hs : Dev.orderStaff d epoch expiry = some d') : d'.mem = d.mem := by
  unfold Dev.orderStaff at hs
  repeat' split at hs
  all_goals cases hs
  all_goals with_reducible rfl

@[simp] theorem Dev.laneTimeout_mem (d : Dev) (l : Nat) (lane : Nat) : (Dev.laneTimeout d l lane).mem = d.mem := by
  unfold Dev.laneTimeout
  simp only [mem_ite, ite_self, Dev.notBefore_mem, Dev.updLink_mem]

@[simp] theorem Dev.laneTrained_mem (d : Dev) (l : Nat) (lane : Nat) : (Dev.laneTrained d l lane).mem = d.mem := by
  unfold Dev.laneTrained
  simp only [mem_ite, ite_self, Dev.updLink_mem]

@[simp] theorem Dev.acked_mem (d : Dev) (l : Nat) (lack : Nat) : (Dev.acked d l lack).mem = d.mem := by
  unfold Dev.acked
  simp only [Dev.sendAll_mem, Dev.updLink_mem]

@[simp] theorem Dev.resend_mem (d : Dev) (l lane : Nat) (xs : List TxFlit) : (Dev.resend d l lane xs).mem = d.mem := by
  induction xs generalizing d with
  | nil => rfl
  | cons x r ih => simp [Dev.resend, ih]

@[simp] theorem Dev.replayAll_mem (d : Dev) (l : Nat) (lane : Nat) : (Dev.replayAll d l lane).mem = d.mem := by
  unfold Dev.replayAll
  simp only [Dev.resend_mem, Dev.updLink_mem]

@[simp] theorem Dev.recoverLink_mem (d : Dev) (l : Nat) : (Dev.recoverLink d l).mem = d.mem := by
  unfold Dev.recoverLink
  simp only [Dev.emit_mem, Dev.event_mem, Dev.updLink_mem]

@[simp] theorem Dev.exhausted_mem (d : Dev) (l : Nat) (lanes : List Nat) : (Dev.exhausted d l lanes).mem = d.mem := by
  unfold Dev.exhausted
  simp only [Dev.recoverLink_mem, Dev.updLink_mem]

@[simp] theorem Dev.retry_mem (d : Dev) (l : Nat) (lane : Nat) : (Dev.retry d l lane).mem = d.mem := by
  unfold Dev.retry
  dsimp only
  repeat' split
  all_goals first | with_reducible rfl | simp only [Dev.exhausted_mem, Dev.replayAll_mem]

@[simp] theorem Dev.nakTaken_mem (d : Dev) (l : Nat) (lane : Nat) (lack : Nat) : (Dev.nakTaken d l lane lack).mem = d.mem := by
  unfold Dev.nakTaken
  simp only [Dev.acked_mem, Dev.retry_mem]

@[simp] theorem Dev.ackTimeout_mem (d : Dev) (l : Nat) (lane : Nat) : (Dev.ackTimeout d l lane).mem = d.mem := by
  unfold Dev.ackTimeout
  simp only [mem_ite, ite_self, Dev.notBefore_mem, Dev.retry_mem]

@[simp] theorem Dev.aligned_mem (d : Dev) (l : Nat) : (Dev.aligned d l).mem = d.mem := by
  unfold Dev.aligned
  first | with_reducible rfl | (simp only [foldl_mem, mem_ite, ite_self, Dev.emit_mem, Dev.sendAll_mem, Dev.updLink_mem]; done) | (refine foldl_mem _ (fun x y => ?_) _ _; (try dsimp only); (repeat' split) <;> first | with_reducible rfl | (simp only [foldl_mem, mem_ite, ite_self, Dev.emit_mem, Dev.sendAll_mem, Dev.updLink_mem]; done)) | ((try dsimp only); (repeat' split) <;> first | with_reducible rfl | (simp only [foldl_mem, mem_ite, ite_self, Dev.emit_mem, Dev.sendAll_mem, Dev.updLink_mem]; done) | (simp_all only [foldl_mem, mem_ite, ite_self, Dev.emit_mem, Dev.sendAll_mem, Dev.updLink_mem]; done) | (simp_all [foldl_mem, mem_ite]; done))

@[simp] theorem Dev.retireLane_mem (d : Dev) (l : Nat) (lane : Nat) (from_ : Nat) : (Dev.retireLane d l lane from_).mem = d.mem := by
  unfold Dev.retireLane
  simp only [mem_ite, ite_self, Dev.event_mem, Dev.linkLost_mem, Dev.replayAll_mem, Dev.updLink_mem]

@[simp] theorem Dev.laneOver_mem (d : Dev) (l : Nat) (lane : Nat) : (Dev.laneOver d l lane).mem = d.mem := by
  unfold Dev.laneOver
  simp only [mem_ite, ite_self, Dev.emit_mem, Dev.event_mem, Dev.retireLane_mem, Dev.updLink_mem]

@[simp] theorem Dev.flitFailed_mem (d : Dev) (l : Nat) (lane : Nat) : (Dev.flitFailed d l lane).mem = d.mem := by
  unfold Dev.flitFailed
  simp only [Dev.emit_mem, Dev.updLink_mem]

@[simp] theorem Dev.flitTaken_mem (d : Dev) (l : Nat) (f : Flit) : (Dev.flitTaken d l f).mem = d.mem := by
  unfold Dev.flitTaken
  simp only [Dev.updLink_mem]

@[simp] theorem Dev.flitReceive_mem (d : Dev) (l : Nat) (lane : Nat) (ok : Bool) (lseq : Nat) (lack : Nat) (nak : Bool) (f : Flit) : (Dev.flitReceive d l lane ok lseq lack nak f).mem = d.mem := by
  unfold Dev.flitReceive
  simp only [mem_ite, ite_self, Dev.acked_mem, Dev.flitFailed_mem, Dev.flitTaken_mem, Dev.nakTaken_mem]

@[simp] theorem Dev.routeNext_mem (d : Dev) (l : Nat) : (Dev.routeNext d l).mem = d.mem := by
  unfold Dev.routeNext
  repeat' split
  all_goals first | with_reducible rfl | simp only [Dev.emit_mem, Dev.junction_mem]

@[simp] theorem Dev.creditTaken_mem (d : Dev) (l : Nat) (ret : List (BitVec 8)) : (Dev.creditTaken d l ret).mem = d.mem := by
  unfold Dev.creditTaken
  simp only [mem_ite, ite_self, Dev.sendAll_mem, Dev.updLink_mem]

@[simp] theorem Dev.recoverTaken_mem (d : Dev) (l : Nat) (lack : Nat) : (Dev.recoverTaken d l lack).mem = d.mem := by
  unfold Dev.recoverTaken
  simp only [mem_ite, ite_self, Dev.recoverLink_mem, Dev.updLink_mem]

@[simp] theorem Dev.echoed_mem (d : Dev) (l : Nat) (t : Nat) (hold : Nat) : (Dev.echoed d l t hold).mem = d.mem := by
  unfold Dev.echoed
  simp only [mem_ite, ite_self, Dev.updLink_mem]

@[simp] theorem Dev.echo_mem (d : Dev) (l : Nat) (answer : Option (Nat × Nat)) : (Dev.echo d l answer).mem = d.mem := by
  unfold Dev.echo
  repeat' split
  all_goals first | with_reducible rfl | simp only [Dev.emit_mem]

@[simp] theorem Dev.signalUp_mem (d : Dev) (l : Nat) : (Dev.signalUp d l).mem = d.mem := by
  unfold Dev.signalUp
  simp only [mem_ite, ite_self, Dev.updLink_mem]

@[simp] theorem Dev.signalDown_mem (d : Dev) (l : Nat) : (Dev.signalDown d l).mem = d.mem := by
  unfold Dev.signalDown
  simp only [mem_ite, ite_self, Dev.linkLost_mem, Dev.updLink_mem]

@[simp] theorem Dev.whenAwake_mem (d : Dev) (pas : List Nat) (f : Dev → Dev) (hf : ∀ x, (f x).mem = x.mem) : (Dev.whenAwake d pas f).mem = d.mem := by
  unfold Dev.whenAwake
  first | with_reducible rfl | (simp only [foldl_mem, mem_ite, ite_self, Dev.wakeAll_mem]; done) | (refine foldl_mem _ (fun x y => ?_) _ _; (try dsimp only); (repeat' split) <;> first | with_reducible rfl | (simp only [foldl_mem, mem_ite, ite_self, Dev.wakeAll_mem]; done)) | ((try dsimp only); (repeat' split) <;> first | with_reducible rfl | (simp only [foldl_mem, mem_ite, ite_self, Dev.wakeAll_mem]; done) | (simp_all only [foldl_mem, mem_ite, ite_self, Dev.wakeAll_mem]; done) | (simp_all [foldl_mem, mem_ite]; done))

@[simp] theorem Dev.descriptorStart_mem (d : Dev) (e : Nat) (c : Nat) : (Dev.descriptorStart d e c).mem = d.mem := by
  unfold Dev.descriptorStart
  first | with_reducible rfl | (simp only [foldl_mem, mem_ite, ite_self, Dev.descStart_mem, Dev.whenAwake_mem]; done) | (refine foldl_mem _ (fun x y => ?_) _ _; (try dsimp only); (repeat' split) <;> first | with_reducible rfl | (simp only [foldl_mem, mem_ite, ite_self, Dev.descStart_mem, Dev.whenAwake_mem]; done)) | ((try dsimp only); (repeat' split) <;> first | with_reducible rfl | (simp only [foldl_mem, mem_ite, ite_self, Dev.descStart_mem, Dev.whenAwake_mem]; done) | (simp_all only [foldl_mem, mem_ite, ite_self, Dev.descStart_mem, Dev.whenAwake_mem]; done) | (simp_all [foldl_mem, mem_ite]; done))

@[simp] theorem Dev.respond_mem (d : Dev) (f : Flit) (status : Nat) (bs : List Byte) : (Dev.respond d f status bs).mem = d.mem := by
  unfold Dev.respond
  simp only [Dev.sendFlit_mem]

@[simp] theorem Dev.serveRead_mem (d : Dev) (f : Flit) : (Dev.serveRead d f).mem = d.mem := by
  unfold Dev.serveRead
  dsimp only
  repeat' split
  all_goals first | with_reducible rfl | simp only [Dev.poisonEvent_mem, Dev.respond_mem]

theorem Dev.serveRequest_mem (d : Dev) (kind : BitVec 4) (g : Dev → Flit → Dev) (hg : ∀ x y, (g x y).mem = x.mem) :
    (Dev.serveRequest d kind g).mem = d.mem := by
  unfold Dev.serveRequest
  split
  · rfl
  · next l rx f d1 h =>
    have h1 : d1.mem = d.mem := by rw [← Dev.takeInbox_mem d (fun f => f.kind == kind), h]
    generalize d.asleep _ = ks
    cases ks with
    | nil => dsimp only; split <;> simp [hg, h1]
    | cons a r => simp

@[simp] theorem Dev.whenUp_mem (d : Dev) (f : Dev → Dev) (hf : ∀ x, (f x).mem = x.mem) : (Dev.whenUp d f).mem = d.mem := by
  unfold Dev.whenUp
  first | with_reducible rfl | (simp only [foldl_mem, mem_ite, ite_self]; done) | (refine foldl_mem _ (fun x y => ?_) _ _; (try dsimp only); (repeat' split) <;> first | with_reducible rfl | (simp only [foldl_mem, mem_ite, ite_self]; done)) | ((try dsimp only); (repeat' split) <;> first | with_reducible rfl | (simp only [foldl_mem, mem_ite, ite_self]; done) | (simp_all only [foldl_mem, mem_ite, ite_self]; done) | (simp_all [foldl_mem, mem_ite]; done))

@[simp] theorem Dev.hostRequest_mem (d : Dev) (p : Nat) (qpn : Nat) (ecn : Bool) (f : Dev → Dev) (hf : ∀ x, (f x).mem = x.mem) : (Dev.hostRequest d p qpn ecn f).mem = d.mem := by
  unfold Dev.hostRequest
  dsimp only
  repeat' split
  all_goals simp_all only [Dev.emit_mem]

@[simp] theorem Dev.slow_mem (d : Dev) (p : Nat) (qpn : Nat) : (Dev.slow d p qpn).mem = d.mem := by
  unfold Dev.slow
  with_reducible rfl

@[simp] theorem Dev.hostDown_mem (d : Dev) (p : Nat) : (Dev.hostDown d p).mem = d.mem := by
  unfold Dev.hostDown
  simp only [mem_ite, ite_self, Dev.event_mem, Dev.updPort_mem]

@[simp] theorem Dev.bootLinkLate_mem (d : Dev) : (Dev.bootLinkLate d).mem = d.mem := by
  unfold Dev.bootLinkLate
  repeat' split
  all_goals first | with_reducible rfl | simp only [Dev.notBefore_mem, Dev.updPort_mem]

@[simp] theorem Dev.cmRequest_mem (d : Dev) (p : Nat) (rqpn : Nat) (rc : Bool) (qp0 : Bool) (mtu : Nat) : (Dev.cmRequest d p rqpn rc qp0 mtu).mem = d.mem := by
  unfold Dev.cmRequest
  repeat' split
  all_goals first | with_reducible rfl | simp only [Dev.emit_mem]

@[simp] theorem Dev.retireOp_mem (d : Dev) (n : Nat) (q : QEntry) (o : EngOp) : (Dev.retireOp d n q o).mem = d.mem := by
  unfold Dev.retireOp
  simp only [Dev.raiseWork_mem, Dev.updStn_mem]

@[simp] theorem Dev.rowDone_mem (d : Dev) (n : Nat) (q : QEntry) (o : EngOp) (r : RowRes) : (Dev.rowDone d n q o r).mem = d.mem := by
  unfold Dev.rowDone
  simp only [mem_ite, ite_self, Dev.retireOp_mem, Dev.updStn_mem]

@[simp] theorem Dev.rowCommit_mem (d : Dev) (n : Nat) (mismatch : Bool) : (Dev.rowCommit d n mismatch).mem = d.mem := by
  unfold Dev.rowCommit
  dsimp only
  repeat' split
  all_goals first | with_reducible rfl | simp only [Dev.event_mem, Dev.raiseMchk_mem, Dev.rowDone_mem, Dev.setStn_mem]

@[simp] theorem Dev.vecRun_mem (d : Dev) (h : Hart) (n : Nat) (w : Nat) (sto : Bool) (body : Thread → VRes) : (Dev.vecRun d h n w sto body).mem = d.mem := by
  unfold Dev.vecRun
  first | with_reducible rfl | (simp only [foldl_mem, mem_ite, ite_self, Dev.block_mem, Dev.finish_mem, Dev.updStn_mem, Dev.vq_mem]; done) | (refine foldl_mem _ (fun x y => ?_) _ _; (try dsimp only); (repeat' split) <;> first | with_reducible rfl | (simp only [foldl_mem, mem_ite, ite_self, Dev.block_mem, Dev.finish_mem, Dev.updStn_mem, Dev.vq_mem]; done)) | ((try dsimp only); (repeat' split) <;> first | with_reducible rfl | (simp only [foldl_mem, mem_ite, ite_self, Dev.block_mem, Dev.finish_mem, Dev.updStn_mem, Dev.vq_mem]; done) | (simp_all only [foldl_mem, mem_ite, ite_self, Dev.block_mem, Dev.finish_mem, Dev.updStn_mem, Dev.vq_mem]; done) | (simp_all [foldl_mem, mem_ite]; done))

@[simp] theorem Dev.vec_mem (d : Dev) (h : Hart) (op fn : Nat) (f : VF) (ok : Bool) (w : Nat) (fits : Thread → Bool) (body : Thread → VRes) : (Dev.vec d h op fn f ok w fits body).mem = d.mem := by
  unfold Dev.vec
  refine Dev.issue_mem _ _ _ _ (fun x => ?_)
  (try dsimp only)
  (repeat' split) <;> first | with_reducible rfl | (simp only [Dev.finish_mem, Dev.illegal_mem, Dev.vecRun_mem]; done) | simp_all

@[simp] theorem Dev.vecComplete_mem (d : Dev) (n : Fin 128) : (Dev.vecComplete d n).mem = d.mem := by
  unfold Dev.vecComplete
  first | with_reducible rfl | (simp only [foldl_mem, mem_ite, ite_self, Dev.raiseArith_mem, Dev.updStn_mem, Dev.updThr_mem, Dev.vq_mem]; done) | (refine foldl_mem _ (fun x y => ?_) _ _; (try dsimp only); (repeat' split) <;> first | with_reducible rfl | (simp only [foldl_mem, mem_ite, ite_self, Dev.raiseArith_mem, Dev.updStn_mem, Dev.updThr_mem, Dev.vq_mem]; done)) | ((try dsimp only); (repeat' split) <;> first | with_reducible rfl | (simp only [foldl_mem, mem_ite, ite_self, Dev.raiseArith_mem, Dev.updStn_mem, Dev.updThr_mem, Dev.vq_mem]; done) | (simp_all only [foldl_mem, mem_ite, ite_self, Dev.raiseArith_mem, Dev.updStn_mem, Dev.updThr_mem, Dev.vq_mem]; done) | (simp_all [foldl_mem, mem_ite]; done))

@[simp] theorem Dev.qmacOp_mem (d : Dev) (h : Hart) (code : Nat) (neg : Bool) (rd rs1 rs2 : Fin 32) (qf : BitVec 2) : (Dev.qmacOp d h code neg rd rs1 rs2 qf).mem = d.mem := by
  unfold Dev.qmacOp
  refine Dev.issue_mem _ _ _ _ (fun x => ?_)
  (try dsimp only)
  (repeat' split) <;> first | with_reducible rfl | (simp only [Dev.finish_mem, Dev.illegal_mem]; done) | simp_all

@[simp] theorem Dev.qaddOp_mem (d : Dev) (h : Hart) (code : Nat) (neg : Bool) (rd : Fin 32) (rs1 : Fin 32) (rs2 : Fin 32) (qf : BitVec 2) : (Dev.qaddOp d h code neg rd rs1 rs2 qf).mem = d.mem := by
  unfold Dev.qaddOp
  refine Dev.issue_mem _ _ _ _ (fun x => ?_)
  (try dsimp only)
  (repeat' split) <;> first | with_reducible rfl | (simp only [Dev.finish_mem, Dev.illegal_mem]; done) | simp_all

@[simp] theorem Dev.vint_mem (d : Dev) (h : Hart) (fn : Nat) (f : VF) (g : Nat → Nat → Nat → Nat) : (Dev.vint d h fn f g).mem = d.mem := by
  unfold Dev.vint
  simp only [Dev.vec_mem]

@[simp] theorem Dev.vq_mem (d : Dev) (h : Hart) (fn : Nat) (f : VF) (disc : Bool) (g : Int → Int → Int) : (Dev.vq d h fn f disc g).mem = d.mem := by
  unfold Dev.vq
  simp only [Dev.vec_mem]

@[simp] theorem Dev.vfp_mem (d : Dev) (h : Hart) (fn : Nat) (f : VF) (unary : Bool) (rounds : Bool) (g : Fmt → Rnd → Nat → Nat → Nat → Nat × Ev) : (Dev.vfp d h fn f unary rounds g).mem = d.mem := by
  unfold Dev.vfp
  simp only [Dev.vec_mem]

@[simp] theorem Dev.vapprox_mem (d : Dev) (h : Hart) (fn : Nat) (f : VF) (g : Nat → Nat → Nat × Ev) : (Dev.vapprox d h fn f g).mem = d.mem := by
  unfold Dev.vapprox
  simp only [Dev.vec_mem]

@[simp] theorem Dev.vperm_mem (d : Dev) (h : Hart) (fn : Nat) (f : VF) (ok : Bool) (body : Nat → Thread → VRes) : (Dev.vperm d h fn f ok body).mem = d.mem := by
  unfold Dev.vperm
  simp only [Dev.vec_mem]

@[simp] theorem Dev.vredmm_mem (d : Dev) (h : Hart) (fn : Nat) (f : VF) (op : FV → FV → FV × Ev) (negIdent : Bool) : (Dev.vredmm d h fn f op negIdent).mem = d.mem := by
  unfold Dev.vredmm
  simp only [Dev.vec_mem]

@[simp] theorem Dev.vtop_mem (d : Dev) (h : Hart) (fn : Nat) (f : VF) (merge : Bool) : (Dev.vtop d h fn f merge).mem = d.mem := by
  unfold Dev.vtop
  simp only [Dev.vec_mem]

@[simp] theorem Dev.widePoison_mem (d : Dev) (n : Nat) (t : Fin 4) (off : Nat) (ws : List Wide) (c : Nat) :
    (Dev.widePoison d n t off ws c).mem = d.mem := by
  induction ws generalizing d c with
  | nil => rfl
  | cons w r ih => simp only [Dev.widePoison, ih]; split <;> simp

@[simp] theorem Dev.drainRow_mem (d : Dev) (n : Nat) : (Dev.drainRow d n).mem = d.mem := by
  unfold Dev.drainRow
  dsimp only
  repeat' split
  all_goals first | with_reducible rfl | simp only [Dev.setStn_mem, Dev.widePoison_mem]

@[simp] theorem Dev.drainRetire_mem (d : Dev) (n : Nat) : (Dev.drainRetire d n).mem = d.mem := by
  unfold Dev.drainRetire
  dsimp only
  repeat' split
  all_goals first | with_reducible rfl | simp only [Dev.raiseWork_mem, Dev.updStn_mem]

@[simp] theorem Dev.seqRead_mem (d : Dev) (h : Hart) (ring align va n : Nat) : (Dev.seqRead d h ring align va n).1.mem = d.mem := by
  unfold Dev.seqRead
  split
  · rfl
  · dsimp only
    have hk := Dev.checkAccs_mem h ring .load .bulk (pieces 0 8 va n) d []
    generalize Dev.checkAccs h ring .load .bulk (pieces 0 8 va n) d [] = y at hk
    obtain ⟨d1, r⟩ := y
    cases r <;> dsimp only
    · exact hk
    · split
      · exact hk
      · exact hk

@[simp] theorem Dev.blkReadFail_mem (d : Dev) (n : Nat) (q : QEntry) (addr : Word) (by_ : Raiser) (r : SeqRead) : (Dev.blkReadFail d n q addr by_ r).mem = d.mem := by
  unfold Dev.blkReadFail
  repeat' split
  all_goals first | with_reducible rfl | simp only [Dev.poisonEvent_mem, Dev.updStn_mem, Dev.wakeAll_mem]

@[simp] theorem Dev.blkStart_mem (d : Dev) (n : Fin 128) : (Dev.blkStart d n).mem = d.mem := by
  unfold Dev.blkStart
  dsimp only
  split
  · rfl
  · split
    · rfl
    · next q addr by_ hq =>
      have h1 := Dev.seqRead_mem d (blkHart n by_) by_.ring 16 addr.toNat 16
      split
      · next d1 hd e1 =>
        rw [e1] at h1
        split
        · simpa using h1
        · have h2 := Dev.seqRead_mem d1 (blkHart n by_) by_.ring 16 (addr + 16).toNat (32 * fld (natLE hd) 15 8 + 16 * fld (natLE hd) 31 16)
          split
          · next d2 bs e2 => rw [e2] at h2; simpa using h2.trans h1
          · next d2 r _ e2 => rw [e2] at h2; simpa using h2.trans h1
      · next d1 r _ e1 => rw [e1] at h1; simpa using h1

@[simp] theorem Dev.blkRaise_mem (d : Dev) (n : Nat) (t : Fin 4) (b : Blk) : (Dev.blkRaise d n t b).mem = d.mem := by
  unfold Dev.blkRaise
  first | with_reducible rfl | (simp only [foldl_mem, mem_ite, ite_self, Dev.raiseArith_mem, Dev.raiseMchk_mem, Dev.raiseMeCmd_mem]; done) | (refine foldl_mem _ (fun x y => ?_) _ _; (try dsimp only); (repeat' split) <;> first | with_reducible rfl | (simp only [foldl_mem, mem_ite, ite_self, Dev.raiseArith_mem, Dev.raiseMchk_mem, Dev.raiseMeCmd_mem]; done)) | ((try dsimp only); (repeat' split) <;> first | with_reducible rfl | (simp only [foldl_mem, mem_ite, ite_self, Dev.raiseArith_mem, Dev.raiseMchk_mem, Dev.raiseMeCmd_mem]; done) | (simp_all only [foldl_mem, mem_ite, ite_self, Dev.raiseArith_mem, Dev.raiseMchk_mem, Dev.raiseMeCmd_mem]; done) | (simp_all [foldl_mem, mem_ite]; done))

@[simp] theorem Dev.blkEnd_mem (d : Dev) (n : Fin 128) : (Dev.blkEnd d n).mem = d.mem := by
  unfold Dev.blkEnd
  dsimp only
  repeat' split
  all_goals first | with_reducible rfl | simp only [Dev.blkRaise_mem, Dev.setIpend_mem, Dev.updStn_mem]

@[simp] theorem Dev.stepHalt_mem (d : Dev) : (Dev.stepHalt d).mem = d.mem := by
  unfold Dev.stepHalt
  simp only [mem_ite, ite_self, Dev.haltRequest_mem]

theorem Dev.orderUnbind_mem (d : Dev) (d' : Dev) (hs : Dev.orderUnbind d = some d') : d'.mem = d.mem := by
  unfold Dev.orderUnbind at hs
  repeat' split at hs
  all_goals cases hs
  all_goals first | with_reducible rfl | simp only [Dev.stepHalt_mem]

theorem Dev.orderSeal_mem (d : Dev) (d' : Dev) (hs : Dev.orderSeal d = some d') : d'.mem = d.mem := by
  unfold Dev.orderSeal at hs
  repeat' split at hs
  all_goals cases hs
  all_goals first | with_reducible rfl | simp only [Dev.snapshot_mem]

@[simp] theorem Dev.retireNow_mem (d : Dev) (n : Nat) (when_ : Nat) : (Dev.retireNow d n when_).mem = d.mem := by
  unfold Dev.retireNow
  simp only [Dev.event_mem, Dev.stopChans_mem, Dev.updStn_mem]

theorem Dev.orderRetire_mem (d : Dev) (n : Nat) (d' : Dev) (hs : Dev.orderRetire d n = some d') : d'.mem = d.mem := by
  unfold Dev.orderRetire at hs
  repeat' split at hs
  all_goals cases hs
  all_goals first | with_reducible rfl | simp only [Dev.retireNow_mem]

@[simp] theorem Dev.orderDebug_mem (d : Dev) (env : List Byte) : (Dev.orderDebug d env).mem = d.mem := by
  unfold Dev.orderDebug
  with_reducible rfl

@[simp] theorem Dev.stepClose_mem (d : Dev) : (Dev.stepClose d).mem = d.mem := by
  unfold Dev.stepClose
  simp only [mem_ite, ite_self, Dev.snapshot_mem]

@[simp] theorem Dev.stepDrain_mem (d : Dev) : (Dev.stepDrain d).mem = d.mem := by
  unfold Dev.stepDrain
  with_reducible rfl

@[simp] theorem Dev.clearStations_mem (d : Dev) (on : Nat → Bool) : (Dev.clearStations d on).mem = d.mem := by
  unfold Dev.clearStations
  refine foldl_mem _ (fun x y => ?_) _ _
  repeat' split
  all_goals first | with_reducible rfl | simp only [Dev.updStn_mem]

@[simp] theorem Dev.startStations_mem (d : Dev) (on : Nat → Bool) : (Dev.startStations d on).mem = d.mem := by
  unfold Dev.startStations
  refine foldl_mem _ (fun x y => ?_) _ _
  repeat' split
  all_goals first | with_reducible rfl | simp only [Dev.updStn_mem]

@[simp] theorem Dev.loadWindow_mem (d : Dev) (e : List Byte) : (Dev.loadWindow d e).mem = d.mem := by
  unfold Dev.loadWindow
  simp only [Dev.updPort_mem]

@[simp] theorem Dev.stepOpen_mem (d : Dev) (x : NewBind) : (Dev.stepOpen d x).mem = d.mem := by
  unfold Dev.stepOpen
  first | with_reducible rfl | (simp only [foldl_mem, mem_ite, ite_self, Dev.loadWindow_mem, Dev.updSq_mem]; done) | (refine foldl_mem _ (fun x y => ?_) _ _; (try dsimp only); (repeat' split) <;> first | with_reducible rfl | (simp only [foldl_mem, mem_ite, ite_self, Dev.loadWindow_mem, Dev.updSq_mem]; done)) | ((try dsimp only); (repeat' split) <;> first | with_reducible rfl | (simp only [foldl_mem, mem_ite, ite_self, Dev.loadWindow_mem, Dev.updSq_mem]; done) | (simp_all only [foldl_mem, mem_ite, ite_self, Dev.loadWindow_mem, Dev.updSq_mem]; done) | (simp_all [foldl_mem, mem_ite]; done))

@[simp] theorem Dev.toStep_mem (d : Dev) (n : Nat) : (Dev.toStep d n).mem = d.mem := by
  unfold Dev.toStep
  with_reducible rfl

@[simp] theorem Dev.orElse_mem (d : Dev) (r : Option Dev) (hr : ∀ x, r = some x → x.mem = d.mem) : (Dev.orElse d r).1.mem = d.mem := by
  unfold Dev.orElse
  first | with_reducible rfl | (simp only [foldl_mem, mem_ite, ite_self]; done) | (refine foldl_mem _ (fun x y => ?_) _ _; (try dsimp only); (repeat' split) <;> first | with_reducible rfl | (simp only [foldl_mem, mem_ite, ite_self]; done)) | ((try dsimp only); (repeat' split) <;> first | with_reducible rfl | (simp only [foldl_mem, mem_ite, ite_self]; done) | (simp_all only [foldl_mem, mem_ite, ite_self]; done) | (simp_all [foldl_mem, mem_ite]; done))

@[simp] theorem Dev.orderAnswer_mem (d : Dev) (o : OrdFrom) (result : Nat) (code : Nat) (seq : Nat) : (Dev.orderAnswer d o result code seq).mem = d.mem := by
  unfold Dev.orderAnswer
  repeat' split
  all_goals first | with_reducible rfl | simp only [Dev.emit_mem]

@[simp] theorem Dev.orderReturn_mem (d : Dev) (oid : Nat) (result : Nat) : (Dev.orderReturn d oid result).mem = d.mem := by
  unfold Dev.orderReturn
  repeat' split
  all_goals first | with_reducible rfl | simp only [Dev.orderAnswer_mem]

@[simp] theorem Dev.forwardLate_mem (d : Dev) : (Dev.forwardLate d).mem = d.mem := by
  unfold Dev.forwardLate
  repeat' split
  all_goals first | with_reducible rfl | simp only [Dev.notBefore_mem, Dev.orderAnswer_mem]

@[simp] theorem Dev.orderDone_mem (d : Dev) (code : Nat) (r : Dev × Nat) (hr : r.1.mem = d.mem) : (Dev.orderDone d code r).mem = d.mem := by
  unfold Dev.orderDone
  first | with_reducible rfl | (simp only [foldl_mem, mem_ite, ite_self, Dev.emit_mem]; done) | (refine foldl_mem _ (fun x y => ?_) _ _; (try dsimp only); (repeat' split) <;> first | with_reducible rfl | (simp only [foldl_mem, mem_ite, ite_self, Dev.emit_mem]; done)) | ((try dsimp only); (repeat' split) <;> first | with_reducible rfl | (simp only [foldl_mem, mem_ite, ite_self, Dev.emit_mem]; done) | (simp_all only [foldl_mem, mem_ite, ite_self, Dev.emit_mem]; done) | (simp_all [foldl_mem, mem_ite]; done))

@[simp] theorem Dev.spdmServe_mem (d : Dev) (r : SpdmReq) : (Dev.spdmServe d r).mem = d.mem := by
  unfold Dev.spdmServe
  simp only [Dev.emit_mem]

@[simp] theorem Dev.enterLoop_mem (d : Dev) (h : Hart) (n : Nat) (len : Nat) (tail : Word) : (Dev.enterLoop d h n len tail).mem = d.mem := by
  unfold Dev.enterLoop
  dsimp only
  repeat' split
  all_goals first | with_reducible rfl | simp only [Dev.exc_mem, Dev.finish_mem, Dev.install_mem, Dev.transfer_mem]

@[simp] theorem Dev.dictStore_mem (d : Dev) (idx : Nat) (sub : Nat) (bs : List Byte) : (Dev.dictStore d idx sub bs).mem = d.mem := by
  unfold Dev.dictStore
  simp only [mem_ite, ite_self, Dev.spdmServe_mem]

@[simp] theorem Dev.respondTo_mem (d : Dev) (p : Peer) (m : DMsg) (typ : Nat) (flags : Nat) (arg : Nat) (data : List Byte) : (Dev.respondTo d p m typ flags arg data).mem = d.mem := by
  unfold Dev.respondTo
  simp only [Dev.emit_mem]

@[simp] theorem Dev.abortTo_mem (d : Dev) (p : Peer) (m : DMsg) (code : Nat) : (Dev.abortTo d p m code).mem = d.mem := by
  unfold Dev.abortTo
  simp only [Dev.respondTo_mem]

@[simp] theorem Dev.busyTo_mem (d : Dev) (p : Peer) (m : DMsg) : (Dev.busyTo d p m).mem = d.mem := by
  unfold Dev.busyTo
  simp only [Dev.abortTo_mem]

theorem Dev.mirrorRead_mem (d : Dev) (ring : Nat) (m : Mirror) (p : Dev × Word) (hs : d.mirrorRead ring m = .ok p) : p.1.mem = d.mem := by
  unfold Dev.mirrorRead at hs
  cases m with
  | feat n => dsimp only at hs; cases hs; rfl
  | reg u off =>
    dsimp only at hs
    split at hs
    · cases hs; simp
    · cases hs

theorem Dev.dictRead_mem (d : Dev) (a : Agent) (idx sub : Nat) (p : Dev × List Byte × Bool) (hs : d.dictRead a idx sub = .ok p) : p.1.mem = d.mem := by
  unfold Dev.dictRead at hs
  split at hs
  · cases hs
  · cases hs; rfl
  · split at hs
    · cases hs
    · next d1 v h1 => cases hs; exact Dev.mirrorRead_mem _ _ _ _ h1
  · split at hs
    · cases hs
    · cases hs; rfl

@[simp] theorem Dev.readInit_mem (d : Dev) (a : Agent) (p : Peer) (m : DMsg) : (Dev.readInit d a p m).mem = d.mem := by
  unfold Dev.readInit
  split
  · simp
  · next d1 bs b h1 =>
    have := Dev.dictRead_mem _ _ _ _ _ h1
    dsimp only at this ⊢
    split <;> simp [this]

@[simp] theorem Dev.writeInit_mem (d : Dev) (a : Agent) (p : Peer) (m : DMsg) : (Dev.writeInit d a p m).mem = d.mem := by
  unfold Dev.writeInit
  dsimp only
  repeat' split
  all_goals first | with_reducible rfl | simp only [Dev.abortTo_mem, Dev.busyTo_mem, Dev.respondTo_mem]

@[simp] theorem Dev.xferAbort_mem (d : Dev) (p : Peer) (m : DMsg) (code : Nat) : (Dev.xferAbort d p m code).mem = d.mem := by
  unfold Dev.xferAbort
  simp only [Dev.abortTo_mem]

@[simp] theorem Dev.readServe_mem (d : Dev) (a : Agent) (p : Peer) (m : DMsg) : (Dev.readServe d a p m).mem = d.mem := by
  unfold Dev.readServe
  split
  · simp
  · next d1 bs b h1 =>
    have := Dev.dictRead_mem _ _ _ _ _ h1
    split <;> simp_all

@[simp] theorem Dev.abortArrives_mem (d : Dev) (p : Peer) (m : DMsg) : (Dev.abortArrives d p m).mem = d.mem := by
  unfold Dev.abortArrives
  repeat' split
  all_goals first | with_reducible rfl | simp only [Dev.abortTo_mem, Dev.emit_mem]

@[simp] theorem Dev.xferLate_mem (d : Dev) : (Dev.xferLate d).mem = d.mem := by
  unfold Dev.xferLate
  generalize d.dict.stale = y
  cases y <;> simp

@[simp] theorem Dev.queueLate_mem (d : Dev) : (Dev.queueLate d).mem = d.mem := by
  unfold Dev.queueLate
  repeat' split
  all_goals first | with_reducible rfl | simp only [Dev.busyTo_mem, Dev.notBefore_mem]

@[simp] theorem Dev.sample_mem (d : Dev) (pin : Nat) (iin : Nat) (vin : Nat) (tjmax : Nat) (tjstn : Nat) : (Dev.sample d pin iin vin tjmax tjstn).mem = d.mem := by
  unfold Dev.sample
  simp only [mem_ite, ite_self, Dev.notBefore_mem]

@[simp] theorem Dev.loadImm_mem (d : Dev) (h : Hart) (op : Nat) (rd rs1 rs2 : Fin 32) (fn : BitVec 10) (imm : BitVec 32) (f : Word → Word) : (Dev.loadImm d h op rd rs1 rs2 fn imm f).mem = d.mem := by
  unfold Dev.loadImm
  refine Dev.issue_mem _ _ _ _ (fun x => ?_)
  (try dsimp only)
  (repeat' split) <;> first | with_reducible rfl | (simp only [Dev.finish_mem, Dev.illegal_mem]; done) | simp_all

@[simp] theorem Dev.mulOp_mem (d : Dev) (h : Hart) (fn : Nat) (rd rs1 rs2 : Fin 32) (f : Word → Word → Word) : (Dev.mulOp d h fn rd rs1 rs2 f).mem = d.mem := by
  unfold Dev.mulOp
  refine Dev.issue_mem _ _ _ _ (fun x => ?_)
  (try dsimp only)
  (repeat' split) <;> first | with_reducible rfl | (simp only [Dev.finish_mem, Dev.illegal_mem]; done) | simp_all

@[simp] theorem Dev.divOp_mem (d : Dev) (h : Hart) (rd : Fin 32) (rs1 : Fin 32) (rs2 : Fin 32) (f : Word → Word → Word) : (Dev.divOp d h rd rs1 rs2 f).mem = d.mem := by
  unfold Dev.divOp
  refine Dev.issue_mem _ _ _ _ (fun x => ?_)
  (try dsimp only)
  (repeat' split) <;> first | with_reducible rfl | (simp only [Dev.finish_mem, Dev.illegal_mem]; done) | simp_all

@[simp] theorem Dev.mtc_mem (d : Dev) (h : Hart) (rd rs1 : Fin 32) (imm : BitVec 15) : (Dev.mtc d h rd rs1 imm).mem = d.mem := by
  unfold Dev.mtc
  refine Dev.issue_mem _ _ _ _ (fun x => ?_)
  (try dsimp only)
  (repeat' split) <;> first | with_reducible rfl | (simp only [Dev.finish_mem, Dev.illegal_mem, Dev.ownFault_mem, Dev.block_mem, Dev.priv_mem, Dev.updStn_mem]; done) | simp_all

@[simp] theorem Dev.takeGate_mem (d : Dev) (h : Hart) (n : Nat) (T : Nat) : (Dev.takeGate d h n T).mem = d.mem := by
  unfold Dev.takeGate
  simp only [mem_ite, ite_self, Dev.enter_mem, Dev.pass_mem, Dev.updThr_mem]

@[simp] theorem Dev.sys0_mem (d : Dev) (h : Hart) (fn : Nat) (rd rs1 rs2 : Fin 32) (body : Dev → Dev) (hb : ∀ x, (body x).mem = x.mem) : (Dev.sys0 d h fn rd rs1 rs2 body).mem = d.mem := by
  unfold Dev.sys0
  refine Dev.issue_mem _ _ _ _ (fun x => ?_)
  (try dsimp only)
  (repeat' split) <;> first | with_reducible rfl | (simp only [Dev.finish_mem, Dev.illegal_mem]; done) | simp_all

@[simp] theorem Dev.atBoundary_mem (d : Dev) (h : Hart) (f : Dev → Thread → Dev) (hf : ∀ x y, (f x y).mem = x.mem) : (Dev.atBoundary d h f).mem = d.mem := by
  unfold Dev.atBoundary
  first | with_reducible rfl | (simp only [foldl_mem, mem_ite, ite_self]; done) | (refine foldl_mem _ (fun x y => ?_) _ _; (try dsimp only); (repeat' split) <;> first | with_reducible rfl | (simp only [foldl_mem, mem_ite, ite_self]; done)) | ((try dsimp only); (repeat' split) <;> first | with_reducible rfl | (simp only [foldl_mem, mem_ite, ite_self]; done) | (simp_all only [foldl_mem, mem_ite, ite_self]; done) | (simp_all [foldl_mem, mem_ite]; done))

@[simp] theorem Dev.vmove_mem (d : Dev) (h : Hart) (fn : Nat) (f : VF) (body : Nat → Thread → VRes) : (Dev.vmove d h fn f body).mem = d.mem := by
  unfold Dev.vmove
  refine Dev.issue_mem _ _ _ _ (fun x => ?_)
  (try dsimp only)
  (repeat' split) <;> first | with_reducible rfl | (simp only [Dev.finish_mem, Dev.illegal_mem, Dev.vecRun_mem]; done) | simp_all

@[simp] theorem Dev.kop_mem (d : Dev) (h : Hart) (fn : Nat) (f : VF) (unary : Bool) (g : Bool → Bool → Bool) : (Dev.kop d h fn f unary g).mem = d.mem := by
  unfold Dev.kop
  simp only [Dev.vec_mem]

@[simp] theorem Dev.kread_mem (d : Dev) (h : Hart) (fn : Nat) (f : VF) (g : Nat → Nat → Word) : (Dev.kread d h fn f g).mem = d.mem := by
  unfold Dev.kread
  simp only [Dev.vec_mem]

@[simp] theorem Dev.idle_mem (d : Dev) : (Dev.idle d).mem = d.mem := by
  unfold Dev.idle
  with_reducible rfl

end Sys2Proof.Machine
end

