-- ==== Sys2Proof/Laws/MemWf.lean ====
section
/-! SUPPORT. Every operation that stores to the memory outside the stations keeps its canonical form (`MemSys.wf`). -/

set_option linter.unusedSimpArgs false
set_option linter.unusedVariables false

set_option linter.all false
namespace Sys2Proof.Machine
theorem foldl_memWf {α : Type} (f : Dev → α → Dev) (hf : ∀ d a, d.mem.wf = true → (f d a).mem.wf = true) (l : List α) (d : Dev)
    (h : d.mem.wf = true) : (l.foldl f d).mem.wf = true := by
  induction l generalizing d with
  | nil => exact h
  | cons a r ih => exact ih _ (hf _ _ h)
/-- The device a command-block command leaves. -/
def CmdRes.devOf : CmdRes → Dev
  | .wait d => d
  | .issued d => d
  | .stop d _ _ _ => d
theorem MemSys.wf_iff (m : MemSys) : m.wf = true ↔ m.gddr.wf = true ∧ m.far.wf = true ∧ m.bootWin.wf = true := by
  simp [MemSys.wf, and_assoc]

theorem MemSys.farWrite_wf (m : MemSys) (key port pa : Nat) (bs : List Byte) (h : m.wf = true) :
    (m.farWrite key port pa bs).wf = true := by
  rw [MemSys.wf_iff] at *
  exact ⟨h.1, Mem.wf_writeBytes _ _ _ (cellsWf_filter _ _ _ h.2.1), h.2.2⟩

@[simp] theorem Dev.writeLoc_memWf (d : Dev) (e : TlbE) (pa : Nat) (bs : List Byte) (hw : d.mem.wf = true) :
    (Dev.writeLoc d e pa bs).1.mem.wf = true := by
  unfold Dev.writeLoc
  have hw' := (MemSys.wf_iff _).1 hw
  split
  · split
    · exact hw
    · split
      · exact hw
      · exact (MemSys.wf_iff _).2 ⟨Mem.wf_writeBytes _ _ _ hw'.1, hw'.2⟩
  · simpa using hw
  · dsimp only
    split
    · split
      · exact (MemSys.wf_iff _).2 ((MemSys.wf_iff _).1 (MemSys.farWrite_wf _ _ _ _ _ hw))
      · exact hw
    · exact hw
  · exact hw

theorem Dev.fetch_memWf (d d' : Dev) (h : Hart) (len : Nat) (hw : d.mem.wf = true) (hs : d.fetch h len = .ok d') :
    d'.mem.wf = true := by rw [Dev.fetch_mem _ _ _ _ hs, hw]

@[simp] theorem Dev.retireChannel_memWf (d : Dev) (pa : Nat) (hw : d.mem.wf = true) :
    (Dev.retireChannel d pa).mem.wf = true := by
  have hw' := (MemSys.wf_iff _).1 hw
  unfold Dev.retireChannel
  dsimp only
  split
  · exact hw
  · split <;> simp <;> exact (MemSys.wf_iff _).2 ⟨cellsWf_filter _ _ _ hw'.1, hw'.2⟩

@[simp] theorem Dev.crcOutcome_memWf (d : Dev) (pa : Nat) (fails : Nat) (hw : d.mem.wf = true) : (Dev.crcOutcome d pa fails).mem.wf = true := by
  unfold Dev.crcOutcome
  repeat' split
  all_goals first | with_reducible exact hw | simp only [hw, Dev.event_mem, Dev.retireChannel_memWf]

@[simp] theorem Dev.poisonAt_memWf (d : Dev) (pa : Nat) (hw : d.mem.wf = true) : (Dev.poisonAt d pa).mem.wf = true := by
  unfold Dev.poisonAt
  first | exact hw | (simp only [foldl_memWf, hw, CmdRes.devOf, Dev.updStn_mem]; done) | ((try dsimp only); (repeat' split) <;> first | exact hw | (simp only [foldl_memWf, hw, CmdRes.devOf, Dev.updStn_mem]; done) | (simp_all only [foldl_memWf, hw, CmdRes.devOf, Dev.updStn_mem]; done) | (simp_all [foldl_memWf, CmdRes.devOf]; done))

@[simp] theorem Dev.geAccess_memWf (d : Dev) (n : Nat) (k : Nat) (a : Word) (pa : Nat) (e : TlbE) (err : Bool) (hw : d.mem.wf = true) : (Dev.geAccess d n k a pa e err).mem.wf = true := by
  have h1 : ∀ (x : Nat), (if err = true then d.poisonAt x else d).mem.wf = true := by
    intro x; split
    · exact Dev.poisonAt_memWf _ _ hw
    · exact hw
  unfold Dev.geAccess
  extract_lets g off da db
  have ha : da.mem.wf = true := h1 _
  have hb : db.mem.wf = true := h1 _
  clear_value da db off
  generalize scratchPa n off = sa
  split
  · generalize da.readLoc (TlbE.phys 0) sa g.size = r
    obtain ⟨bs, bad⟩ := r
    cases bad <;> dsimp only
    · rw [if_neg Bool.false_ne_true]
      have h3 := Dev.writeLoc_memWf da e pa bs ha
      generalize da.writeLoc e pa bs = y at h3
      obtain ⟨d2, b2⟩ := y
      cases b2 <;> dsimp only
      · rw [if_neg Bool.false_ne_true, Dev.geDid_mem]; exact h3
      · rw [if_pos rfl, Dev.geData_mem]; exact h3
    · rw [if_pos rfl, Dev.geData_mem]; exact ha
  · generalize db.readLoc e pa g.size = r
    obtain ⟨bs, bad⟩ := r
    cases bad <;> dsimp only
    · rw [if_neg Bool.false_ne_true, Dev.geDid_mem, Dev.updStn_mem]; exact hb
    · rw [if_pos rfl, Dev.geData_mem]; exact hb

@[simp] theorem Dev.geElement_memWf (d : Dev) (n : Nat) (err : Bool) (hw : d.mem.wf = true) : (Dev.geElement d n err).mem.wf = true := by
  unfold Dev.geElement
  split
  · exact hw
  · next k hk =>
    dsimp only
    have h1 := Dev.geXlat_mem d n ((d.stn n).stream k).ring .load (((d.stn n).stream k).idxaddr + word (((d.stn n).stream k).pos * (((d.stn n).stream k).iw / 8))).toNat
    split
    · next d1 c he => rw [he] at h1; dsimp only at h1; simp only [Dev.geFail_mem, h1, hw]
    · next d1 ipa ie he =>
      rw [he] at h1
      have hw1 : d1.mem.wf = true := by dsimp only at h1; rw [h1, hw]
      split
      · exact foldl_memWf _ (fun x a h => by simpa only [Dev.updStn_mem] using h) _ _ hw1
      · generalize d1.readLoc _ _ _ = r
        obtain ⟨ibs, ibad⟩ := r
        dsimp only
        generalize (if ((d.stn n).stream k).ix = true then word ((d.stn n).stream k).size else (1 : Word)) = z
        generalize (if ((d.stn n).stream k).scatter = true then AK.store else AK.load) = ak
        split
        · simp only [Dev.geData_mem, hw1]
        · split
          · simp only [Dev.geFail_mem, hw1]
          · generalize ((d.stn n).stream k).dbase + _ * z = a
            have h2 := Dev.geXlat_mem d1 n ((d.stn n).stream k).ring ak a.toNat
            split
            · next d2 c he2 => rw [he2] at h2; dsimp only at h2; simp only [Dev.geFail_mem, h2, hw1]
            · next d2 pa e he2 =>
              rw [he2] at h2
              have hw2 : d2.mem.wf = true := by dsimp only at h2; rw [h2, hw1]
              split
              · exact foldl_memWf _ (fun x a h => by simpa only [Dev.updStn_mem] using h) _ _ hw2
              · exact Dev.geAccess_memWf _ _ _ _ _ _ _ hw2

theorem MemSys.discard_wf (m : MemSys) (siding : Nat → Nat) (draw l : Nat) (h : m.wf = true) :
    (m.discard siding draw l).wf = true := by
  unfold MemSys.discard
  dsimp only
  split
  · exact MemSys.farWrite_wf _ _ _ _ _ h
  · exact h

theorem foldl_discard_wf (siding : Nat → Nat) (draw : Nat) (l : List Nat) (m : MemSys) (h : m.wf = true) :
    (l.foldl (fun m l => m.discard siding draw l) m).wf = true := by
  induction l generalizing m with
  | nil => exact h
  | cons a r ih => exact ih _ (MemSys.discard_wf _ _ _ _ h)

@[simp] theorem Dev.ftInval_memWf (d : Dev) (v : Word) (hw : d.mem.wf = true) : (Dev.ftInval d v).mem.wf = true := by
  unfold Dev.ftInval
  dsimp only
  split
  · exact hw
  · split
    · exact hw
    · exact foldl_discard_wf _ _ _ _ hw

@[simp] theorem Dev.cxlDown_memWf (d : Dev) (p : Nat) (hw : d.mem.wf = true) : (Dev.cxlDown d p).mem.wf = true := by
  unfold Dev.cxlDown
  first | exact hw | (simp only [foldl_memWf, hw, CmdRes.devOf, Dev.event_mem]; done) | ((try dsimp only); (repeat' split) <;> first | exact hw | (simp only [foldl_memWf, hw, CmdRes.devOf, Dev.event_mem]; done) | (simp_all only [foldl_memWf, hw, CmdRes.devOf, Dev.event_mem]; done) | (simp_all [foldl_memWf, CmdRes.devOf]; done))

@[simp] theorem Dev.cxlUp_memWf (d : Dev) (p : Nat) (sw : Bool) (dcd : Bool) (gpf : Bool) (width : Nat) (unsup : Bool) (hw : d.mem.wf = true) : (Dev.cxlUp d p sw dcd gpf width unsup).mem.wf = true := by
  unfold Dev.cxlUp
  first | exact hw | (simp only [foldl_memWf, hw, CmdRes.devOf, Dev.event_mem]; done) | ((try dsimp only); (repeat' split) <;> first | exact hw | (simp only [foldl_memWf, hw, CmdRes.devOf, Dev.event_mem]; done) | (simp_all only [foldl_memWf, hw, CmdRes.devOf, Dev.event_mem]; done) | (simp_all [foldl_memWf, CmdRes.devOf]; done))

@[simp] theorem Dev.ftWrite_memWf (d : Dev) (off : Nat) (v : Word) (hw : d.mem.wf = true) :
    (Dev.ftWrite d off v).mem.wf = true := by
  unfold Dev.ftWrite
  split
  · unfold MemSys.ftSmbaseWrite; dsimp only; split <;> exact hw
  · split
    · simp [hw]
    · exact hw

@[simp] theorem Dev.hostStore_memWf (d : Dev) (off : Nat) (bs : List Byte) (hw : d.mem.wf = true) : (Dev.hostStore d off bs).mem.wf = true := by
  unfold Dev.hostStore
  simp_all

@[simp] theorem Dev.dstByte_memWf (ctx : BitVec 17) (x : Desc) (d : Dev) (p : Nat × Byte) (hw : d.mem.wf = true) : (Dev.dstByte ctx x d p).mem.wf = true := by
  unfold Dev.dstByte
  repeat' split
  all_goals first | with_reducible exact hw | simp only [hw, Dev.hostStore_memWf, Dev.writeLoc_memWf]

@[simp] theorem Dev.moveBytes_memWf (d : Dev) (ctx : BitVec 17) (x : Desc) (data : List Byte) (b : Nat) (n : Nat) (hw : d.mem.wf = true) : (Dev.moveBytes d ctx x data b n).mem.wf = true := by
  unfold Dev.moveBytes
  simp_all [foldl_memWf, CmdRes.devOf]

@[simp] theorem Dev.ctxWrite_memWf (d : Dev) (ctx : BitVec 17) (va : Word) (bs : List Byte) (hw : d.mem.wf = true) :
    (Dev.ctxWrite d ctx va bs).1.mem.wf = true := by
  induction bs generalizing d va with
  | nil => exact hw
  | cons b r ih => unfold Dev.ctxWrite; split <;> simp_all

@[simp] theorem Dev.statusWrite_memWf (d : Dev) (ctx : BitVec 17) (a : Word) (f : Fin_) (flags : List Byte) (hw : d.mem.wf = true) : (Dev.statusWrite d ctx a f flags).1.mem.wf = true := by
  unfold Dev.statusWrite
  dsimp only
  repeat' split
  all_goals first | with_reducible exact hw | simp only [hw, Dev.ctxWrite_memWf]

@[simp] theorem Dev.localEnd_memWf (d : Dev) (y : Chan) (data : List Byte) (reached : Nat) (hw : d.mem.wf = true) : (Dev.localEnd d y data reached).1.mem.wf = true := by
  unfold Dev.localEnd
  dsimp only
  repeat' split
  all_goals first | with_reducible exact hw | simp only [hw, Dev.moveBytes_memWf]

@[simp] theorem Dev.finishDesc_memWf (d : Dev) (e : Nat) (c : Nat) (f : Fin_) (hw : d.mem.wf = true) : (Dev.finishDesc d e c f).mem.wf = true := by
  unfold Dev.finishDesc
  dsimp only
  repeat' split
  all_goals first | with_reducible exact hw | simp only [hw, Dev.chanEnd_mem, Dev.chanIrq_mem, Dev.event_mem, Dev.updChan_mem, Dev.statusWrite_memWf]

@[simp] theorem Dev.transferEnd_memWf (d : Dev) (e : Nat) (c : Nat) (data : List Byte) (reached : Nat) (hw : d.mem.wf = true) : (Dev.transferEnd d e c data reached).mem.wf = true := by
  unfold Dev.transferEnd
  dsimp only
  repeat' split
  all_goals first | with_reducible exact hw | simp only [hw, Dev.finishDesc_memWf, Dev.localEnd_memWf]

@[simp] theorem Dev.shResp_memWf (d : Dev) (e : Nat) (c : Nat) (n : Nat) (status : Nat) (bs : List Byte) (hw : d.mem.wf = true) : (Dev.shResp d e c n status bs).mem.wf = true := by
  unfold Dev.shResp
  dsimp only
  repeat' split
  all_goals first | with_reducible exact hw | simp only [hw, Dev.acked_mem, Dev.remoteNext_mem, Dev.updChan_mem, Dev.moveBytes_memWf]

@[simp] theorem Dev.redWrite_memWf (d : Dev) (g first : Nat) (vs : List Nat) (hw : d.mem.wf = true) :
    (Dev.redWrite d g first vs).mem.wf = true := by
  induction vs generalizing d first with
  | nil => exact hw
  | cons v r ih =>
    unfold Dev.redWrite
    dsimp only
    split
    · exact hw
    · next i hi =>
      split
      · next d1 c h1 =>
        have := congrArg Prod.fst h1
        simp only at this
        rw [← this]; simp [hw]
      · next d1 h1 =>
        have := congrArg Prod.fst h1
        simp only at this
        apply ih; rw [← this]; simp [hw]

@[simp] theorem Dev.redFinal_memWf (d : Dev) (g : Nat) (c : Nat) (vals : List Nat) (hw : d.mem.wf = true) : (Dev.redFinal d g c vals).mem.wf = true := by
  unfold Dev.redFinal
  first | exact hw | (simp only [foldl_memWf, hw, CmdRes.devOf, Dev.chunkDone_mem, Dev.toTree_mem, Dev.updInst_mem, Dev.redWrite_memWf]; done) | ((try dsimp only); (repeat' split) <;> first | exact hw | (simp only [foldl_memWf, hw, CmdRes.devOf, Dev.chunkDone_mem, Dev.toTree_mem, Dev.updInst_mem, Dev.redWrite_memWf]; done) | (simp_all only [foldl_memWf, hw, CmdRes.devOf, Dev.chunkDone_mem, Dev.toTree_mem, Dev.updInst_mem, Dev.redWrite_memWf]; done) | (simp_all [foldl_memWf, CmdRes.devOf]; done))

@[simp] theorem Dev.redFold_memWf (d : Dev) (g : Nat) (c : Nat) (hw : d.mem.wf = true) : (Dev.redFold d g c).mem.wf = true := by
  unfold Dev.redFold
  dsimp only
  repeat' split
  all_goals first | with_reducible exact hw | simp only [hw, Dev.chunkDone_mem, Dev.toTree_mem, Dev.updInst_mem, Dev.redFinal_memWf]

@[simp] theorem Dev.localOperand_memWf (d : Dev) (g : Nat) (hw : d.mem.wf = true) : (Dev.localOperand d g).mem.wf = true := by
  unfold Dev.localOperand
  dsimp only
  repeat' split
  all_goals first | with_reducible exact hw | simp only [hw, Dev.poisonEvent_mem, Dev.redFail_mem, Dev.updInst_mem, Dev.redFold_memWf]

@[simp] theorem Dev.reductionEnd_memWf (d : Dev) (g : Nat) (hw : d.mem.wf = true) : (Dev.reductionEnd d g).mem.wf = true := by
  unfold Dev.reductionEnd
  dsimp only
  repeat' split
  all_goals first | with_reducible exact hw | simp only [hw, Dev.chanIrq_mem, Dev.updGrp_mem, Dev.statusWrite_memWf]

@[simp] theorem Dev.redTake_memWf (d : Dev) (l : Nat) (f : Flit) (hw : d.mem.wf = true) : (Dev.redTake d l f).mem.wf = true := by
  unfold Dev.redTake
  first | exact hw | (simp only [foldl_memWf, hw, CmdRes.devOf, Dev.chunkDone_mem, Dev.redFail_mem, Dev.toTree_mem, Dev.updInst_mem, Dev.redFold_memWf, Dev.redWrite_memWf]; done) | ((try dsimp only); (repeat' split) <;> first | exact hw | (simp only [foldl_memWf, hw, CmdRes.devOf, Dev.chunkDone_mem, Dev.redFail_mem, Dev.toTree_mem, Dev.updInst_mem, Dev.redFold_memWf, Dev.redWrite_memWf]; done) | (simp_all only [foldl_memWf, hw, CmdRes.devOf, Dev.chunkDone_mem, Dev.redFail_mem, Dev.toTree_mem, Dev.updInst_mem, Dev.redFold_memWf, Dev.redWrite_memWf]; done) | (simp_all [foldl_memWf, CmdRes.devOf]; done))

theorem Dev.ldWrite_memWf (d : Dev) (pa : Nat) (bs : List Byte) (hw : d.mem.wf = true) (d' : Dev) (hs : Dev.ldWrite d pa bs = some d') : d'.mem.wf = true := by
  unfold Dev.ldWrite at hs
  split at hs
  · next e he =>
    have h1 := Dev.writeLoc_memWf d e pa bs hw
    generalize d.writeLoc e pa bs = y at h1 hs
    obtain ⟨d1, b⟩ := y
    dsimp only at hs h1
    split at hs
    · cases hs
    · cases hs; exact h1
  · cases hs

@[simp] theorem Dev.putEntry_memWf (d : Dev) (q : Nat) (e : LdEnt) (hw : d.mem.wf = true) : (Dev.putEntry d q e).1.mem.wf = true := by
  unfold Dev.putEntry
  split
  · next d1 h1 => exact Dev.ldWrite_memWf _ _ _ hw _ h1
  · simp only [Dev.lockQ_mem, hw]

@[simp] theorem Dev.putFlushed_memWf (d : Dev) (q : Nat) (e : LdEnt) (what : FlushFor) (hw : d.mem.wf = true) : (Dev.putFlushed d q e what).mem.wf = true := by
  unfold Dev.putFlushed
  have h1 := Dev.putEntry_memWf d q e hw
  generalize d.putEntry q e = y at h1
  obtain ⟨d1, b⟩ := y
  cases b <;> dsimp only at h1 ⊢
  · exact h1
  · simp only [Dev.flush_mem, h1]

@[simp] theorem Dev.reply_memWf (d : Dev) (q : Nat) (seq : Nat) (kind : Nat) (state : Nat) (status : Nat) (outsel : Bool) (tag : Nat) (notify : Bool) (hw : d.mem.wf = true) : (Dev.reply d q seq kind state status outsel tag notify).mem.wf = true := by
  unfold Dev.reply
  dsimp only
  repeat' split
  all_goals first | with_reducible exact hw | simp only [hw, Dev.emit_mem, Dev.updSq_mem, Dev.hostStore_memWf]

@[simp] theorem Dev.finalReply_memWf (d : Dev) (q : Nat) (e : LdEnt) (hw : d.mem.wf = true) : (Dev.finalReply d q e).mem.wf = true := by
  unfold Dev.finalReply
  simp only [hw, Dev.reply_memWf]

@[simp] theorem Dev.waybillCheck_memWf (d : Dev) (q : Nat) (hw : d.mem.wf = true) : (Dev.waybillCheck d q).mem.wf = true := by
  unfold Dev.waybillCheck
  dsimp only
  split
  · exact hw
  · generalize (d.readLoc _ _ _).1 = raw
    split
    · exact Dev.reply_memWf _ _ _ _ _ _ _ _ _ (by simp only [Dev.updSq_mem, hw])
    · split
      · simp only [Dev.updLd_mem, Dev.updSq_mem, hw]
      · exact Dev.reply_memWf _ _ _ _ _ _ _ _ _ (by simp only [Dev.updSq_mem, hw])
    · split
      · simp only [Dev.lockQ_mem, Dev.updSq_mem, hw]
      · next d3 h3 => exact Dev.putFlushed_memWf _ _ _ _ (Dev.ldWrite_memWf _ _ _ (by simp only [Dev.updSq_mem, hw]) _ h3)

@[simp] theorem Dev.flushed_memWf (d : Dev) (f : Flush) (hw : d.mem.wf = true) : (Dev.flushed d f).mem.wf = true := by
  unfold Dev.flushed
  first | exact hw | (simp only [foldl_memWf, hw, CmdRes.devOf, Dev.lockQ_mem, Dev.finalReply_memWf, Dev.putFlushed_memWf, Dev.reply_memWf]; done) | ((try dsimp only); (repeat' split) <;> first | exact hw | (simp only [foldl_memWf, hw, CmdRes.devOf, Dev.lockQ_mem, Dev.finalReply_memWf, Dev.putFlushed_memWf, Dev.reply_memWf]; done) | (simp_all only [foldl_memWf, hw, CmdRes.devOf, Dev.lockQ_mem, Dev.finalReply_memWf, Dev.putFlushed_memWf, Dev.reply_memWf]; done) | (simp_all [foldl_memWf, CmdRes.devOf]; done))

@[simp] theorem Dev.flushComplete_memWf (d : Dev) (q : Nat) (hw : d.mem.wf = true) : (Dev.flushComplete d q).mem.wf = true := by
  unfold Dev.flushComplete
  repeat' split
  all_goals first | with_reducible exact hw | simp only [hw, Dev.updLd_mem, Dev.flushed_memWf]

@[simp] theorem Dev.ldOp_memWf (d : Dev) (v : Word) (hw : d.mem.wf = true) : (Dev.ldOp d v).mem.wf = true := by
  unfold Dev.ldOp
  dsimp only
  repeat' split
  all_goals first | with_reducible exact hw | simp only [hw, Dev.event_mem, Dev.ldErr_mem, Dev.updLd_mem, Dev.putEntry_memWf, Dev.putFlushed_memWf]

@[simp] theorem Dev.ledgerSwitch_memWf (d : Dev) (q : Nat) (hw : d.mem.wf = true) : (Dev.ledgerSwitch d q).mem.wf = true := by
  unfold Dev.ledgerSwitch
  split
  · exact hw
  · split
    · exact hw
    · dsimp only
      split
      · simp only [Dev.lockQ_mem]; exact (MemSys.wf_iff _).2 (by simpa only [Dev.updLd_mem] using (MemSys.wf_iff _).1 hw)
      · exact Dev.putFlushed_memWf _ _ _ _ ((MemSys.wf_iff _).2 (by simpa only [Dev.updLd_mem] using (MemSys.wf_iff _).1 hw))

@[simp] theorem Dev.listPut_memWf (d : Dev) (pa : Nat) (b : Byte) (hw : d.mem.wf = true) : (Dev.listPut d pa b).mem.wf = true := by
  unfold Dev.listPut
  repeat' split
  all_goals first | with_reducible exact hw | simp only [hw, Dev.hostStore_memWf, Dev.writeLoc_memWf]

@[simp] theorem Dev.markCmds_memWf (d : Dev) (addr : Nat) (list : List Byte) (i n : Nat) (hw : d.mem.wf = true) :
    (Dev.markCmds d addr list i n).1.mem.wf = true := by
  induction n generalizing d i with
  | zero => exact hw
  | succ n ih => unfold Dev.markCmds; dsimp only; split <;> simp_all

@[simp] theorem Dev.take_memWf (hosts : List (List Byte)) (d : Dev) (p : Nat × Nat) (hw : d.mem.wf = true) : (Dev.take hosts d p).mem.wf = true := by
  unfold Dev.take
  repeat' split
  all_goals first | with_reducible exact hw | simp only [hw, Dev.updLd_mem, Dev.markCmds_memWf, Dev.putFlushed_memWf, Dev.writeLoc_memWf]

@[simp] theorem Dev.dispatch_memWf (d : Dev) (mask : Nat) (hosts : List (List Byte)) (hw : d.mem.wf = true) : (Dev.dispatch d mask hosts).mem.wf = true := by
  unfold Dev.dispatch
  simp_all [foldl_memWf, CmdRes.devOf]

@[simp] theorem Dev.returnStarted_memWf (d : Dev) (q : Nat) (hw : d.mem.wf = true) : (Dev.returnStarted d q).mem.wf = true := by
  unfold Dev.returnStarted
  dsimp only
  split
  · exact hw
  · refine foldl_memWf _ (fun u i h => ?_) _ _ hw
    split
    · split
      · exact Dev.putFlushed_memWf _ _ _ _ h
      · exact h
    · exact h

@[simp] theorem Dev.ldResume_memWf (d : Dev) (hw : d.mem.wf = true) : (Dev.ldResume d).mem.wf = true := by
  unfold Dev.ldResume
  simp_all [foldl_memWf, CmdRes.devOf]

@[simp] theorem Dev.recoveryEnd_memWf (d : Dev) (q : Nat) (hw : d.mem.wf = true) : (Dev.recoveryEnd d q).mem.wf = true := by
  unfold Dev.recoveryEnd
  dsimp only
  split
  · exact hw
  · split
    · simp only [Dev.lockQ_mem, Dev.updSq_mem, hw]
    · simp only [Dev.updLd_mem]
      refine foldl_memWf _ (fun u i h => ?_) _ _ (by simp only [Dev.updSq_mem, hw])
      split
      · split
        · exact Dev.putFlushed_memWf _ _ _ _ h
        · split
          · exact Dev.putFlushed_memWf _ _ _ _ h
          · split
            · exact Dev.finalReply_memWf _ _ _ h
            · exact h
      · exact h

@[simp] theorem Dev.ldRegWrite_memWf (d : Dev) (off : Nat) (v : Word) (hw : d.mem.wf = true) : (Dev.ldRegWrite d off v).mem.wf = true := by
  unfold Dev.ldRegWrite
  split
  · dsimp only
    split <;> simp only [Dev.recover_mem, Dev.updLd_mem, hw]
  · split
    · exact Dev.ldOp_memWf _ _ hw
    · split
      · simp only [Dev.updLd_mem, hw]
      · split
        · simp only [Dev.updLd_mem, hw]
        · split
          · simp only [Dev.updSq_mem, hw]
          · split
            · split <;> simp only [Dev.doorbell_mem, Dev.retireBell_mem, hw]
            · exact hw

@[simp] theorem Dev.rdmaWrite_memWf (d : Dev) (port : Nat) (qpn : Nat) (pa : Nat) (rkey : Nat) (bs : List Byte) (hw : d.mem.wf = true) : (Dev.rdmaWrite d port qpn pa rkey bs).mem.wf = true := by
  unfold Dev.rdmaWrite
  repeat' split
  all_goals first | with_reducible exact hw | simp only [hw, Dev.doorbell_mem, Dev.emit_mem, Dev.retireBell_mem, Dev.take_memWf, Dev.writeLoc_memWf]

@[simp] theorem Dev.dropKeys_memWf (d : Dev) (hw : d.mem.wf = true) : (Dev.dropKeys d).mem.wf = true := by
  unfold Dev.dropKeys
  first | exact hw | (simp only [foldl_memWf, hw, CmdRes.devOf]; done) | ((try dsimp only); (repeat' split) <;> first | exact hw | (simp only [foldl_memWf, hw, CmdRes.devOf]; done) | (simp_all only [foldl_memWf, hw, CmdRes.devOf]; done) | (simp_all [foldl_memWf, CmdRes.devOf]; done))

@[simp] theorem Dev.fatal_memWf (d : Dev) (src : Nat) (code : Nat) (inst : Nat) (data : Nat) (junction : Bool) (hw : d.mem.wf = true) : (Dev.fatal d src code inst data junction).mem.wf = true := by
  unfold Dev.fatal
  dsimp only
  have h0 : (d.event src code 5 inst data true).mem.wf = true := by rw [Dev.event_mem, hw]
  generalize d.event src code 5 inst data true = x at h0
  have h1 := Dev.dropKeys_memWf { x with stns := x.stns.mapVal (fun _ s => s.stopDead), dfatal := true, sh := { x.sh with chans := x.sh.chans.mapVal (fun _ y => { y with mode := 0, req := none }) }, jn := { x.jn with groups := x.jn.groups.mapVal (fun _ g => { g with inst := none }) } } h0
  split
  · exact foldl_memWf _ (fun u l h => by rw [Dev.linkDisable_mem]; exact h) _ _ h1
  · exact h1

@[simp] theorem Dev.restart_memWf (d : Dev) (cause : Nat) (strap : BitVec 4) (retired : List Nat) (hw : d.mem.wf = true) : (Dev.restart d cause strap retired).mem.wf = true := by
  unfold Dev.restart
  exact (MemSys.wf_iff _).2 ⟨rfl, ((MemSys.wf_iff _).1 hw).2.1, rfl⟩

@[simp] theorem Dev.warmReset_memWf (d : Dev) (cause : Nat) (strap : BitVec 4) (hw : d.mem.wf = true) : (Dev.warmReset d cause strap).mem.wf = true := by
  unfold Dev.warmReset
  repeat' split
  all_goals first | with_reducible exact hw | simp only [hw, Dev.restart_memWf]

@[simp] theorem Dev.coldReset_memWf (d : Dev) (cause : Nat) (strap : BitVec 4) (bad : List Nat) (rails : Bool) (hw : d.mem.wf = true) : (Dev.coldReset d cause strap bad rails).mem.wf = true := by
  unfold Dev.coldReset
  repeat' split
  all_goals first | with_reducible exact hw | simp only [hw, Dev.restart_memWf]

@[simp] theorem Dev.railsOff_memWf (d : Dev) (p : Power) (hw : d.mem.wf = true) : (Dev.railsOff d p).mem.wf = true := by
  unfold Dev.railsOff
  exact (MemSys.wf_iff _).2 ⟨rfl, ((MemSys.wf_iff _).1 hw).2.1, rfl⟩

@[simp] theorem Dev.standbyLost_memWf (d : Dev) (hw : d.mem.wf = true) : (Dev.standbyLost d).mem.wf = true := by
  unfold Dev.standbyLost
  simp only [hw, Dev.railsOff_memWf]

@[simp] theorem Dev.ckWrite_memWf (d : Dev) (ring : Nat) (off : Nat) (v : Word) (hw : d.mem.wf = true) : (Dev.ckWrite d ring off v).mem.wf = true := by
  unfold Dev.ckWrite
  split
  · dsimp only
    have h1 := foldl_memWf (fun (u : Dev) h => if wbit v (8 + h) then u.hostPortReset h else u)
      (fun x a h => by split <;> simp only [Dev.hostPortReset_mem, h]) (List.range 4) d hw
    split
    · exact Dev.warmReset_memWf _ _ _ h1
    · exact h1
  · split
    · simp only [Dev.srstWrite_mem, hw]
    · split
      · simp only [Dev.srstWrite_mem, hw]
      · exact hw

theorem MemSys.caWrite_wf (m : MemSys) (off : Nat) (v : Word) (h : m.wf = true) : (m.caWrite off v).wf = true := by
  unfold MemSys.caWrite
  split
  · exact h
  · split <;> exact h

@[simp] theorem Dev.unitStore_memWf (d : Dev) (ring : Nat) (thr : Nat) (u : Unit_) (off : Nat) (v : Word) (hw : d.mem.wf = true) : (Dev.unitStore d ring thr u off v).mem.wf = true := by
  unfold Dev.unitStore
  cases u <;> dsimp only
  all_goals first
    | with_reducible exact hw
    | with_reducible exact MemSys.caWrite_wf _ _ _ hw
    | with_reducible exact Dev.ftWrite_memWf _ _ _ hw
    | with_reducible exact Dev.ldRegWrite_memWf _ _ _ hw
    | with_reducible exact Dev.ckWrite_memWf _ _ _ _ hw
    | rw [Dev.ttWrite_mem, hw] | rw [Dev.shWrite_mem, hw] | rw [Dev.jnWrite_mem, hw] | rw [Dev.lkWrite_mem, hw]
    | rw [Dev.updPort_mem, hw] | rw [Dev.rcWrite_mem, hw]
    | rw [Dev.updStn_mem, hw]
    | (split <;> first | with_reducible exact hw | rw [Dev.updStn_mem, hw] | (split <;> first | with_reducible exact hw | rw [Dev.tlbInvWrite_mem, hw]))

@[simp] theorem Dev.regWrite_memWf (d : Dev) (h : Hart) (u : Unit_) (off : Nat) (v : Word) (hw : d.mem.wf = true) : (Dev.regWrite d h u off v).mem.wf = true := by
  unfold Dev.regWrite
  simp only [hw, Dev.unitStore_memWf]

@[simp] theorem Dev.unitWrite_memWf (d : Dev) (h : Hart) (u : Unit_) (off : Nat) (v : Word) (hw : d.mem.wf = true) : (Dev.unitWrite d h u off v).mem.wf = true := by
  unfold Dev.unitWrite
  repeat' split
  all_goals first | with_reducible exact hw | simp only [hw, Dev.regWrite_memWf]

@[simp] theorem Dev.storePlace_memWf (d : Dev) (h : Hart) (l : Nat × TlbE) (bs : List Byte) (hw : d.mem.wf = true) : (Dev.storePlace d h l bs).mem.wf = true := by
  unfold Dev.storePlace
  dsimp only
  repeat' split
  all_goals first | with_reducible exact hw | simp only [hw, Dev.raiseMchk_mem, Dev.hostStore_memWf, Dev.regWrite_memWf, Dev.writeLoc_memWf]

@[simp] theorem Dev.storeAll_memWf (h : Hart) (l : List ((Nat × TlbE) × List Byte)) (d : Dev) (hw : d.mem.wf = true) :
    (Dev.storeAll h l d).mem.wf = true := by
  induction l generalizing d with
  | nil => exact hw
  | cons a r ih => obtain ⟨l, bs⟩ := a; exact ih _ (by simp [hw])

@[simp] theorem Dev.loadAll_memWf (h : Hart) (data : Word) (l : List ((Nat × TlbE) × Nat)) (d : Dev) (hw : d.mem.wf = true) :
    (Dev.loadAll h data l d).1.mem.wf = true := by
  induction l generalizing d with
  | nil => exact hw
  | cons a r ih =>
    obtain ⟨l, n⟩ := a
    unfold Dev.loadAll
    dsimp only
    split <;> exact ih _ (by simp [hw])

@[simp] theorem Dev.doCall_memWf (d : Dev) (h : Hart) (mask : BitVec 32) (target : Word) (locs : List (Nat × TlbE)) (c : Nat) (hw : d.mem.wf = true) : (Dev.doCall d h mask target locs c).mem.wf = true := by
  unfold Dev.doCall
  simp only [hw, Dev.pass_mem, Dev.updStn_mem, Dev.updThr_mem, Dev.storeAll_memWf]

@[simp] theorem Dev.memPerform_memWf (d : Dev) (h : Hart) (op : MemOp) (locs : List (Nat × TlbE)) (data : Word) (c : Nat) (hw : d.mem.wf = true) : (Dev.memPerform d h op locs data c).mem.wf = true := by
  unfold Dev.memPerform
  dsimp only
  repeat' split
  all_goals first | with_reducible exact hw | simp only [hw, Dev.block_mem, Dev.doAmo_mem, Dev.exc_mem, Dev.fillPoison_mem, Dev.finish_mem, Dev.pass_mem, Dev.updStn_mem, Dev.updThr_mem, Dev.doCall_memWf, Dev.loadAll_memWf, Dev.storeAll_memWf]

theorem Dev.issue_memWf (d : Dev) (h : Hart) (len : Nat) (body : Dev → Dev) (hw : d.mem.wf = true)
    (hb : ∀ x, x.mem.wf = true → (body x).mem.wf = true) : (d.issue h len body).mem.wf = true := by
  unfold Dev.issue
  split
  · exact hw
  · split
    · next d1 h1 => rw [Dev.boundary_mem _ _ _ h1, hw]
    · split
      · simp only [Dev.exc_mem, hw]
      · next d1 h1 => exact hb _ (by rw [Dev.fetch_mem _ _ _ _ h1, hw])

@[simp] theorem Dev.memRun_memWf (d : Dev) (h : Hart) (op : MemOp) (walked : Bool) (hit : Bool) (hw : d.mem.wf = true) : (Dev.memRun d h op walked hit).mem.wf = true := by
  unfold Dev.memRun
  dsimp only
  split
  · simp only [Dev.memFault_mem, hw]
  · split
    · simp only [Dev.block_mem, hw]
    · have h1 := Dev.checkAccs_mem h (d.thr h).ring op.ak op.cls (op.accs (d.stn h.stn) (d.thr h)) d []
      split
      · next d1 c a he => rw [he] at h1; dsimp only at h1; rw [Dev.memFault_mem, h1, hw]
      · next d1 locs he =>
        rw [he] at h1
        have hw1 : d1.mem.wf = true := by dsimp only at h1; rw [h1, hw]
        split
        · rw [Dev.block_mem]; exact foldl_memWf _ (fun x k hx => by rw [Dev.updStn_mem, hx]) _ _ hw1
        · split
          · split <;> simp only [Dev.block_mem, Dev.updStn_mem, hw1]
          · split
            · split
              · simp only [Dev.block_mem, hw1]
              · exact Dev.memPerform_memWf _ _ _ _ _ _ (by simp only [Dev.updStn_mem, hw1])
            · exact Dev.memPerform_memWf _ _ _ _ _ _ hw1

@[simp] theorem Dev.serve_memWf (d : Dev) (h : Hart) (op : MemOp) (locs : List (Nat × TlbE)) (data : Word) (hw : d.mem.wf = true) : (Dev.serve d h op locs data).mem.wf = true := by
  unfold Dev.serve
  simp only [hw, Dev.updStn_mem, Dev.updThr_mem, Dev.memPerform_memWf]

@[simp] theorem Dev.tileMem_memWf (d : Dev) (h : Hart) (fn : Nat) (f : TF) (op : MemOp) (opc : TOpc) (write : Bool) (hw : d.mem.wf = true) : (Dev.tileMem d h fn f op opc write).mem.wf = true := by
  unfold Dev.tileMem
  refine Dev.issue_memWf _ _ _ _ hw (fun x hx => ?_)
  dsimp only
  split
  · simp only [Dev.illegal_mem, hx]
  · split
    · simp only [Dev.exc_mem, hx]
    · split
      · simp only [Dev.ownFault_mem, hx]
      · split
        · simp only [Dev.shapeFault_mem, hx]
        · split
          · simp only [Dev.block_mem, hx]
          · exact Dev.memRun_memWf _ _ _ _ _ hx

@[simp] theorem Dev.serveWakes_memWf (d : Dev) (hw : d.mem.wf = true) : (Dev.serveWakes d).mem.wf = true := by
  unfold Dev.serveWakes
  refine foldl_memWf _ (fun x a hx => ?_) _ _ hw
  split
  · refine foldl_memWf _ (fun y b hy => ?_) _ _ hx
    split
    · split
      · exact Dev.serve_memWf _ _ _ _ _ hy
      · exact hy
    · exact hy
  · exact hx

@[simp] theorem Dev.wakeEnd_memWf (d : Dev) (n : Nat) (hw : d.mem.wf = true) : (Dev.wakeEnd d n).mem.wf = true := by
  unfold Dev.wakeEnd
  repeat' split
  all_goals first | with_reducible exact hw | simp only [hw, Dev.updStn_mem, Dev.serveWakes_memWf]

@[simp] theorem Dev.geCommand_memWf (d : Dev) (h : Hart) (n : Fin 128) (k : Fin 64) (op : Nat) (hw : d.mem.wf = true) : (Dev.geCommand d h n k op).mem.wf = true := by
  unfold Dev.geCommand
  simp only [hw, Dev.unitWrite_memWf]

theorem Dev.recStore_memWf (d : Dev) (pa : Nat) (bs : List Byte) (hw : d.mem.wf = true) (d' : Dev) (hs : Dev.recStore d pa bs = some d') : d'.mem.wf = true := by
  unfold Dev.recStore at hs
  split at hs
  · cases hs
  · next e he =>
    split at hs
    · cases hs; exact Dev.hostStore_memWf _ _ _ hw
    · have h1 := Dev.writeLoc_memWf d e pa bs hw
      generalize d.writeLoc e pa bs = y at h1 hs
      obtain ⟨d1, b⟩ := y
      dsimp only at hs h1
      split at hs
      · cases hs
      · cases hs; exact h1

@[simp] theorem Dev.writeRecord_memWf (d : Dev) (bs : List Byte) (hw : d.mem.wf = true) : (Dev.writeRecord d bs).mem.wf = true := by
  unfold Dev.writeRecord
  dsimp only
  split
  · exact hw
  · split
    · next d2 h2 =>
      rw [Option.bind_eq_some_iff] at h2
      obtain ⟨u, hu, hv⟩ := h2
      exact Dev.recStore_memWf _ _ _ (Dev.recStore_memWf _ _ _ (by exact hw) _ hu) _ hv
    · exact hw

@[simp] theorem Dev.closePhase_memWf (d : Dev) (c : Nat) (halted : Bool) (hw : d.mem.wf = true) : (Dev.closePhase d c halted).mem.wf = true := by
  unfold Dev.closePhase
  repeat' split
  all_goals first | with_reducible exact hw | simp only [hw, Dev.account_mem, Dev.writeRecord_memWf]

@[simp] theorem Dev.takeTick_memWf (d : Dev) (m : TickMsg) (stops : Bool) (hw : d.mem.wf = true) : (Dev.takeTick d m stops).mem.wf = true := by
  unfold Dev.takeTick
  dsimp only
  repeat' split
  all_goals first | with_reducible exact hw | simp only [hw, Dev.evaluate_mem, Dev.notBefore_mem, Dev.reportBoundary_mem, Dev.closePhase_memWf]

@[simp] theorem Dev.beginHalt_memWf (d : Dev) (m : TickMsg) (why : Nat) (hw : d.mem.wf = true) : (Dev.beginHalt d m why).mem.wf = true := by
  have h2 : ∀ x : Dev, x.mem.wf = true → (if x.tt.inPhase then x.closePhase m.num (!m.end_) else x).mem.wf = true := by
    intro x hx; split
    · exact Dev.closePhase_memWf _ _ _ hx
    · exact hx
  unfold Dev.beginHalt
  rw [Dev.reportBoundary_mem, Dev.evaluate_mem]
  refine (congrArg MemSys.wf (Dev.stopWork_mem _)).trans (h2 _ ?_)
  show (d.notBefore m.at_).mem.wf = true
  rw [Dev.notBefore_mem, hw]

@[simp] theorem Dev.phaseStart_memWf (d : Dev) (k : Nat) (hosts : List (List Byte)) (hw : d.mem.wf = true) : (Dev.phaseStart d k hosts).mem.wf = true := by
  have hs : ∀ x : Dev, x.mem.wf = true → (x.stns.keys.foldl Dev.phaseStation x).mem.wf = true :=
    fun x hx => foldl_memWf _ (fun x a h => by rw [Dev.phaseStation_mem, h]) _ _ hx
  have h1 : (d.dispatch (d.tt.sqMask k) hosts).mem.wf = true := Dev.dispatch_memWf _ _ _ hw
  unfold Dev.phaseStart
  generalize d.dispatch (d.tt.sqMask k) hosts = x at h1
  have h2 := hs x h1
  dsimp only
  generalize x.stns.keys.foldl Dev.phaseStation x = y at h2
  split
  · split
    · show (Dev.closePhase _ _ _).mem.wf = true
      exact Dev.closePhase_memWf _ _ _ h2
    · exact Dev.closePhase_memWf _ _ _ h2
  · exact h2

@[simp] theorem Dev.phaseEnd_memWf (d : Dev) (hw : d.mem.wf = true) : (Dev.phaseEnd d).mem.wf = true := by
  unfold Dev.phaseEnd
  repeat' split
  all_goals first | with_reducible exact hw | simp only [hw, Dev.reportEnd_mem, Dev.closePhase_memWf]

@[simp] theorem Dev.tickBoundary_memWf (d : Dev) (p : BitVec 16) (tj : BitVec 16) (mj : Nat) (hw : d.mem.wf = true) : (Dev.tickBoundary d p tj mj).mem.wf = true := by
  unfold Dev.tickBoundary
  split
  · exact hw
  · split
    · split
      · exact hw
      · dsimp only
        split
        · exact hw
        · split
          · exact Dev.beginHalt_memWf _ _ _ (by rw [Dev.capEval_mem]; exact hw)
          · exact Dev.takeTick_memWf _ _ _ (by rw [Dev.capEval_mem]; exact hw)
    · split
      · exact hw
      · exact Dev.takeTick_memWf _ _ _ (by rw [Dev.capEval_mem]; exact hw)

@[simp] theorem Dev.haltTick_memWf (d : Dev) (hw : d.mem.wf = true) : (Dev.haltTick d).mem.wf = true := by
  unfold Dev.haltTick
  split
  · exact hw
  · split
    · exact Dev.beginHalt_memWf _ _ _ hw
    · exact hw

@[simp] theorem Dev.resumeNow_memWf (d : Dev) (m : TickMsg) (hw : d.mem.wf = true) : (Dev.resumeNow d m).mem.wf = true := by
  unfold Dev.resumeNow
  simp only [hw, Dev.idle_mem, Dev.ldResume_memWf]

@[simp] theorem Dev.missedTick_memWf (d : Dev) (p : BitVec 16) (tj : BitVec 16) (mj : Nat) (hw : d.mem.wf = true) : (Dev.missedTick d p tj mj).mem.wf = true := by
  unfold Dev.missedTick
  split
  · exact hw
  · dsimp only
    split
    · exact Dev.beginHalt_memWf _ _ _ (by rw [Dev.capEval_mem]; exact hw)
    · split
      · refine Dev.takeTick_memWf _ _ _ ?_
        show (Dev.capEval _ p tj mj).mem.wf = true
        rw [Dev.capEval_mem]; exact hw
      · exact Dev.takeTick_memWf _ _ _ (by rw [Dev.capEval_mem]; exact hw)

@[simp] theorem Dev.transferDone_memWf (d : Dev) (e : Nat) (c : Nat) (data : List Byte) (reached : Nat) (hw : d.mem.wf = true) : (Dev.transferDone d e c data reached).mem.wf = true := by
  unfold Dev.transferDone
  dsimp only
  unfold Dev.whenAwake
  generalize d.asleep _ = ks
  cases ks
  · exact Dev.transferEnd_memWf _ _ _ _ _ hw
  · rw [Dev.wakeAll_mem, hw]

@[simp] theorem Dev.remoteStore_memWf (d : Dev) (a : Nat) (bs : List Byte) (hw : d.mem.wf = true) :
    (Dev.remoteStore d a bs).mem.wf = true := by
  induction bs generalizing d a with
  | nil => exact hw
  | cons b r ih => unfold Dev.remoteStore; split <;> simp_all

@[simp] theorem Dev.serveWrite_memWf (d : Dev) (f : Flit) (hw : d.mem.wf = true) : (Dev.serveWrite d f).mem.wf = true := by
  unfold Dev.serveWrite
  dsimp only
  repeat' split
  all_goals first | with_reducible exact hw | simp only [hw, Dev.respond_mem, Dev.remoteStore_memWf]

@[simp] theorem Dev.respTaken_memWf (d : Dev) (hw : d.mem.wf = true) : (Dev.respTaken d).mem.wf = true := by
  unfold Dev.respTaken
  split
  · exact hw
  · next l x f d1 h =>
    have h1 : d1.mem.wf = true := by rw [← hw, ← Dev.takeInbox_mem d (fun f => f.kind == 6), h]
    split
    · split
      · exact Dev.shResp_memWf _ _ _ _ _ _ h1
      · exact h1
    · exact h1

@[simp] theorem Dev.remoteLate_memWf (d : Dev) (e : Nat) (c : Nat) (hw : d.mem.wf = true) : (Dev.remoteLate d e c).mem.wf = true := by
  unfold Dev.remoteLate
  repeat' split
  all_goals first | with_reducible exact hw | simp only [hw, Dev.notBefore_mem, Dev.shResp_memWf]

@[simp] theorem Dev.routeData_memWf (d : Dev) (h : Hart) (v : Option Word) (hw : d.mem.wf = true) : (Dev.routeData d h v).mem.wf = true := by
  unfold Dev.routeData
  repeat' split
  all_goals first | with_reducible exact hw | simp only [hw, Dev.regRead_mem, Dev.unitWrite_memWf]

@[simp] theorem Dev.reductionGo_memWf (d : Dev) (h : Hart) (g : Nat) (v : Word) (hw : d.mem.wf = true) : (Dev.reductionGo d h g v).mem.wf = true := by
  unfold Dev.reductionGo
  unfold Dev.whenAwake
  generalize d.asleep _ = ks
  cases ks
  · exact Dev.unitWrite_memWf _ _ _ _ _ hw
  · rw [Dev.wakeAll_mem, hw]

@[simp] theorem Dev.localArrives_memWf (d : Dev) (g : Nat) (hw : d.mem.wf = true) : (Dev.localArrives d g).mem.wf = true := by
  unfold Dev.localArrives
  split
  · unfold Dev.whenAwake
    generalize d.asleep _ = ks
    cases ks
    · exact Dev.localOperand_memWf _ _ hw
    · rw [Dev.wakeAll_mem, hw]
  · exact hw

@[simp] theorem Dev.redArrives_memWf (d : Dev) (hw : d.mem.wf = true) : (Dev.redArrives d).mem.wf = true := by
  unfold Dev.redArrives
  split
  · exact hw
  · next l x f d1 h =>
    have h1 : d1.mem.wf = true := by rw [← hw, ← Dev.takeInbox_mem d (fun f => f.kind == 7), h]
    split
    · exact h1
    · generalize d.asleep _ = ks
      cases ks
      · exact Dev.redTake_memWf _ _ _ h1
      · rw [Dev.wakeAll_mem, hw]

@[simp] theorem Dev.reductionDone_memWf (d : Dev) (g : Nat) (hw : d.mem.wf = true) : (Dev.reductionDone d g).mem.wf = true := by
  unfold Dev.reductionDone
  unfold Dev.whenAwake
  generalize d.asleep _ = ks
  cases ks
  · exact Dev.reductionEnd_memWf _ _ hw
  · rw [Dev.wakeAll_mem, hw]

@[simp] theorem Dev.ldst_memWf (d : Dev) (h : Hart) (op : MemOp) (hit : Bool) (hw : d.mem.wf = true) : (Dev.ldst d h op hit).mem.wf = true := by
  unfold Dev.ldst
  exact Dev.issue_memWf _ _ _ _ hw (fun x hx => Dev.memRun_memWf _ _ _ _ _ hx)

@[simp] theorem Dev.serveFailed_memWf (d : Dev) (h : Hart) (op : MemOp) (locs : List (Nat × TlbE)) (hw : d.mem.wf = true) : (Dev.serveFailed d h op locs).mem.wf = true := by
  unfold Dev.serveFailed
  dsimp only
  repeat' split
  all_goals first | with_reducible exact hw | simp only [hw, Dev.poisoned_mem, Dev.poisonAt_memWf, Dev.serve_memWf]

@[simp] theorem Dev.missReply_memWf (d : Dev) (h : Hart) (data : Word) (err : Bool) (crc : Fin 6) (hw : d.mem.wf = true) : (Dev.missReply d h data err crc).mem.wf = true := by
  unfold Dev.missReply
  repeat' split
  all_goals first | with_reducible exact hw | simp only [hw, Dev.updStn_mem, Dev.crcOutcome_memWf, Dev.reply_memWf, Dev.serve_memWf, Dev.serveFailed_memWf]

@[simp] theorem Dev.ldOpWrite_memWf (d : Dev) (h : Hart) (v : Word) (op : Nat) (hw : d.mem.wf = true) : (Dev.ldOpWrite d h v op).mem.wf = true := by
  unfold Dev.ldOpWrite
  simp only [hw, Dev.unitWrite_memWf]

@[simp] theorem Dev.chanRdmaFails_memWf (d : Dev) (e : Nat) (c : Nat) (data : List Byte) (done : Nat) (hw : d.mem.wf = true) : (Dev.chanRdmaFails d e c data done).mem.wf = true := by
  unfold Dev.chanRdmaFails
  dsimp only
  repeat' split
  all_goals first | with_reducible exact hw | simp only [hw, Dev.updChan_mem, Dev.moveBytes_memWf]

@[simp] theorem Dev.rdmaFails_memWf (d : Dev) (w : RdmaFor) (hw : d.mem.wf = true) : (Dev.rdmaFails d w).mem.wf = true := by
  unfold Dev.rdmaFails
  repeat' split
  all_goals first | with_reducible exact hw | simp only [hw, Dev.raiseMchk_mem, Dev.chanRdmaFails_memWf, Dev.missReply_memWf, Dev.reply_memWf]

@[simp] theorem Dev.cmd_memWf (d : Dev) (n : Fin 128) (op : Nat) (act : Dev → Blk → Nat → CmdRes) (hw : d.mem.wf = true)
    (hact : ∀ x b c, x.mem.wf = true → (act x b c).devOf.mem.wf = true) : (Dev.cmd d n op act).mem.wf = true := by
  unfold Dev.cmd
  dsimp only
  split
  · exact hw
  · next b hb =>
    split
    · exact hw
    · split
      · exact hw
      · split
        · simp only [Dev.updStn_mem, hw]
        · have h1 := hact d b (b.cmds.getD b.next 0) hw
          split
          · next d1 he => rw [he] at h1; exact h1
          · next d1 st fc xa he => rw [he] at h1; rw [Dev.updStn_mem]; exact h1
          · next d1 he => rw [he] at h1; rw [Dev.updStn_mem]; exact h1

@[simp] theorem Dev.cmdLoop_memWf (d : Dev) (n : Fin 128) (b : Blk) (c : Nat) (hw : d.mem.wf = true) : (Dev.cmdLoop d n b c).devOf.mem.wf = true := by
  unfold Dev.cmdLoop
  simp only [hw, CmdRes.devOf, Dev.updStn_mem]

@[simp] theorem Dev.cmdMem_memWf (d : Dev) (n : Fin 128) (b : Blk) (c : Nat) (fill : Bool) (hw : d.mem.wf = true) : (Dev.cmdMem d n b c fill).devOf.mem.wf = true := by
  unfold Dev.cmdMem
  dsimp only
  split
  · exact hw
  · split
    · exact hw
    · split
      · exact hw
      · have h1 := Dev.checkAccs_mem (blkHart n b.by_) b.by_.ring (if fill = true then AK.load else AK.store) .bulk
          (tileAccs ((d.stn n).cfg (cmdTn c)) (b.slotAddr (cmdSlot c)) (BitVec.ofInt 64 (sval 32 (cmdArg c)))) d []
        split
        · next d1 code a he => rw [he] at h1; simp only [CmdRes.devOf]; rw [h1, hw]
        · next d1 locs he =>
          rw [he] at h1
          have hw1 : d1.mem.wf = true := by rw [h1, hw]
          split
          · simp only [CmdRes.devOf, Dev.wakeAll_mem, hw1]
          · split
            · simp only [CmdRes.devOf, Dev.fillPoison_mem, Dev.updStn_mem, hw1]
            · simp only [CmdRes.devOf, Dev.updStn_mem]; exact Dev.storeAll_memWf _ _ _ hw1

@[simp] theorem Dev.cmdShape_memWf (d : Dev) (n : Fin 128) (b : Blk) (c : Nat) (hw : d.mem.wf = true) : (Dev.cmdShape d n b c).devOf.mem.wf = true := by
  unfold Dev.cmdShape
  dsimp only
  repeat' split
  all_goals first | with_reducible exact hw | simp only [hw, CmdRes.devOf, Dev.updStn_mem]

@[simp] theorem Dev.cmdBlank_memWf (d : Dev) (n : Fin 128) (b : Blk) (c : Nat) (hw : d.mem.wf = true) : (Dev.cmdBlank d n b c).devOf.mem.wf = true := by
  unfold Dev.cmdBlank
  dsimp only
  repeat' split
  all_goals first | with_reducible exact hw | simp only [hw, CmdRes.devOf, Dev.updStn_mem]

@[simp] theorem Dev.cmdEng_memWf (d : Dev) (n : Fin 128) (b : Blk) (c : Nat) (body : Station → Src → EIssue) (hw : d.mem.wf = true) : (Dev.cmdEng d n b c body).devOf.mem.wf = true := by
  unfold Dev.cmdEng
  dsimp only
  repeat' split
  all_goals first | with_reducible exact hw | simp only [hw, CmdRes.devOf, Dev.setStn_mem]

@[simp] theorem Dev.cmdPtest_memWf (d : Dev) (n : Fin 128) (b : Blk) (c : Nat) (hw : d.mem.wf = true) : (Dev.cmdPtest d n b c).devOf.mem.wf = true := by
  unfold Dev.cmdPtest
  dsimp only
  split
  · exact hw
  · have h1 := Dev.seqRead_mem d (blkHart n b.by_) b.by_.ring 8 (b.slotAddr (cmdSlot c)).toNat 8
    split
    · next d1 _ he => rw [he] at h1; simp only [CmdRes.devOf, Dev.updStn_mem]; rw [h1, hw]
    · next d1 _ _ he => rw [he] at h1; simp only [CmdRes.devOf]; rw [h1, hw]
    · next d1 _ he => rw [he] at h1; simp only [CmdRes.devOf, Dev.raiseMchk_mem, Dev.poisonEvent_mem]; rw [h1, hw]
    · next d1 _ he => rw [he] at h1; simp only [CmdRes.devOf, Dev.wakeAll_mem]; rw [h1, hw]

@[simp] theorem Dev.vmem_memWf (d : Dev) (h : Hart) (form : VmForm) (store : Bool) (f : VmF) (hit : Bool) (hw : d.mem.wf = true) : (Dev.vmem d h form store f hit).mem.wf = true := by
  unfold Dev.vmem
  refine Dev.issue_memWf _ _ _ _ hw (fun x hx => ?_)
  dsimp only
  split
  · simp only [Dev.illegal_mem, hx]
  · split
    · simp only [Dev.finish_mem, hx]
    · split
      · exact hx
      · exact Dev.memRun_memWf _ _ _ _ _ hx

@[simp] theorem Dev.tapOp_memWf (d : Dev) (o : TapOp) (hw : d.mem.wf = true) : (Dev.tapOp d o).mem.wf = true := by
  unfold Dev.tapOp
  repeat' split
  all_goals first | with_reducible exact hw | simp only [hw, Dev.emit_mem, Dev.take_memWf]

@[simp] theorem Dev.orderBind_memWf (d : Dev) (digest : List Byte) (hw : d.mem.wf = true) : (Dev.orderBind d digest).1.mem.wf = true := by
  unfold Dev.orderBind
  split
  · exact hw
  · dsimp only
    split
    · exact hw
    · rw [Dev.stepHalt_mem]; exact hw

@[simp] theorem Dev.stepInvalidate_memWf (d : Dev) (hw : d.mem.wf = true) : (Dev.stepInvalidate d).mem.wf = true := by
  unfold Dev.stepInvalidate
  exact foldl_discard_wf _ _ _ { d.mem with dirty := [] } hw

@[simp] theorem Dev.stepDestroy_memWf (d : Dev) (hw : d.mem.wf = true) : (Dev.stepDestroy d).mem.wf = true := by
  unfold Dev.stepDestroy
  first | exact hw | (simp only [foldl_memWf, hw, CmdRes.devOf]; done) | ((try dsimp only); (repeat' split) <;> first | exact hw | (simp only [foldl_memWf, hw, CmdRes.devOf]; done) | (simp_all only [foldl_memWf, hw, CmdRes.devOf]; done) | (simp_all [foldl_memWf, CmdRes.devOf]; done))

@[simp] theorem Dev.stepClear_memWf (d : Dev) (hw : d.mem.wf = true) : (Dev.stepClear d).mem.wf = true := by
  unfold Dev.stepClear
  extract_lets d1 mask d2
  have h1 : d1.mem.wf = true := foldl_memWf _ (fun x a h => by split <;> simp only [Dev.retireNow_mem, h]) _ _ hw
  have h2 : d2.mem.wf = true := by simp only [d2, Dev.clearStations_mem, h1]
  clear_value d2
  exact h2

@[simp] theorem Dev.copyBody_memWf (d : Dev) (hw : d.mem.wf = true) : (Dev.copyBody d).mem.wf = true := by
  unfold Dev.copyBody
  split
  · exact (MemSys.wf_iff _).2 ⟨Mem.wf_writeBytes _ _ _ ((MemSys.wf_iff _).1 hw).1, ((MemSys.wf_iff _).1 hw).2⟩
  · exact hw

theorem MemSys.loadKeys_wf (m : MemSys) (a : Nat) (b c : Option Nat) (h : m.wf = true) : (m.loadKeys a b c).wf = true := by
  have h' := (MemSys.wf_iff _).1 h
  exact (MemSys.wf_iff _).2 ⟨rfl, h'.2.1, h'.2.2⟩

theorem putExtent_wf (base : Nat) (m : Mem) (e : List Byte) (h : m.wf = true) : (putExtent base m e).wf = true := by
  unfold putExtent
  generalize List.range (bytesAt e 8 4) = l
  induction l generalizing m with
  | nil => exact h
  | cons a r ih => exact ih _ (Mem.wf_writeN _ _ _ _ h)

theorem foldl_putExtent_wf (base : Nat) (l : List (List Byte)) (m : Mem) (h : m.wf = true) :
    (l.foldl (putExtent base) m).wf = true := by
  induction l generalizing m with
  | nil => exact h
  | cons a r ih => exact ih _ (putExtent_wf _ _ _ h)

theorem MemSys.loadSiding_wf (m : MemSys) (r : List Byte) (h : m.wf = true) : (m.loadSiding r).wf = true := by
  have h' := (MemSys.wf_iff _).1 h
  unfold MemSys.loadSiding
  dsimp only
  split
  · exact h
  · exact (MemSys.wf_iff _).2 ⟨foldl_putExtent_wf _ _ _ (Mem.wf_clearRange _ _ _ h'.1), h'.2.1, h'.2.2⟩

@[simp] theorem Dev.stepLoad_memWf (d : Dev) (x : NewBind) (hw : d.mem.wf = true) : (Dev.stepLoad d x).mem.wf = true := by
  have h3 : ∀ (x : Dev) (on : Nat → Bool), x.mem.wf = true → (if x.bd.fresh then x.clearStations on else x).mem.wf = true := by
    intro x on hx; split
    · rw [Dev.clearStations_mem, hx]
    · exact hx
  unfold Dev.stepLoad
  rw [Dev.startStations_mem]
  refine Dev.copyBody_memWf _ (h3 _ _ (foldl_memWf _ (fun x a h => by rw [Dev.updSq_mem, h]) _ _ ?_))
  exact MemSys.loadSiding_wf _ _ (MemSys.loadKeys_wf _ _ _ _ hw)

@[simp] theorem Dev.unbound_memWf (d : Dev) (hw : d.mem.wf = true) : (Dev.unbound d).mem.wf = true := by
  unfold Dev.unbound
  rw [Dev.startStations_mem]
  refine Dev.copyBody_memWf _ ?_
  have h := MemSys.loadKeys_wf d.mem (2 * d.mem.nextKey) none none hw
  exact h

@[simp] theorem Dev.stepEnd_memWf (d : Dev) (hw : d.mem.wf = true) : (Dev.stepEnd d).mem.wf = true := by
  unfold Dev.stepEnd
  repeat' split
  all_goals first | with_reducible exact hw | simp only [hw, Dev.stepClose_mem, Dev.stepDrain_mem, Dev.stepOpen_mem, Dev.toStep_mem, Dev.stepClear_memWf, Dev.stepDestroy_memWf, Dev.stepInvalidate_memWf, Dev.stepLoad_memWf, Dev.unbound_memWf]

@[simp] theorem Dev.sealSign_memWf (d : Dev) (hw : d.mem.wf = true) : (Dev.sealSign d).mem.wf = true := by
  unfold Dev.sealSign
  repeat' split
  all_goals first | with_reducible exact hw | simp only [hw, Dev.take_memWf]

@[simp] theorem Dev.orderEffect_memWf (d : Dev) (e : List Byte) (hw : d.mem.wf = true) : (Dev.orderEffect d e).1.mem.wf = true := by
  have hk : ∀ x : Option Dev, (∀ y, x = some y → y.mem.wf = true) → (d.orElse x).1.mem.wf = true := by
    intro x hx
    cases x with
    | none => exact hw
    | some y => exact hx y rfl
  unfold Dev.orderEffect
  dsimp only
  generalize bytesAt e 1 1 = code
  split
  · rw [Dev.haltRequest_mem, hw]
  · split
    · exact hk _ (fun y hy => by rw [Dev.orderResume_mem _ _ _ hy, hw])
    · split
      · exact hk _ (fun y hy => by rw [Dev.orderLease_mem _ _ _ _ hy, hw])
      · split
        · exact hk _ (fun y hy => by rw [Dev.orderStaff_mem _ _ _ _ hy, hw])
        · split
          · exact Dev.orderBind_memWf _ _ hw
          · split
            · exact hk _ (fun y hy => by rw [Dev.orderUnbind_mem _ _ hy, hw])
            · split
              · exact hk _ (fun y hy => by rw [Dev.orderSeal_mem _ _ hy, hw])
              · split
                · exact hk _ (fun y hy => by rw [Dev.orderRetire_mem _ _ _ hy, hw])
                · rw [Dev.orderDebug_mem, hw]

@[simp] theorem Dev.orderPath_memWf (d : Dev) (e : List Byte) (hw : d.mem.wf = true) : (Dev.orderPath d e).1.mem.wf = true := by
  unfold Dev.orderPath
  repeat' split
  all_goals first | with_reducible exact hw | simp only [hw, Dev.orderEffect_memWf]

@[simp] theorem Dev.sendOrder_memWf (d : Dev) (e : List Byte) (hw : d.mem.wf = true) : (Dev.sendOrder d e).mem.wf = true := by
  unfold Dev.sendOrder
  simp_all [foldl_memWf, CmdRes.devOf]

@[simp] theorem Dev.forwardOrder_memWf (d : Dev) (e : List Byte) (o : OrdFrom) (hw : d.mem.wf = true) : (Dev.forwardOrder d e o).mem.wf = true := by
  unfold Dev.forwardOrder
  repeat' split
  all_goals first | with_reducible exact hw | simp only [hw, Dev.sendOrder_memWf]

@[simp] theorem Dev.order_memWf (d : Dev) (e : List Byte) (o : OrdFrom) (hw : d.mem.wf = true) : (Dev.order d e o).mem.wf = true := by
  unfold Dev.order
  have h1 := Dev.orderPath_memWf d e hw
  generalize d.orderPath e = y at h1
  obtain ⟨d1, r⟩ := y
  cases r <;> dsimp only at h1 ⊢
  · exact Dev.forwardOrder_memWf _ _ _ h1
  · rw [Dev.orderAnswer_mem, h1]

@[simp] theorem Dev.orderFlit_memWf (d : Dev) (hw : d.mem.wf = true) : (Dev.orderFlit d).mem.wf = true := by
  unfold Dev.orderFlit
  split
  · next d1 h => rw [← hw, ← Dev.takeInbox_mem d (fun f => f.kind == 3), h]
  · next l x f d1 h =>
    have h1 : d1.mem.wf = true := by rw [← hw, ← Dev.takeInbox_mem d (fun f => f.kind == 3), h]
    dsimp only
    split
    · exact Dev.order_memWf _ _ _ h1
    · exact h1

@[simp] theorem Dev.imgReject_memWf (d : Dev) (code : Nat) (hw : d.mem.wf = true) : (Dev.imgReject d code).mem.wf = true := by
  unfold Dev.imgReject
  exact (MemSys.wf_iff _).2 ⟨((MemSys.wf_iff _).1 hw).1, ((MemSys.wf_iff _).1 hw).2.1, rfl⟩

@[simp] theorem Dev.imgStart_memWf (d : Dev) (h : List Byte) (hw : d.mem.wf = true) : (Dev.imgStart d h).mem.wf = true := by
  unfold Dev.imgStart
  dsimp only
  rw [Dev.startStations_mem]
  exact Dev.copyBody_memWf _ hw

@[simp] theorem Dev.imgVerify_memWf (d : Dev) (bad : Option Nat) (hw : d.mem.wf = true) : (Dev.imgVerify d bad).mem.wf = true := by
  unfold Dev.imgVerify
  dsimp only
  repeat' split
  all_goals first | with_reducible exact hw | simp only [hw, Dev.imgReject_memWf, Dev.imgStart_memWf]

theorem Dev.mirrorRead_memWf (d : Dev) (ring : Nat) (m : Mirror) (hw : d.mem.wf = true) (p : Dev × Word)
    (hs : d.mirrorRead ring m = .ok p) : p.1.mem.wf = true := by
  unfold Dev.mirrorRead at hs
  split at hs
  · cases hs; exact hw
  · split at hs
    · cases hs; simp [hw]
    · cases hs

theorem Dev.dictRead_memWf (d : Dev) (a : Agent) (idx sub : Nat) (hw : d.mem.wf = true) (p : Dev × List Byte × Bool)
    (hs : d.dictRead a idx sub = .ok p) : p.1.mem.wf = true := by
  unfold Dev.dictRead at hs
  split at hs
  · cases hs
  · cases hs; exact hw
  · split at hs
    · cases hs
    · next h1 => cases hs; exact Dev.mirrorRead_memWf _ _ _ hw _ h1
  · split at hs
    · cases hs
    · cases hs; exact hw

@[simp] theorem Dev.dictWrite_memWf (d : Dev) (a : Agent) (idx : Nat) (sub : Nat) (bs : List Byte) (hw : d.mem.wf = true) : (Dev.dictWrite d a idx sub bs).1.mem.wf = true := by
  unfold Dev.dictWrite
  repeat' split
  all_goals first | with_reducible exact hw | simp only [hw, Dev.dictStore_mem, Dev.unitStore_memWf]

@[simp] theorem Dev.segRead_memWf (d : Dev) (p : Peer) (m : DMsg) (t : Xfer) (hw : d.mem.wf = true) : (Dev.segRead d p m t).mem.wf = true := by
  unfold Dev.segRead
  dsimp only
  repeat' split
  all_goals first | with_reducible exact hw | simp only [hw, Dev.respondTo_mem, Dev.xferAbort_mem, Dev.take_memWf]

@[simp] theorem Dev.segDone_memWf (d : Dev) (a : Agent) (p : Peer) (m : DMsg) (t : Xfer) (bs : List Byte) (hw : d.mem.wf = true) : (Dev.segDone d a p m t bs).mem.wf = true := by
  unfold Dev.segDone
  dsimp only
  split
  · split
    · exact Dev.order_memWf _ _ _ hw
    · have h1 := Dev.dictWrite_memWf { d with dict := d.dict.close p m.tid.toNat } a t.index t.sub bs hw
      split
      · next d2 he => rw [he] at h1; rw [Dev.respondTo_mem]; exact h1
      · next d2 c _ he => rw [he] at h1; rw [Dev.abortTo_mem]; exact h1
  · rw [Dev.abortTo_mem]; exact hw

@[simp] theorem Dev.segWrite_memWf (d : Dev) (a : Agent) (p : Peer) (m : DMsg) (t : Xfer) (hw : d.mem.wf = true) : (Dev.segWrite d a p m t).mem.wf = true := by
  unfold Dev.segWrite
  dsimp only
  split
  · rw [Dev.respondTo_mem]; exact hw
  · split
    · rw [Dev.xferAbort_mem]; exact hw
    · split
      · rw [Dev.xferAbort_mem]; exact hw
      · split
        · rw [Dev.xferAbort_mem]; exact hw
        · generalize hx : (if t.index = 0x7100 ∧ (!d.mem.bootLock) = true then _ else d) = x
          have h1 : x.mem.wf = true := by
            rw [← hx]; split
            · exact (MemSys.wf_iff _).2 ⟨((MemSys.wf_iff _).1 hw).1, ((MemSys.wf_iff _).1 hw).2.1, Mem.wf_writeBytes _ _ _ ((MemSys.wf_iff _).1 hw).2.2⟩
            · exact hw
          split
          · exact Dev.segDone_memWf _ _ _ _ _ _ h1
          · rw [Dev.respondTo_mem]; exact h1

@[simp] theorem Dev.segServe_memWf (d : Dev) (a : Agent) (p : Peer) (m : DMsg) (hw : d.mem.wf = true) : (Dev.segServe d a p m).mem.wf = true := by
  unfold Dev.segServe
  repeat' split
  all_goals first | with_reducible exact hw | simp only [hw, Dev.abortTo_mem, Dev.segRead_memWf, Dev.segWrite_memWf]

@[simp] theorem Dev.writeServe_memWf (d : Dev) (a : Agent) (p : Peer) (m : DMsg) (hw : d.mem.wf = true) : (Dev.writeServe d a p m).mem.wf = true := by
  unfold Dev.writeServe
  extract_lets size
  clear_value size
  split
  · rw [Dev.abortTo_mem, hw]
  · split
    · rw [Dev.abortTo_mem, hw]
    · have h1 := Dev.dictWrite_memWf d a m.index.toNat m.sub.toNat m.data hw
      split
      · next d2 he => rw [he] at h1; rw [Dev.respondTo_mem]; exact h1
      · next d2 c _ he => rw [he] at h1; rw [Dev.abortTo_mem]; exact h1

@[simp] theorem Dev.serveReq_memWf (d : Dev) (q : DReq) (hw : d.mem.wf = true) : (Dev.serveReq d q).mem.wf = true := by
  unfold Dev.serveReq
  dsimp only
  repeat' split
  all_goals first | with_reducible exact hw | simp only [hw, Dev.abortTo_mem, Dev.readInit_mem, Dev.readServe_mem, Dev.writeInit_mem, Dev.segServe_memWf, Dev.writeServe_memWf]

@[simp] theorem Dev.serveNext_memWf (d : Dev) (hw : d.mem.wf = true) : (Dev.serveNext d).mem.wf = true := by
  unfold Dev.serveNext
  repeat' split
  all_goals first | with_reducible exact hw | simp only [hw, Dev.serveReq_memWf]

@[simp] theorem Dev.serveQueue_memWf (d : Dev) (hw : d.mem.wf = true) : (Dev.serveQueue d).mem.wf = true := by
  unfold Dev.serveQueue
  simp_all [foldl_memWf, CmdRes.devOf]

@[simp] theorem Dev.arrive_memWf (d : Dev) (typ : Nat) (p : Peer) (m : DMsg) (serve : Bool) (hw : d.mem.wf = true) : (Dev.arrive d typ p m serve).mem.wf = true := by
  unfold Dev.arrive
  repeat' split
  all_goals first | with_reducible exact hw | simp only [hw, Dev.busyTo_mem, Dev.emit_mem, Dev.serveQueue_memWf]

end Sys2Proof.Machine
end

