-- ==== Sys2Proof/WellFormed.lean ====
section
/-! DEFINITION. When a command's operands are what its sender can send: lists of the lengths the spec gives the things they
stand for. Numbers are bounded by their types. The machine gives a meaning to every command, well formed or not. -/

namespace Sys2Proof

/-- The data of a flit: at most 240 bytes (R394). -/
def flitWf (f : Flit) : Bool := decide (f.data.length ≤ 240)

/-- A dictionary message: at most 1,024 bytes of data (R521). -/
def dmsgWf (m : DMsg) : Bool := decide (m.data.length ≤ 1024)

/-- A nonce of SPDM 1.3: 32 bytes. -/
def nonceWf (n : List (BitVec 8)) : Bool := n.length == 32

/-- An order envelope: 64 bytes, its parameters, and the signature (R535). -/
def envWf (e : List (BitVec 8)) : Bool := decide (64 + 4627 ≤ e.length) && decide (e.length ≤ 7168)

/-- A command is well formed. -/
def Instr.wf : Instr → Bool
  | .flitReceive _ _ _ _ _ _ f => flitWf f
  | .credit _ ret => decide (ret.length ≤ 6)
  | .orderBind digest => digest.length == 64
  | .orderDebug env => envWf env
  | .rdmaWrite _ _ _ _ bytes _ => decide (1 ≤ bytes.length)
  | .dictRead _ m _ => dmsgWf m
  | .dictWrite _ m _ => dmsgWf m
  | .readInit _ m _ => dmsgWf m
  | .writeInit _ m _ => dmsgWf m
  | .seg _ m _ => dmsgWf m
  | .dictAbort _ m => dmsgWf m
  | .challenge _ nonce => nonceWf nonce
  | .getMeasurements _ sign nonce => !sign || nonceWf nonce
  | _ => true

end Sys2Proof
end

