-- ==== Sys2Proof/Tests/Slice0.lean ====
section
/-! SUPPORT. Tests: ill-formed commands that the checks refuse, the state after reset, and single commands on small states. What a
test expects comes from the rule or the worked example of the spec that it names. -/

namespace Sys2Proof.Tests

set_option Elab.async false

open Sys2Proof.Machine

/-! ### Well-formedness -/

theorem test_wf_flit_too_long : Instr.wf (.flitReceive 0 0 true 0 0 false ⟨4, false, false, 0, 1, 0, 0, 0, List.replicate 241 0⟩) = false := by decide +kernel
theorem test_wf_flit : Instr.wf (.flitReceive 0 0 true 0 0 false ⟨4, false, false, 0, 1, 0, 0, 0, List.replicate 240 0⟩) = true := by decide +kernel
theorem test_wf_credit_too_many : Instr.wf (.credit 0 (List.replicate 7 1)) = false := by decide
theorem test_wf_digest_short : Instr.wf (.orderBind (List.replicate 63 0)) = false := by decide
theorem test_wf_envelope_short : Instr.wf (.orderDebug (List.replicate 64 0)) = false := by decide
theorem test_wf_write_of_nothing : Instr.wf (.rdmaWrite 0 0 0 0 [] false) = false := by decide
theorem test_wf_message_too_long : ∀ m ∈ [DMsg.mk 1 1 0 0 0 0 0 0 0 (List.replicate 1025 0)],
    Instr.wf (.dictRead .box m true) = false ∧ Instr.wf (.dictWrite .box m true) = false ∧ Instr.wf (.readInit .box m true) = false ∧
    Instr.wf (.writeInit .box m true) = false ∧ Instr.wf (.seg .box m true) = false ∧ Instr.wf (.dictAbort .box m) = false := by decide +kernel
theorem test_wf_nonce_short : Instr.wf (.challenge 0 (List.replicate 31 0)) = false := by decide
theorem test_wf_measurement_nonce_short : Instr.wf (.getMeasurements 1 true []) = false := by decide
theorem test_wf_measurement_unsigned : Instr.wf (.getMeasurements 1 false []) = true := by decide

/-! ### Small states -/

/-- Thread 0 of station 0. -/
def h0 : Hart := ⟨0, 0⟩

/-- The state after reset with station 0 released. -/
def up : State := { State.reset with dev := State.reset.dev.updStn 0 (fun s => { s with held := false }) }

/-- A change of that state's device, of its station 0, of its thread 0. -/
def onD (f : Dev → Dev) : State := { up with dev := f up.dev }
def onS (f : Station → Station) : State := onD (fun d => d.updStn 0 f)
def onT (f : Thread → Thread) : State := onD (fun d => d.updThr h0 f)

/-- Registers set, in order. -/
def regs (l : List (Nat × Word)) (t : Thread) : Thread := l.foldl (fun u p => u.setG p.1 p.2) t

/-- The device a command answers. -/
def dev (i : Instr) (s : State) : Dev :=
  match exec i s with
  | .next t => t.dev
  | _ => s.dev

/-- Thread 0 and station 0 of that device. -/
def thr (i : Instr) (s : State) : Thread := (dev i s).thr h0
def st (i : Instr) (s : State) : Station := (dev i s).stn 0

/-- Translation on, with page 0 and the first page of the scratchpad held for ring 3. -/
def paged (s : Station) : Station :=
  { s with mmEn := true, tlb := [⟨0, 1, 0, 3, true, false, false, false, false, none⟩, ⟨0x10000000, 1, 0x10000000000, 3, true, false, false, false, false, none⟩] }

/-- The address of an offset of station 0's scratchpad. -/
def spA (o : Nat) : Word := BitVec.ofNat 64 (0x10000000000 + o)

/-! ### Reset and the queue -/

theorem test_reset_wf : State.reset.dev.mem.wf = true := by decide +kernel
theorem test_reset_idle : State.reset.pending = [] := rfl
theorem test_fetch_word_changes_nothing : (State.reset.withFetchWord 32 0) = State.reset := rfl
theorem test_table_gives_no_bits : decodeTableWord 32 0x24000000 = none := rfl
theorem test_step_takes_the_first : (match step { up with pending := [.addi h0 3 0 5, .addi h0 3 0 6] } with
    | .next t => t.pending == [.addi h0 3 0 6] && (t.dev.thr h0).gr 3 == 5
    | _ => false) = true := by decide +kernel
theorem test_idle_cycle : (match step up with
    | .next t => t.dev.now == 20 + up.dev.now && (t.dev.stn 0).cycle == 1 + (up.dev.stn 0).cycle && (t.dev.stn 1).cycle == (up.dev.stn 1).cycle
    | _ => false) = true := by decide +kernel
theorem test_held_station_turns_away : ((dev (.addi ⟨5, 0⟩ 3 0 5) State.reset).stn 5) = Station.cold := by decide +kernel

/-! ### The station core -/

theorem test_add_wraps : (thr (.add h0 3 1 2) (onT (regs [(1, 0xFFFFFFFFFFFFFFFF), (2, 2)]))).gr 3 = 1 := by decide +kernel
theorem test_g0_stays_zero : (thr (.addi h0 0 0 5) up).gr 0 = 0 := by decide +kernel
theorem test_sub_same_register : (thr (.sub h0 1 1 1) (onT (regs [(1, 7)]))).gr 1 = 0 := by decide +kernel
theorem test_sra_keeps_the_sign : (thr (.sra h0 3 1 2) (onT (regs [(1, 0x8000000000000000), (2, 127)]))).gr 3 = 0xFFFFFFFFFFFFFFFF := by decide +kernel
theorem test_slt_signed : (thr (.slt h0 3 1 0) (onT (regs [(1, 0xFFFFFFFFFFFFFFFF)]))).gr 3 = 1 := by decide +kernel
theorem test_sltu_unsigned : (thr (.sltu h0 3 1 0) (onT (regs [(1, 0xFFFFFFFFFFFFFFFF)]))).gr 3 = 0 := by decide +kernel
theorem test_clz_of_zero : (thr (.clz h0 3 0 0) up).gr 3 = 64 := by decide +kernel
theorem test_addw_sign_extends : (thr (.addw h0 3 1 2) (onT (regs [(1, 0x7FFFFFFF), (2, 1)]))).gr 3 = 0xFFFFFFFF80000000 := by decide +kernel
theorem test_shi_rotates : (thr (.shi h0 3 1 (192 + 4)) (onT (regs [(1, 0x1F)]))).gr 3 = 0xF000000000000001 := by decide +kernel
theorem test_lih_keeps_the_low_half : (thr (.lih h0 3 0 0 0 0xDEADBEEF) (onT (regs [(3, 0x1111111122222222)]))).gr 3 = 0xDEADBEEF22222222 := by decide +kernel
theorem test_sltiu_extends_the_sign_first : (thr (.sltiu h0 3 1 0x7FFF) (onT (regs [(1, 5)]))).gr 3 = 1 := by decide +kernel

/-- R71: the product lands four cycles later. -/
theorem test_mul_is_pending : (thr (.mul h0 0 1 2) (onT (regs [(1, 3), (2, 5)]))).mqPend.map (·.2) = [(0, 15)] := by decide +kernel
theorem test_mq_reads_the_old_value : (thr (.mfmq h0 3 0 0) (onT (fun t => { t with mq := t.mq.set 0 9, mqPend := [(4, 0, 15)] }))).gr 3 = 9 := by decide +kernel
/-- R73. -/
theorem test_div_by_zero : (thr (.div h0 3 1 0) (onT (regs [(1, 7)]))).gr 3 = 0xFFFFFFFFFFFFFFFF := by decide +kernel
theorem test_rem_by_zero : (thr (.rem h0 3 1 0) (onT (regs [(1, 7)]))).gr 3 = 7 := by decide +kernel
theorem test_div_overflow : (thr (.div h0 3 1 2) (onT (regs [(1, 0x8000000000000000), (2, 0xFFFFFFFFFFFFFFFF)]))).gr 3 = 0x8000000000000000 := by decide +kernel

/-- The example of guard bits and saturation (03_station_core.md), steps 2, 3 and 4. -/
theorem test_qmac_step2 : (thr (.qmac h0 0 1 2 0) (onT (regs [(1, 0x4000), (2, 0x6000)]))).ma.getD 0 0 = 0x003000000000000000 := by decide +kernel
theorem test_qmac_step3 : (thr (.qmac h0 0 3 4 0) (onT (fun t => regs [(3, 0x8000), (4, 0x8000)] { t with ma := t.ma.set 0 0x003000000000000000 }))).ma.getD 0 0
    = 0x00B000000000000000 := by decide +kernel
theorem test_qrnd_step4 : let t := thr (.qrnd h0 5 0 0 0) (onT (fun t => { t with ma := t.ma.set 0 0x00B000000000000000 }))
    t.gr 5 = 0x7FFF ∧ t.fxSat = true := by decide +kernel
theorem test_qmul_of_minus_one : (thr (.qmul h0 3 1 1 0) (onT (regs [(1, 0x8000)]))).gr 3 = 0x7FFF := by decide +kernel

/-- R62, R63. -/
theorem test_beq_taken : (thr (.beq h0 0 0 0xFFF) (onT (fun t => { t with pc := 0x100 }))).pc = 0xFC := by decide +kernel
theorem test_bne_not_taken : (thr (.bne h0 0 0 0xFFF) (onT (fun t => { t with pc := 0x100 }))).pc = 0x104 := by decide +kernel
theorem test_call_links : let t := thr (.call h0 3) (onT (fun t => { t with pc := 0x100 }))
    t.pc = 0x10C ∧ t.gr 30 = 0x104 := by decide +kernel
theorem test_jr_reads_before_it_writes : let t := thr (.jr h0 5 5 0) (onT (fun t => regs [(5, 0x200)] { t with pc := 0x100 }))
    t.pc = 0x200 ∧ t.gr 5 = 0x104 := by decide +kernel
theorem test_jr_misaligned : let t := thr (.jr h0 5 5 2) (onT (regs [(5, 0x200)]))
    t.xcause.getD 0 0 = 3 ∧ t.xaddr.getD 0 0 = 0x202 ∧ t.gr 5 = 0x200 := by decide +kernel

/-- R79 to R81. -/
theorem test_loop_enters : let t := thr (.loop h0 0 0 3) (onT (fun t => { t with pc := 0x100, lc := t.lc.set 0 2 }))
    t.pc = 0x104 ∧ t.lhead.getD 0 0 = 0x104 ∧ t.ltail.getD 0 0 = 0x10C ∧ t.act 0 = true := by decide +kernel
theorem test_loop_of_zero_skips : let t := thr (.loop h0 0 0 3) (onT (fun t => { t with pc := 0x100 }))
    t.pc = 0x110 ∧ t.act 0 = false := by decide +kernel
theorem test_loop_goes_round : let t := thr (.nop h0 0 0 0) (onT (fun t => { t with
      pc := 0x10C, lhead := t.lhead.set 0 0x104, ltail := t.ltail.set 0 0x10C, lrem := t.lrem.set 0 2, lflags := 1 }))
    t.pc = 0x104 ∧ t.lrem.getD 0 0 = 1 := by decide +kernel

/-- R58, R93. -/
theorem test_nop_with_a_register_is_illegal : let t := thr (.nop h0 3 0 0) up
    t.xcause.getD 0 0 = 1 ∧ t.xaddr.getD 0 0 = 0xF8600002 := by decide +kernel

/-! ### Memory access of the core -/

theorem test_lb_sign : (thr (.lb h0 3 1 0 true) (onS (fun s => { s.updThr 0 (regs [(1, spA 8)]) with sp := s.sp.set 8 0x80 }))).gr 3 = 0xFFFFFFFFFFFFFF80 := by decide +kernel
theorem test_lbu_zero : (thr (.lbu h0 3 1 0 true) (onS (fun s => { s.updThr 0 (regs [(1, spA 8)]) with sp := s.sp.set 8 0x80 }))).gr 3 = 0x80 := by decide +kernel
theorem test_sh_little_endian : let m := (st (.sh h0 2 1 0 true) (onT (regs [(1, spA 16), (2, 0x12345678)]))).sp
    m.get 16 = 0x78 ∧ m.get 17 = 0x56 ∧ m.get 18 = 0 := by decide +kernel
theorem test_lw_misaligned : (thr (.lw h0 3 1 2 true) (onT (regs [(1, spA 0)]))).xcause.getD 0 0 = 3 := by decide +kernel
theorem test_load_miss_waits : let t := thr (.ld h0 3 1 0 false) (onT (regs [(1, 0x1000), (3, 7)]))
    t.gr 3 = 7 ∧ t.pc = 0 ∧ t.wait ≠ .ready := by decide +kernel
theorem test_store_is_posted : (thr (.sd h0 2 1 0 true) (onT (regs [(1, 0x1000), (2, 7)]))).acks = 1 := by decide +kernel
/-- R67: the old word is sign-extended. -/
theorem test_aadd_w : let s := onS (fun s => { s.updThr 0 (regs [(1, spA 0), (2, 1)]) with sp := s.sp.writeBytes 0 [0xFF, 0xFF, 0xFF, 0xFF] })
    (thr (.aaddW h0 3 1 2) s).gr 3 = 0xFFFFFFFFFFFFFFFF ∧ ((st (.aaddW h0 3 1 2) s).sp.readBytes 0 4) = [0, 0, 0, 0] := by decide +kernel
theorem test_atomic_outside_a_scratchpad : (thr (.aswapD h0 3 1 2) (onT (regs [(1, 0x1000)]))).xcause.getD 0 0 = 0x0A := by decide +kernel
/-- The frame of the example of CALLM (03_station_core.md), in the scratchpad. -/
theorem test_callm_frame : let s := onT (fun t => regs [(6, 0x66), (7, 0x77), (8, 0x88), (30, 0x30), (31, spA 0x100)] { t with pc := 0x400 })
    let x := dev (.callm h0 4 0x400001C0 true) s
    (x.thr h0).gr 31 = spA (0x100 - 48) ∧ (x.thr h0).gr 30 = 0x408 ∧ (x.thr h0).pc = 0x410 ∧
    ((List.range 5).map (fun k => ((x.stn 0).sp.get (0xD0 + 8 * k), (x.stn 0).sp.get (0xD1 + 8 * k)))) = [(8, 4), (0x66, 0), (0x77, 0), (0x88, 0), (0x30, 0)] := by
  decide +kernel
theorem test_fence_waits : (thr (.fence h0 0 0 0) (onT (fun t => { t with acks := 1 }))).wait = .fence := by decide +kernel

/-! ### Control registers, gates, exceptions -/

theorem test_mfc_hart : (thr (.mfc ⟨0, 0⟩ 3 0 0x001) up).gr 3 = 0 := by decide +kernel
theorem test_mfc_unassigned : (thr (.mfc h0 3 0 0xFFF) up).xcause.getD 0 0 = 1 := by decide +kernel
theorem test_mtc_of_a_ring_0_register_in_ring_3 : let t := thr (.mtc h0 0 1 0x142) (onS (fun s => paged (s.updThr 0 (fun t => { t with status := 3 }))))
    t.xcause.getD 0 0 = 2 ∧ t.ring = 0 := by decide +kernel
/-- The example of R103: gate 5 of GTAB0 = 0xA8 in byte 5, called in ring 3. -/
theorem test_gate_5 : let t := thr (.gate h0 0 0 5) (onS (fun s => { paged (s.updThr 0 (fun t => regs [(31, 0x500)] { t with status := 3, pc := 0x100, gateSp := t.gateSp.set 2 0x9000 })) with
      gtab := s.gtab.set 0 (BitVec.ofNat 64 (0xA8 * 2 ^ 40)), gatePc := s.gatePc.set 2 0x8000 }))
    t.pc = 0x8140 ∧ t.gr 31 = 0x9000 ∧ t.xsp.getD 2 0 = 0x500 ∧ t.xpc.getD 2 0 = 0x104 ∧ t.ring = 2 := by decide +kernel
theorem test_gate_disabled : (thr (.gate h0 0 0 5) up).xcause.getD 0 0 = 0x50C := by decide +kernel
theorem test_xret : let t := thr (.xret h0 0 0 0) (onT (fun t => { t with
      status := 0x1000, xst := t.xst.set 0 0x10007, xpc := t.xpc.set 0 0x44, xsp := t.xsp.set 0 0x88 }))
    t.pc = 0x44 ∧ t.gr 31 = 0x88 ∧ t.status = 7 ∧ t.lflags = 1 := by decide +kernel
/-- The example of an invalid stack pointer (04_privilege_and_exceptions.md): an entry to an occupied ring locks the station up. -/
theorem test_lockup : let x := dev (.sd h0 1 0 1 true) (onT (fun t => { t with status := 0x1000 }))
    (x.stn 0).locked = true ∧ x.cfatal = true ∧ (x.thr h0).pc = 0 := by decide +kernel
theorem test_tstop_of_thread_0 : (thr (.tstop h0 0 0 0) up).xcause.getD 0 0 = 1 := by decide +kernel
theorem test_interrupt : let t := thr (.interruptEntry h0) (onS (fun s => { s.updThr 0 (fun t => { t with status := 4, ipend := 2, imask := 2, pc := 0x40 }) with xvec := s.xvec.set 0 0x10000 }))
    t.pc = 0x10000 + 64 * 33 ∧ t.xpc.getD 0 0 = 0x40 ∧ t.xcause.getD 0 0 = 0x8000000000000021 := by decide +kernel

/-! ### The vector unit -/

/-- Fields of format V: vd, vs1, vs2, ET. -/
def vf (vd vs1 vs2 : Fin 32) (et : BitVec 5) : VF := ⟨0, 0, false, et, 0, false, 0, vd, vs1, vs2⟩

/-- Elements of a width as a register. -/
def vec (wd : Nat) (l : List Nat) : BitVec 16384 := BitVec.ofNat 16384 ((l.zipIdx.map (fun p => p.1 * 2 ^ (wd * p.2))).sum)

/-- The first n elements of a register. -/
def elems (t : Thread) (r wd n : Nat) : List Nat := (List.range n).map (fun i => (t.v.getD r 0).toNat / 2 ^ (wd * i) % 2 ^ wd)

/-- The strip-mined loop (03_station_core.md): SETVL of −1 at e64 gives the most elements a register holds. -/
theorem test_setvl : let t := thr (.setvl h0 { vf 9 9 0 0 with imm := 3 }) (onT (regs [(9, 0xFFFFFFFFFFFFFFFF)]))
    t.gr 9 = 256 ∧ t.vl = 256 ∧ t.sew = 3 := by decide +kernel
theorem test_vadd_wraps_and_stops_at_vl : let t := thr (.vadd h0 (vf 3 1 2 4)) (onT (fun t => { t with vl := 2, v := (((t.v.set 1 (vec 8 [255, 1, 9])).set 2 (vec 8 [2, 2, 2])).set 3 (vec 8 [7, 7, 7])) }))
    elems t 3 8 3 = [1, 3, 7] := by decide +kernel
theorem test_masked_off_zeroes : let t := thr (.vadd h0 { vf 3 1 2 4 with km := 1, zm := true }) (onT (fun t => { t with
      vl := 2, k := t.k.set 1 2, v := (((t.v.set 1 (vec 8 [255, 1])).set 2 (vec 8 [2, 2])).set 3 (vec 8 [7, 7])) }))
    elems t 3 8 2 = [0, 3] := by decide +kernel
theorem test_vmulh_signed : elems (thr (.vmulh h0 (vf 3 1 2 0)) (onT (fun t => { t with vl := 1, v := (t.v.set 1 (vec 8 [0x80])).set 2 (vec 8 [0x80]) }))) 3 8 1 = [0x40] := by decide +kernel
theorem test_vqadd_saturates : let x := st (.vqadd h0 (vf 3 1 2 14)) (onT (fun t => { t with vl := 1, v := (t.v.set 1 (vec 16 [0x7FFF])).set 2 (vec 16 [1]) }))
    elems (x.thr 0) 3 16 1 = [0x7FFF] ∧ x.vq.map (·.ev.sat) = [true] := by decide +kernel
/-- 1.0 + 2^-24 in FP32, to nearest even and up. -/
theorem test_vfadd_rounds : elems (thr (.vfadd h0 (vf 3 1 2 9)) (onT (fun t => { t with vl := 1, v := (t.v.set 1 (vec 32 [0x3F800000])).set 2 (vec 32 [0x33800000]) }))) 3 32 1 = [0x3F800000] := by
  decide +kernel
theorem test_vfadd_rounds_up : elems (thr (.vfadd h0 { vf 3 1 2 9 with rm := 3 }) (onT (fun t => { t with vl := 1, v := (t.v.set 1 (vec 32 [0x3F800000])).set 2 (vec 32 [0x33800000]) }))) 3 32 1 = [0x3F800001] := by
  decide +kernel
theorem test_vfdiv_by_zero : let x := st (.vfdiv h0 (vf 3 1 2 9)) (onT (fun t => { t with vl := 1, v := t.v.set 1 (vec 32 [0xBF800000]) }))
    elems (x.thr 0) 3 32 1 = [0xFF800000] ∧ x.vq.map (·.ev.dz) = [true] := by decide +kernel
theorem test_vcmp_lt_unordered : let x := st (.vcmp h0 { vf 1 1 2 9 with imm := 2 }) (onT (fun t => { t with vl := 2, v := (t.v.set 1 (vec 32 [0x7FC00000, 0])).set 2 (vec 32 [0, 0x3F800000]) }))
    ((x.thr 0).k.getD 1 0).toNat % 4 = 2 ∧ x.vq.map (·.ev.nv) = [true] := by decide +kernel
theorem test_vslideup : elems (thr (.vslideup h0 (vf 3 1 2 4)) (onT (fun t => regs [(2, 1)] { t with vl := 3, v := (t.v.set 1 (vec 8 [5, 6, 7])).set 3 (vec 8 [1, 1, 1]) }))) 3 8 3 = [1, 5, 6] := by
  decide +kernel
/-- R135: (1 + 2) + (3 + 4) in FP32. -/
theorem test_vrsum : elems (thr (.vrsum h0 (vf 3 1 2 9)) (onT (fun t => regs [(2, 4)] { t with vl := 4, v := t.v.set 1 (vec 32 [0x3F800000, 0x40000000, 0x40400000, 0x40800000]) }))) 3 32 1
    = [0x41200000] := by decide +kernel
/-- The example of VTOPK (05_long_vectors.md): 2.0, NaN, 5.0, 5.0, −1.0, +0.0, 7.5, −0.0 with k = 10 and base index 1,000. -/
theorem test_vtopk : let t := thr (.vtopk h0 { vf 3 1 2 9 with vs3 := 4, imm := 5 }) (onT (fun t => regs [(2, 10), (5, 1000)] { t with
      vl := 8, v := t.v.set 1 (vec 32 [0x40000000, 0x7FC00000, 0x40A00000, 0x40A00000, 0xBF800000, 0, 0x40F00000, 0x80000000]) }))
    elems t 4 32 10 = [1001, 1006, 1002, 1003, 1000, 1005, 1007, 1004, 0xFFFFFFFF, 0xFFFFFFFF] ∧
    elems t 3 32 10 = [0x7FC00000, 0x40F00000, 0x40A00000, 0x40A00000, 0x40000000, 0, 0x80000000, 0xBF800000, 0xFF800000, 0xFF800000] := by decide +kernel
theorem test_vcvt_to_bf16_ties_to_even : elems (thr (.vcvt h0 { vf 3 1 0 11 with imm := 9 }) (onT (fun t => { t with vl := 2, v := t.v.set 1 (vec 32 [0x3F808000, 0x3F818000]) }))) 3 16 2
    = [0x3F80, 0x3F82] := by decide +kernel
theorem test_vld_stride_zero : elems (thr (.vlds h0 ⟨0, 0, false, 4, 0, false, 0, 3, 1, 0⟩ true) (onS (fun s => { s.updThr 0 (fun t => regs [(1, spA 8)] { t with vl := 3 }) with sp := s.sp.set 8 9 }))) 3 8 3
    = [9, 9, 9] := by decide +kernel
theorem test_vst_masked : let m := (st (.vst h0 ⟨0, 1, false, 4, 0, false, 0, 3, 1, 0⟩ true) (onT (fun t => regs [(1, spA 8)] { t with vl := 3, k := t.k.set 1 5, v := t.v.set 3 (vec 8 [1, 2, 3]) }))).sp
    m.readBytes 7 5 = [0, 1, 0, 3, 0] := by decide +kernel
/-- R93, R132: the lowest misaligned element. -/
theorem test_vld_misaligned : let t := thr (.vlds h0 ⟨0, 0, false, 1, 0, false, 0, 3, 1, 2⟩ true) (onT (fun t => regs [(1, spA 0), (2, 1)] { t with vl := 3 }))
    t.xcause.getD 0 0 = 3 ∧ t.vfault = 1 ∧ t.xaddr.getD 0 0 = spA 1 := by decide +kernel
theorem test_vector_flags_stick_at_completion : let x := dev (.vectorInstructionComplete 0) (onS (fun s => { s with
      vq := [⟨0, { Ev.none with nx := true }, none, 0, 0, 0, false, false, 1⟩] }))
    (x.thr h0).vflags = ({ Ev.none with nx := true }).vuBits ∧ (x.stn 0).vq = [] := by decide +kernel

/-! ### Number formats -/

/-- The block of 16 FP32 values of 08_number_formats.md: 1,000.0, 3.1, −0.01 and zeros, in KO-16 FP8 E4M3. -/
theorem test_ko16_scale : blockScale 5 ([0x447A0000, 0x40466666, 0xBC23D70A, 0].map fp32.decode) = 0x80 := by decide +kernel
theorem test_ko16_elements : [0x447A0000, 0x40466666, 0xBC23D70A, 0].map (fun x => blockElem .rne 5 0x80 (fp32.decode x)) =
    [(0x7E, { Ev.none with sat := true, nx := true }), (0x3C, { Ev.none with nx := true }), (0x83, { Ev.none with uf := true, nx := true }), (0, Ev.none)] := by
  decide +kernel
/-- The example of one rounding and its error term: 1 + 3 × 2^−25 commits as 0x3F80_0001 and −2^−25. -/
theorem test_commit_example : commitFp fp32 false [] (passOf 4 (fun k => bf16.decode (if k = 0 then 0x3F80 else 0x3980)) (fun k => bf16.decode (if k = 0 then 0x3F80 else 0x3900)))
    = (0x3F800001, 0xB3000000, { Ev.none with nx := true }, none) := by decide +kernel

/-! ### Tiles and the engine -/

/-- The owner is thread 0. -/
def owned (f : Station → Station) : State := onS (fun s => f { s with owner := some 0 })

/-- The shapes of the examples of 06_tile_registers.md. -/
theorem test_tshape : (st (.tshape h0 ⟨0, 1, 0, 2, 0⟩) (owned (fun s => s.updThr 0 (regs [(1, 0x05080200)])))).tcfg.getD 2 0 = 0x05080200 := by decide +kernel
theorem test_tshape_too_large : (thr (.tshape h0 ⟨0, 0, 0, 2, 0x05080400⟩) (owned id)).xcause.getD 0 0 = 0x0E := by decide +kernel
theorem test_tshape_fp6_of_64_bytes : (thr (.tshape h0 ⟨0, 0, 0, 2, 0x07040040⟩) (owned id)).xcause.getD 0 0 = 0x0E := by decide +kernel
theorem test_tshape_needs_the_owner : (thr (.tshape h0 ⟨0, 0, 0, 2, 0x05080200⟩) up).xcause.getD 0 0 = 0x0F := by decide +kernel
theorem test_meb_of_a_wrong_shape : let t := thr (.meb h0 ⟨0, 0, 0, 2, 5⟩) (owned (fun s => { s with tcfg := s.tcfg.set 2 0x05100100 }))
    t.xcause.getD 0 0 = 0x0D ∧ t.tcFault = 0x4510010005084200 := by decide +kernel
theorem test_tacq_try_fails : (thr (.tacq h0 ⟨3, 0, 0, 0, 1⟩) (onS (fun s => { s.updThr 0 (regs [(3, 9)]) with owner := some 1 }))).gr 3 = 0 := by decide +kernel
theorem test_twv : let x := st (.twv h0 ⟨3, 1, 0, 0, 0⟩) (owned (fun s => { s.updThr 0 (fun t => regs [(1, 1)] { t with v := t.v.set 3 (vec 8 [1, 2, 3]) }) with tcfg := s.tcfg.set 0 0x0C010002 }))
    (x.tile 0).readBytes 15 4 = [0, 1, 2, 3] := by decide +kernel
theorem test_meacc_zero_queues : ((st (.meacc h0 ⟨0, 0, 0, 0, 256⟩) (owned id)).eng.queue.map (·.kind)) = [.meacc true 0 0] := by decide +kernel
theorem test_meacc_end_zeroes : (st (.meaccEnd 0) (owned (fun s => { s with eng := { s.eng with
      queue := [⟨0, .meacc true 0 0, none, false, none⟩], acc0 := ⟨Tab.empty.set 5 7, none⟩ } }))).eng.acc0.get 0 5 = 0 := by decide +kernel
theorem test_ballast_rises : (st (.ballastStep 0) (onS (fun s => { s with eng := { s.eng with rising := true } }))).eng.level = 1 := by decide +kernel

/-! ### Timetable and power -/

/-- The device RUNNING with a change. -/
def on (f : Dev → Dev) : State := onD (fun d => f { d with pw := { d.pw with state := .running } })

/-- The example of capping (22_power_clocks_reset.md): CAP 3,000, HYST 100; power in W and temperature in 1/16 degrees. -/
def capped (l : Nat) : State := on (fun d => { d with capL := l, pw := { d.pw with cap := 3000, hyst := 100, capEn := true } })
theorem test_cap_falls : (dev (.tickBoundary 3400 1536 0) (capped 8)).capL = 7 := by decide +kernel
theorem test_cap_holds : (dev (.tickBoundary 2975 1552 0) (capped 6)).capL = 6 := by decide +kernel
theorem test_cap_thermal : (dev (.tickBoundary 2975 1608 0) (capped 6)).capL = 4 := by decide +kernel
theorem test_cap_rises : (dev (.tickBoundary 2550 1584 0) (capped 4)).capL = 5 := by decide +kernel
theorem test_tick_counts : let x := dev (.tickBoundary 0 0 0) (on id)
    x.tt.tick = 1 ∧ x.now = 1000000 * 17 := by decide +kernel
/-- The example of halt timing (02_timetable.md): an order 0.730 ms after boundary 5,000 with a lead of 50 µs. -/
theorem test_halt_order : (dev .orderHalt (on (fun d => { d with now := 730000 * 17, tt := { d.tt with tick := 5000, lead := 50 } }))).tt.halt = some (5001, 780000 * 17, 1) := by
  decide +kernel
theorem test_period_out_of_range : let x := dev (.ttPeriodWrite h0 99999) up
    x.tt.period = 1000000 ∧ x.tt.err = 0x10 := by decide +kernel
theorem test_enable_with_a_bad_table : let x := dev (.enable h0 1) up
    x.tt.enable = false ∧ x.tt.err = 0x20 ∧ x.tt.errIdx = 63 := by decide +kernel

/-! ### Links, junction, dictionary, recorder -/

theorem test_link_trains : ((dev (.linkEnable h0 3 1) (onD (fun d => { d with links := d.links.set 3 { Link.reset with signal := true } }))).link 3).state = 1 := by decide +kernel
theorem test_caps_of_another_version : ((dev (.caps 3 4 2 2 7 0xFF) (onD (fun d => { d with links := d.links.set 3 { Link.reset with state := 3, trained := 0xFF } }))).link 3).state = 5 := by decide +kernel
theorem test_bad_crc_asks_again : let x := dev (.flitReceive 3 0 false 0 0 false ⟨4, false, false, 0, 1, 0, 0, 0, []⟩) (onD (fun d => { d with links := d.links.set 3 { Link.reset with state := 4, rxNext := 5 } }))
    x.out = [.nak 3 4] ∧ (x.link 3).fail = 1 := by decide +kernel
theorem test_route_write_of_no_link : (dev (.routeDataAccess h0 (some 30)) up).jn.routes.getD 0 0x1F = 0x1F := by decide +kernel
/-- R450: a PROD more than the ring holds sets LD_ERR.OVERRUN. -/
theorem test_doorbell_overrun : (dev (.prod 3 17) up).host.ld.err = 1 ∧ ((dev (.prod 3 16) up).host.ld.sqs.getD 3 Sq.reset).prod = 16 := by decide +kernel
theorem test_dictionary_device_type : (dev (.dictRead .box ⟨1, 1, 9, 0x1000, 0, 0, 0xFFFF, 0, 0, []⟩ true) (on id)).out = [.dict .box 0x81 9 0x1000 0 0 0 [1, 0, 0, 0]] := by decide +kernel
theorem test_dictionary_no_object : (dev (.dictRead .box ⟨1, 1, 9, 0x1FFF, 0, 0, 0xFFFF, 0, 0, []⟩ true) (on id)).out = [.dict .box 0x86 9 0x1FFF 0 0 0x06020000 []] := by decide +kernel
/-- The entry of the lockup of station 77 (19_reliability_and_recorder.md). -/
theorem test_recorder_entry : ((dev .recorderQueueDrain (onD (fun d => { d with rc := { Rec.reset with nextSeq := 48213, queue := [⟨1204331, 412017, 1, 1, 4, 2, 0xB7, 77, 0x09070102, true⟩] } }))).rc.ring.getD 0 0)
    = 0x0000BC550000000009070102004D00B72C01000100064971000000000012606B := by decide +kernel
theorem test_bypass : (dev (.jtagTapOperation (.dr [true, true])) (onD (fun d => { d with tap := { d.tap with ir := 0xFF } }))).out = [.tdo [some false, some true]] := by decide +kernel
theorem test_scratchpad_off_loses_its_contents : let x := st (.spPowerDown 0) (onS (fun s => { s with spTarget := 2, sp := s.sp.set 1 1 }))
    x.spState = 2 ∧ x.sp.get 1 = 0 := by decide +kernel
theorem test_gather_element_out_of_range_fails : let x := st (.geStart h0 0 3) (onS (fun s => { s with ge := s.ge.set 3 { GStream.reset with cfg := 0xCE, spoff := 0x7FFFF8, count := 2 } }))
    (x.stream 3).state = 3 ∧ x.geFault = 8 := by decide +kernel
theorem test_go_of_a_busy_channel : (dev (.shGo h0 8 2 1) (onD (fun d => { d with sh := { d.sh with chans := d.sh.chans.set 130 { Chan.reset with mode := 2 } } }))).sh.gobusy.getD 8 0 = 4 := by
  decide +kernel
theorem test_transfer_copies : let x := dev (.transferEnd 8 2 [] 0) (onD (fun d => { d with
      mem := { d.mem with gddr := d.mem.gddr.set 0x1000 7 },
      sh := { d.sh with chans := d.sh.chans.set 130 { Chan.reset with ctx := 1, mode := 2, cur := { Desc.zero with src := 0x1000, dst := 0x2000, count := 4, ctl := 0x4000 } } } }))
    x.mem.gddr.get 0x2000 = 7 ∧ (x.sh.chans.getD 130 Chan.reset).status = 0 ∧ x.sh.ended.getD 8 0 = 4 := by decide +kernel
theorem test_vin_loss : let x := dev .vinLoss up
    x.pw.state = .standby ∧ x.mem.gddr = Mem.empty ∧ x.rc.queue.length = 2 := by decide +kernel

end Sys2Proof.Tests
end

