-- ==== Sys2Proof/Tests/Witness.lean ====
section
/-! SUPPORT. For every statement with hypotheses, concrete states and operands that meet them, clause by clause: the station core, its
memory accesses, control registers, threads and exceptions. -/

namespace Sys2Proof.Tests

set_option Elab.async false

open Sys2Proof.Machine

set_option maxRecDepth 100000

/-! ### The block -/

theorem witness_StepRunsFrontCommand : ({ up with pending := [.nop h0 0 0 0] } : State).pending = .nop h0 0 0 0 :: [] := rfl
theorem witness_CommandsRunInOrder : ({ up with pending := [.nop h0 0 0 0, .haltN, .phaseEnd] } : State).pending = [.nop h0 0 0 0, .haltN] ++ [.phaseEnd] := rfl
theorem witness_EveryStepKeepsMemoryForm : State.reset.memWf ∧ ∃ t, step State.reset = .next t := ⟨by unfold State.memWf; decide +kernel, _, rfl⟩

/-! ### The station core -/

/-- The device once the words at thread 0's PC have been fetched. -/
def fetched (s : State) : Dev :=
  match s.dev.fetch h0 4 with
  | .ok d => d
  | .error _ => s.dev
theorem issues4 : Cert.Issues up.dev h0 4 up.dev := ⟨by decide +kernel, by decide +kernel, rfl⟩
theorem issues8 : Cert.Issues up.dev h0 8 up.dev := ⟨by decide +kernel, by decide +kernel, rfl⟩

/-- An instruction of thread 0 issues on a changed station. -/
theorem issuesOn (s : State) (len : Nat) (h1 : s.dev.canIssue h0 = true) (h2 : s.dev.boundary h0 = none) (h3 : s.dev.fetch h0 len = .ok s.dev) :
    Cert.Issues s.dev h0 len s.dev := ⟨h1, h2, h3⟩

theorem witness_IntegerResults : (∃ v, Cert.intRule (.add h0 3 1 2) = some (h0, 4, 3, v)) ∧ (∃ v, Cert.intRule (.li h0 3 0 0 0 7) = some (h0, 8, 3, v)) ∧
    Cert.Issues up.dev h0 4 up.dev ∧ Cert.Issues up.dev h0 8 up.dev := ⟨⟨_, rfl⟩, ⟨_, rfl⟩, issues4, issues8⟩
theorem witness_MultiplyAndDivideResults : (∃ v, Cert.mqRule (.mul h0 3 1 2) = some (h0, 3, v)) ∧ (∃ v, Cert.mdRule (.div h0 3 1 2) = some (h0, 36, 3, v)) ∧
    Cert.Issues up.dev h0 4 up.dev := ⟨⟨_, rfl⟩, ⟨_, rfl⟩, issues4⟩
theorem witness_FixedPointResults : (∃ f, Cert.qRule (.qmac h0 1 1 2 2) = some (h0, f)) ∧ Cert.Issues up.dev h0 4 up.dev := ⟨⟨_, rfl⟩, issues4⟩
theorem witness_BranchAndJumpResults : Cert.Issues up.dev h0 4 up.dev ∧ (∃ c, Cert.branchRule (.beq h0 0 0 1) = some (h0, 1, c) ∧ c (up.dev.thr h0) = true) ∧
    (∃ c, Cert.branchRule (.bne h0 0 0 1) = some (h0, 1, c) ∧ c (up.dev.thr h0) = false) := ⟨issues4, ⟨_, rfl, by decide +kernel⟩, ⟨_, rfl, by decide +kernel⟩⟩
theorem witness_BranchAndJumpResults_jr : ((up.dev.thr h0).gr 5 + Cert.w (BitVec.toInt (4 : BitVec 15))).toNat % 4 = 0 ∧
    ((up.dev.thr h0).gr 5 + Cert.w (BitVec.toInt (1 : BitVec 15))).toNat % 4 ≠ 0 := by decide +kernel

/-- Thread 0 at 0x100 with loop count 2. -/
def counting : State := onT (fun t => { t with pc := 0x100, lc := t.lc.set 0 2 })
theorem witness_LoopResults : (∃ c, Cert.loopRule (.loop h0 0 0 3) = some (h0, 0, 4, 12, c)) ∧ Cert.Issues counting.dev h0 4 counting.dev ∧
    (∃ pa e, counting.dev.translate 0 (counting.dev.thr h0).ring .fetch (.core 4) 0x10C = .ok pa e) ∧ (counting.dev.thr h0).lc.getD 0 0 ≠ 0 :=
  ⟨⟨_, rfl⟩, ⟨by decide +kernel, by decide +kernel, rfl⟩, ⟨_, _, rfl⟩, by decide +kernel⟩
theorem witness_LoopResults_skip : (∃ c, Cert.loopRule (.loop h0 1 0 3) = some (h0, 1, 4, 12, c)) ∧ (counting.dev.thr h0).lc.getD 1 0 = 0 ∧
    Cert.Close counting.dev 0x10C 1 := ⟨⟨_, rfl⟩, by decide +kernel, by decide +kernel, by decide +kernel, by decide +kernel, by decide +kernel⟩
theorem witness_LoopResults_fault : let s := onS paged
    (∃ c, Cert.loopRule (.loop h0 0 0 0x3FFF) = some (h0, 0, 4, 65532, c)) ∧ Cert.Issues s.dev h0 4 (fetched s) ∧
    (fetched s).translate 0 ((fetched s).thr h0).ring .fetch (.core 4) 65532 = .fault 4 := ⟨⟨_, rfl⟩, ⟨by decide +kernel, by decide +kernel, rfl⟩, by decide +kernel⟩
/-- A thread at the tail of its active loops. -/
def atTail (act : BitVec 3) (l0 l1 : BitVec 24) : Thread :=
  { Thread.reset with pc := 0x40, lflags := act, lrem := (Tab.empty.set 0 l0).set 1 l1, ltail := (Tab.empty.set 0 0x40).set 1 0x40 }
theorem witness_LoopResults_check : (atTail 1 2 0).act 0 = true ∧ (atTail 1 2 0).ltail.getD 0 0 = (atTail 1 2 0).pc ∧ ¬ (atTail 1 2 0).act 1 = true ∧
    1 < ((atTail 1 2 0).lrem.getD 0 0).toNat ∧ ((atTail 1 1 0).lrem.getD 0 0).toNat ≤ 1 ∧ (atTail 7 1 2).act 0 = true ∧ (atTail 7 1 2).act 1 = true ∧
    (atTail 7 1 2).lflags.getLsbD 2 = decide (1 = 1) ∧ ¬ (atTail 0 2 0).act 0 = true := by decide +kernel
theorem witness_ReservedFieldsAreIllegal : (∃ b, Cert.illRule (.nop h0 3 0 0) = some (h0, 4, b)) ∧ Cert.Issues up.dev h0 4 up.dev := ⟨⟨_, rfl⟩, issues4⟩

/-! ### Memory access -/

/-- Thread 0 with g1 at an address. -/
def at1 (a : Word) : State := onT (regs [(1, a), (2, 5)])
theorem issuesAt (a : Word) (h1 : (at1 a).dev.canIssue h0 = true) (h2 : (at1 a).dev.boundary h0 = none) (h3 : (at1 a).dev.fetch h0 4 = .ok (at1 a).dev) :
    Cert.Issues (at1 a).dev h0 4 (at1 a).dev := ⟨h1, h2, h3⟩

theorem witness_LoadResults_misaligned : (∃ op, Cert.ldRule (.lw h0 3 1 0 true) = some (h0, 3, 1, 0, 4, true, true, op)) ∧
    Cert.Issues (at1 (spA 2)).dev h0 4 (at1 (spA 2)).dev ∧ ((at1 (spA 2)).dev.thr h0).gr 1 + Cert.w 0 = spA 2 ∧ (spA 2).toNat % 4 ≠ 0 :=
  ⟨⟨_, rfl⟩, ⟨by decide +kernel, by decide +kernel, rfl⟩, by decide +kernel, by decide +kernel⟩
theorem witness_LoadResults_fault : (at1 0x7F0000000000).dev.needsWalk 0 0x7F0000000000 = false ∧
    (at1 0x7F0000000000).dev.translate 0 0 .load (.core 8) 0x7F0000000000 = .fault 8 := by decide +kernel
theorem witness_LoadResults_scratch : (∃ pa e, Cert.At (at1 (spA 8)).dev h0 .load (.core 8) (spA 8) pa e) ∧ Cert.Scratch (at1 (spA 8)).dev 0 (spA 8).toNat 8 8 :=
  ⟨⟨_, _, by decide +kernel, rfl⟩, by decide +kernel, by decide +kernel, by decide +kernel⟩
theorem witness_LoadResults_close : (∃ e, Cert.At (at1 0x1000).dev h0 .load (.core 8) 0x1000 0x1000 e ∧ e.dev = false) ∧ Cert.Close (at1 0x1000).dev 0x1000 8 ∧
    region 0x1000 = .gddr ∧ ((at1 0x1000).dev.stn 0).slots < 64 :=
  ⟨⟨_, ⟨by decide +kernel, rfl⟩, rfl⟩, ⟨by decide +kernel, by decide +kernel, by decide +kernel, by decide +kernel⟩, by decide +kernel, by decide +kernel⟩
theorem witness_StoreResults : Cert.stRule (.sd h0 2 1 0 true) = some (h0, 2, 1, 0, 8) ∧ (∃ pa e, Cert.At (at1 (spA 8)).dev h0 .store (.core 8) (spA 8) pa e) ∧
    region (spA 8).toNat = .scratch 0 8 ∧ ((at1 (spA 8)).dev.stn 0).spState = 0 ∧ (spA 8).toNat % 8 = 0 ∧ (spA 4).toNat % 8 ≠ 0 :=
  ⟨rfl, ⟨_, _, by decide +kernel, rfl⟩, by decide +kernel, by decide +kernel, by decide +kernel, by decide +kernel⟩
theorem witness_StoreResults_close : (∃ e, Cert.At (at1 0x1000).dev h0 .store (.core 8) 0x1000 0x1000 e) ∧ (at1 0x1000).dev.mem.key0.isSome = true ∧
    channelOf 0x1000 ∉ (at1 0x1000).dev.mem.retired ∧ (at1 0x7F0000000000).dev.translate 0 0 .store (.core 8) 0x7F0000000000 = .fault 0x0A :=
  ⟨⟨_, by decide +kernel, rfl⟩, by decide +kernel, by decide +kernel, by decide +kernel⟩
theorem witness_AtomicAndFenceResults : (∃ f, Cert.amoRule (.aaddW h0 3 1 2) = some (h0, 3, 1, 2, 4, f)) ∧ (at1 (spA 8)).dev.repro = false ∧
    Cert.Issues (at1 (spA 8)).dev h0 4 (at1 (spA 8)).dev ∧ (∃ pa e, Cert.At (at1 (spA 8)).dev h0 .store .amo (spA 8) pa e) ∧
    Cert.Scratch (at1 (spA 8)).dev 0 (spA 8).toNat 8 4 ∧ (at1 0x1000).dev.translate 0 0 .store .amo 0x1000 = .fault 0x0A ∧
    ((at1 0x1000).dev.stn 0).mmEn = false ∧ ((at1 0x1000).dev.stn 0).tlb = [] :=
  ⟨⟨_, rfl⟩, by decide +kernel, ⟨by decide +kernel, by decide +kernel, rfl⟩, ⟨_, _, by decide +kernel, rfl⟩, ⟨by decide +kernel, by decide +kernel, by decide +kernel⟩,
    by decide +kernel, by decide +kernel, by decide +kernel⟩
theorem witness_AtomicAndFenceResults_fence : let s := onT (fun t => { t with acks := 1 })
    Cert.Issues s.dev h0 4 s.dev ∧ (s.dev.thr h0).acks ≠ 0 ∧ (up.dev.thr h0).acks = 0 := ⟨⟨by decide +kernel, by decide +kernel, rfl⟩, by decide +kernel, by decide +kernel⟩

/-- Thread 0 with sp in the scratchpad. -/
def stacked (o : Nat) : State := onT (regs [(31, spA o)])
theorem witness_CallFrameResults : Cert.Issues (stacked 0x100).dev h0 8 (stacked 0x100).dev ∧
    ((stacked 0x100).dev.thr h0).gr 31 = spA 0x100 ∧ (spA 0x100).toNat % 16 = 0 ∧
    (∃ d2 locs offs, Cert.FrameIn (stacked 0x100).dev d2 h0 .store (Cert.frameAt (spA 0xF0) 0x40) locs offs) :=
  ⟨⟨by decide +kernel, by decide +kernel, rfl⟩, by decide +kernel, by decide +kernel, _, _, [0xF0, 0xF8], by decide +kernel, rfl, by decide +kernel, by decide +kernel, by decide +kernel⟩
theorem witness_CallFrameResults_retm : (∃ d2 locs offs, Cert.FrameIn (stacked 0xF0).dev d2 h0 .load (Cert.frameAt (spA 0xF0) 0x40) locs (0xF0 :: offs)) ∧
    (Cert.w (Cert.le ((stacked 0xF0).dev.stn 0).sp 0xF0 8)).toNat % 4 = 0 ∧ ((stacked 8).dev.thr h0).gr 31 = spA 8 ∧ (spA 8).toNat % 16 ≠ 0 :=
  ⟨⟨_, _, [0xF8], by decide +kernel, rfl, by decide +kernel, by decide +kernel, by decide +kernel⟩, by decide +kernel, by decide +kernel, by decide +kernel⟩
/-- Thread 0 waits. -/
def waiting (w : Wait) (a : Word) : State := onT (fun t => { regs [(1, a)] t with wait := w })
theorem witness_RepliesAndAcknowledgements : (∃ op, Cert.ldRule (.ld h0 3 1 0 true) = some (h0, 3, 1, 0, 8, false, true, op) ∧
      ((waiting (.reply op [(0x1000, TlbE.phys 0x1000)]) 0x1000).dev.thr h0).wait = .reply op [(0x1000, TlbE.phys 0x1000)] ∧
      ((waiting (.reply op [(0x1000, TlbE.phys 0x1000)]) 0x1000).dev.stn 0).live = true ∧
      Cert.Close (waiting (.reply op [(0x1000, TlbE.phys 0x1000)]) 0x1000).dev 0x1000 8) :=
  ⟨_, rfl, by decide +kernel, by decide +kernel, by decide +kernel, by decide +kernel, by decide +kernel, by decide +kernel⟩
theorem witness_RepliesAndAcknowledgements_walk : ∃ op, Cert.ldRule (.ld h0 3 1 0 true) = some (h0, 3, 1, 0, 8, false, true, op) ∧
    ((waiting (.walk op) (spA 8)).dev.thr h0).wait = .walk op ∧ ((waiting (.walk op) (spA 8)).dev.stn 0).live = true ∧
    (∃ pa e, (waiting (.walk op) (spA 8)).dev.translate 0 0 .load (.core 8) (spA 8).toNat = .ok pa e) ∧ Cert.Scratch (waiting (.walk op) (spA 8)).dev 0 (spA 8).toNat 8 8 :=
  ⟨_, rfl, by decide +kernel, by decide +kernel, ⟨_, _, rfl⟩, by decide +kernel, by decide +kernel, by decide +kernel⟩
theorem witness_RepliesAndAcknowledgements_ack : let s := onT (fun t => { t with acks := 1, wait := .fence })
    (s.dev.thr h0).acks ≠ 0 ∧ (s.dev.thr h0).acks = 1 ∧ (s.dev.thr h0).wait = .fence ∧ (s.dev.stn 0).live = true := by decide +kernel

/-! ### Control registers, gates, threads, boundaries -/

/-- Thread 0 in ring 3, with translation on. -/
def job : State := onS (fun s => paged (s.updThr 0 (fun t => { t with status := 3 })))
theorem issuesJob : Cert.Issues job.dev h0 4 (fetched job) := ⟨by decide +kernel, by decide +kernel, rfl⟩
/-- A block runs on station 0, whose owner is thread 0. -/
def blk (cmds : List Nat) (next : Nat) : Blk := { addr := 0, by_ := ⟨0, 0, 0, 0, false⟩, slots := [], cmds := cmds, next := next, loops := [], stop := none, exit := false, ariths := [] }
def running (cmds : List Nat) (next : Nat) : State := onS (fun s => { s with owner := some 0, eng := { s.eng with blk := some (blk cmds next) } })

theorem witness_ControlRegisterReads : Cert.Issues up.dev h0 4 up.dev ∧ (0x001, 0) ∈ Cert.crTable up.dev h0 ∧ up.dev.cr h0 0x001 = some 0 ∧ Cert.mayRead 0 0x001 ∧
    up.dev.cr h0 0xFFF = none := ⟨issues4, by decide +kernel, by decide +kernel, by unfold Cert.mayRead; decide, by decide +kernel⟩
theorem witness_ControlRegisterReads_priv : Cert.Issues job.dev h0 4 (fetched job) ∧ ((fetched job).thr h0).ring = 3 ∧ (fetched job).cr h0 0x100 = some 0 ∧ ¬ Cert.mayRead 3 0x100 :=
  ⟨issuesJob, by decide +kernel, by decide +kernel, by unfold Cert.mayRead; decide⟩
theorem witness_ControlRegisterReads_block : let s := running [0] 0
    Cert.Issues s.dev h0 4 s.dev ∧ (s.dev.stn 0).eng.blk.isSome = true ∧ (∃ v, s.dev.cr h0 0x348 = some v) := ⟨⟨by decide +kernel, by decide +kernel, rfl⟩, by decide +kernel, _, rfl⟩
theorem witness_ControlRegisterWrites : Cert.mtcRule (.mtc h0 0 1 0x142) = some (h0, 1, 0x142) ∧ Cert.mayWrite 0 0x142 ∧ ¬ Cert.needsOwner 0x142 ∧
    (up.dev.stn 0).crWait 0 0x142 0 = false ∧ (∃ st2, (0x142, st2) ∈ Cert.crStores (up.dev.stn 0) 0 0) :=
  ⟨rfl, by unfold Cert.mayWrite Cert.mayRead; decide, by unfold Cert.needsOwner; decide, by decide +kernel, _, List.mem_of_getElem? (i := 10) rfl⟩
theorem witness_ControlRegisterWrites_stops : 0x001 ∈ Cert.readOnly ∧ up.dev.cr h0 0xFFF = none ∧ 0x142 ∉ Cert.readOnly ∧ (fetched job).cr h0 0x142 ≠ none ∧ ¬ Cert.mayWrite 3 0x142 ∧
    (up.dev.stn 0).owns 0 = false := ⟨by decide, by decide +kernel, by decide, by decide +kernel, by unfold Cert.mayWrite Cert.mayRead; decide, by decide +kernel⟩
theorem witness_ControlRegisterWrites_status : Cert.mtcRule (.statusWrite h0 0 1) = some (h0, 1, 0x140) ∧ Cert.mtcRule (.xrel h0 0 1) = some (h0, 1, 0x147) ∧
    (up.dev.stn 0).crWait 0 0x140 4 = false ∧ (up.dev.stn 0).crWait 0 0x147 4 = false ∧ Cert.mayWrite 0 0x140 ∧ Cert.mayWrite 0 0x147 :=
  ⟨rfl, rfl, by decide +kernel, by decide +kernel, by unfold Cert.mayWrite Cert.mayRead; decide, by unfold Cert.mayWrite Cert.mayRead; decide⟩
theorem witness_ControlRegisterWrites_engine : let s := onS (fun s => { s with owner := some 0 })
    Cert.mtcRule (.meSrseedWrite h0 0 1) = some (h0, 1, 0x32A) ∧ Cert.mayWrite 0 0x32A ∧ (s.dev.stn 0).owns 0 = true ∧ (s.dev.stn 0).crWait 0 0x32A 0 = false :=
  ⟨rfl, by unfold Cert.mayWrite Cert.mayRead; decide, by decide +kernel, by decide +kernel⟩
theorem witness_ControlRegisterWrites_frel : let s := onS (fun s => { s with owner := some 0 })
    Cert.mtcRule (.frel h0 0 1) = some (h0, 1, 0x308) ∧ Cert.mayWrite 0 0x308 ∧ (s.dev.stn 0).engIdle = true ∧ (∀ k : Fin 4, (s.dev.stn 0).inTacq k = false) ∧
    ((running [0] 0).dev.stn 0).engIdle = false ∧ (s.dev.stn 0).crWait 0 0x308 0x80 = false := ⟨rfl, by unfold Cert.mayWrite Cert.mayRead; decide, by decide +kernel, by decide +kernel, by decide +kernel, by decide +kernel⟩
theorem witness_ControlRegisterWrites_stop : Cert.mtcRule (.stop h0 0 1) = some (h0, 1, 0x341) ∧ Cert.mayWrite 0 0x341 ∧ ((running [0] 0).dev.stn 0).owns 0 = true ∧
    ((running [0] 0).dev.stn 0).eng.blk = some (blk [0] 0) ∧ (blk [0] 0).stop = none ∧ (blk [0] 0).next < (blk [0] 0).cmds.length ∧
    ((running [0] 0).dev.stn 0).crWait 0 0x341 2 = false := ⟨rfl, by unfold Cert.mayWrite Cert.mayRead; decide, by decide +kernel, by decide +kernel, by decide, by decide, by decide +kernel⟩
theorem witness_GateAndReturnResults : let g := 0xA8
    g / 128 = 1 ∧ g / 2 ^ 3 % 2 = 1 ∧ g / 16 % 4 ≤ 3 ∧ (up.dev.stn 0).gtab.getD 0 0 = 0 ∧ Cert.Issues job.dev h0 4 (fetched job) := ⟨by decide, by decide, by decide, by decide +kernel, issuesJob⟩
theorem witness_GateAndReturnResults_xret : Cert.Issues job.dev h0 4 (fetched job) ∧ (((fetched job).thr h0).xst.getD 3 0).toNat % 4 < ((fetched job).thr h0).ring ∧
    (up.dev.thr h0).ring ≤ ((up.dev.thr h0).xst.getD 0 0).toNat % 4 := ⟨issuesJob, by decide +kernel, by decide +kernel⟩
theorem witness_ThreadControl : let h1 : Hart := ⟨0, 1⟩
    let s := onS (fun s => { s.updThr 1 (fun t => { t with enabled := true }) with running := some 1 })
    Cert.Issues up.dev h0 4 up.dev ∧ (up.dev.thr h0).ring < 2 ∧ 2 ≤ ((fetched job).thr h0).ring ∧ Cert.Issues s.dev h1 4 s.dev ∧ h1.thr ≠ 0 ∧ (s.dev.stn 0).owner ≠ some 1 :=
  ⟨issues4, by decide +kernel, by decide +kernel, ⟨by decide +kernel, by decide +kernel, rfl⟩, by decide, by decide +kernel⟩
/-- A pending exception for ring 1. -/
def px : PendX := ⟨0x40, 3, 1, false, 0, none⟩
theorem witness_BoundaryEntries : (onT (fun t => { t with mchk := some px })).dev.canIssue h0 = true ∧ ((onT (fun t => { t with mchk := some px })).dev.thr h0).mchk = some px ∧
    (onT (fun t => { t with arith := some px })).dev.canIssue h0 = true ∧ ((onT (fun t => { t with arith := some px })).dev.thr h0).arith = some px ∧
    ((onT (fun t => { t with mecmd := some px })).dev.thr h0).mecmd = some px ∧ px.target < 4 ∧ px.detail < 256 := by decide +kernel
theorem witness_BoundaryEntries_interrupt : let s := onT (fun t => { t with status := 4, ipend := 6, imask := 2 })
    s.dev.canIssue h0 = true ∧ ((s.dev.thr h0).ipend &&& (s.dev.thr h0).imask).getLsbD 1 = true ∧ ((s.dev.thr h0).ipend &&& (s.dev.thr h0).imask).getLsbD 0 = false ∧
    Cert.bits (s.dev.stn 0).xdel1 3 2 = (s.dev.thr h0).ring ∧ (s.dev.thr h0).ie = true := by decide +kernel
theorem witness_BoundaryEntries_noint : let s := onS (fun s => { s with nointMax := 5, cycle := 5 })
    s.dev.canIssue h0 = true ∧ (s.dev.thr h0).ie = false ∧ (s.dev.stn 0).nointMax.toNat ≤ min 0xFFFF ((s.dev.stn 0).cycle - (s.dev.thr h0).nointFrom) := by decide +kernel

end Sys2Proof.Tests
end

