-- ==== Sys2Proof/Tests/Witness2.lean ====
section
/-! SUPPORT. For every statement with hypotheses, concrete states and operands that meet them: the vector unit, the tile registers, the
matrix engine and its command blocks. -/

namespace Sys2Proof.Tests

set_option Elab.async false

open Sys2Proof.Machine

set_option maxRecDepth 100000

/-! ### The vector unit -/

/-- Thread 0 with vector length n. -/
def vl (n : Nat) : State := onT (fun t => regs [(1, spA 8), (2, 2)] { t with vl := BitVec.ofNat 16 n })
theorem issuesV : Cert.Issues (vl 2).dev h0 8 (vl 2).dev := ⟨by decide +kernel, by decide +kernel, rfl⟩
theorem readyV : Cert.VReady (vl 2).dev h0 64 := ⟨by decide +kernel, by decide +kernel, by decide +kernel, by decide +kernel⟩
/-- The most bytes a register holds. -/
theorem readyFull : Cert.VReady (vl 2048).dev h0 8 ∧ Cert.VReady (vl 256).dev h0 64 :=
  ⟨⟨by decide +kernel, by decide +kernel, by decide +kernel, by decide +kernel⟩, by decide +kernel, by decide +kernel, by decide +kernel, by decide +kernel⟩

theorem witness_VectorIntegerResults : (∃ g, Cert.viRule (.vadd h0 (vf 3 1 2 7)) = some (h0, vf 3 1 2 7, g)) ∧ (vf 3 1 2 7).et.toNat ≤ 7 ∧
    Cert.VReady (vl 2).dev h0 64 ∧ Cert.Issues (vl 2).dev h0 8 (vl 2).dev ∧ ((vl 0).dev.thr h0).vl = 0 ∧ Cert.Issues (vl 0).dev h0 8 (vl 0).dev :=
  ⟨⟨_, rfl⟩, by decide, readyV, issuesV, by decide +kernel, by decide +kernel, by decide +kernel, rfl⟩
theorem witness_VectorFixedPointResults : (∃ g n, Cert.vqRule (.vqmul h0 (vf 3 1 2 16)) = some (h0, vf 3 1 2 16, g, n)) ∧ 14 ≤ (vf 3 1 2 14).et.toNat ∧
    (vf 3 1 2 16).et.toNat ≤ 16 ∧ Cert.VReady (vl 2).dev h0 64 := ⟨⟨_, _, rfl⟩, by decide, by decide, readyV⟩
theorem witness_VectorFloatResults : (∃ g, Cert.vfRule (.vfsqrt h0 (vf 3 1 0 8)) = some (h0, vf 3 1 0 8, true, true, g)) ∧
    (∃ g, Cert.vfRule (.vfabs h0 (vf 3 1 0 11)) = some (h0, vf 3 1 0 11, true, false, g)) ∧ Cert.rmLegal true 4 ∧ Cert.rmLegal false 0 ∧
    Cert.VReady (vl 2).dev h0 64 := ⟨⟨_, rfl⟩, ⟨_, rfl⟩, by unfold Cert.rmLegal; decide, by unfold Cert.rmLegal; decide, readyV⟩
theorem witness_RepresentableValuesRoundToThemselves : e2m1 ∈ [fp64, fp32, fp16, bf16, e5m2, e4m3, e3m2, e2m3, e2m1] ∧ 15 < 2 ^ e2m1.w ∧
    (∃ n y, e2m1.decode 15 = .fin n y) ∧ ∃ n y, fp64.decode 1 = .fin n y := ⟨by simp, by decide, ⟨_, _, rfl⟩, _, _, rfl⟩
theorem witness_VectorPredicateAndPermuteResults : let f : VF := { vf 1 1 2 11 with imm := 5 }
    f.et.toNat ≤ 11 ∧ f.imm.toNat ≤ 5 ∧ 0 < f.vd.val ∧ f.vd.val < 16 ∧ Cert.VReady (vl 2).dev h0 (etWidth f.et.toNat) ∧ Cert.kFields (vf 15 15 15 0) ∧
    (∃ g, Cert.kRule (.knot h0 (vf 15 15 0 0)) = some (h0, vf 15 15 0 0, true, g)) ∧ Cert.VReady (vl 2).dev h0 1 ∧ etWidth (vf 3 1 2 7).et.toNat ≠ 0 :=
  ⟨by decide, by decide, by decide, by decide, ⟨by decide +kernel, by decide +kernel, by decide +kernel, by decide +kernel⟩, by unfold Cert.kFields; decide, ⟨_, rfl⟩,
    ⟨by decide +kernel, by decide +kernel, by decide +kernel, by decide +kernel⟩, by decide⟩
theorem witness_VectorReductionResults : (∃ w op id tm, Cert.redRule (.vrsum h0 (vf 3 1 2 8)) = some (h0, vf 3 1 2 8, true, w, op, id, tm)) ∧
    (∃ w op id tm, Cert.redRule (.vrsexp2 h0 { vf 3 1 2 9 with vs3 := 4 }) = some (h0, { vf 3 1 2 9 with vs3 := 4 }, true, w, op, id, tm)) ∧
    Cert.VReady (vl 2).dev h0 (Cert.floatOf 8).w ∧ Cert.segs ((vl 2).dev.thr h0) (((vl 2).dev.thr h0).gr 2).toNat * 64 ≤ 16384 :=
  ⟨⟨_, _, _, _, rfl⟩, ⟨_, _, _, _, rfl⟩, ⟨by decide +kernel, by decide +kernel, by decide +kernel, by decide +kernel⟩, by decide +kernel⟩
theorem witness_VectorReductionResults_topk : let f : VF := { vf 3 1 2 2 with vs3 := 4, imm := 31 }
    f.et = 2 ∧ f.imm.toNat < 32 ∧ Cert.VReady (vl 2).dev h0 (etWidth f.et.toNat) ∧ f.vd ≠ f.vs3 ∧ (Cert.cands ((vl 2).dev.thr h0) f true 2).length = 4 ∧
    ∃ p, p < 4 ∧ Cert.rank f.et (Cert.cands ((vl 2).dev.thr h0) f true 2) p < 2 :=
  ⟨rfl, by decide, ⟨by decide +kernel, by decide +kernel, by decide +kernel, by decide +kernel⟩, by decide, by decide +kernel, 1, by decide, by decide +kernel⟩
theorem witness_VectorConversionResults : let f : VF := { vf 3 1 0 11 with imm := 8, rm := 5 }
    etWidth f.et.toNat ≠ 0 ∧ etWidth f.imm.toNat ≠ 0 ∧ f.imm.toNat < 32 ∧ f.rm.toNat ≤ 5 ∧ Cert.VReady (vl 2).dev h0 (max 16 64) ∧ etWidth (vf 3 1 0 9).et.toNat ≠ 0 :=
  ⟨by decide, by decide, by decide, by decide, ⟨by decide +kernel, by decide +kernel, by decide +kernel, by decide +kernel⟩, by decide⟩
theorem witness_VectorConversionResults_special : (1 ≤ 254 ∧ 254 < 255) ∧ (0x43000000 ≤ 0x7F7FFFFF ∧ 0x7F7FFFFF < 0x7F800000) ∧ (0x80000001 ≤ 0xFF800000) ∧
    (0x7F800000 < 0x7F800001 ∧ 0x7F800001 < 0x80000000) ∧ (0xFF800000 < 0xFFFFFFFF ∧ 0xFFFFFFFF < 0x100000000) := by decide
theorem witness_BlockScaleResults : (vf 3 1 0 12).et.toNat = 12 ∧ (vf 3 1 0 13).et.toNat = 13 ∧ (vf 3 1 0 4).et.toNat = 4 ∧ (vf 3 1 0 11).et.toNat = 11 ∧
    (vf 3 1 0 12).vd ≠ (vf 3 1 0 12).vs3 ∧ Cert.VReady (vl 2).dev h0 64 := ⟨rfl, rfl, rfl, rfl, by decide, readyV⟩

/-- Fields of a memory form: vd, rs1, rs2, ET, km. -/
def mf (vd rs1 rs2 : Fin 32) (et : BitVec 5) (km : Fin 16) : VmF := ⟨0, km, false, et, 0, false, 0, vd, rs1, rs2⟩
/-- The accesses of the elements 0 and 1 of a unit-stride form at an offset of the scratchpad. -/
def two (a n : Nat) : List Acc := [⟨a, n, 0⟩, ⟨a + n, n, 1⟩]
theorem witness_VectorLoadResults : (∃ hit, Cert.vmRule (.vld h0 (mf 3 1 0 7 0) hit) = some (h0, mf 3 1 0 7 0, hit, .unit, false)) ∧ Cert.vmLegal .unit false (mf 3 1 0 7 0) ∧
    Cert.Issues (vl 2).dev h0 8 (vl 2).dev ∧ (Cert.ons ((vl 2).dev.thr h0) 0).map (fun j => (⟨(Cert.elemAddr ((vl 2).dev.thr h0) .unit (mf 3 1 0 7 0) j).toNat, 8, j⟩ : Acc)) = two (spA 8).toNat 8 ∧
    (∃ d2 locs, Cert.Placed (vl 2).dev d2 h0 .load .bulk (two (spA 8).toNat 8) locs [8, 16]) ∧ (spA 8).toNat % 8 = 0 :=
  ⟨⟨true, rfl⟩, by unfold Cert.vmLegal; decide, issuesV, by decide +kernel, ⟨_, _, by decide +kernel, rfl, by decide +kernel, by decide +kernel, by decide +kernel⟩, by decide +kernel⟩
theorem witness_VectorLoadResults_whole : Cert.vmRule (.vlr h0 (mf 3 1 0 0 0) true) = some (h0, mf 3 1 0 0 0, true, .wholeV, false) ∧ Cert.vmLegal .wholeV false (mf 3 1 0 0 0) ∧
    Cert.vmLegal .wholeK false (mf 15 1 0 0 0) ∧ ((at1 (spA 64)).dev.thr h0).gr 1 = spA 64 ∧ (spA 64).toNat % 64 = 0 ∧
    (∃ d2 locs, Cert.Placed (at1 (spA 64)).dev d2 h0 .load .bulk (Cert.whole (spA 64).toNat (Cert.wholeSize .wholeV)) locs [64]) ∧
    (∃ d2 locs, Cert.Placed (at1 (spA 4032)).dev d2 h0 .load .bulk (Cert.whole (spA 4032).toNat (Cert.wholeSize .wholeK)) locs [4032, 4096]) :=
  ⟨rfl, by unfold Cert.vmLegal; decide, by unfold Cert.vmLegal; decide, by decide +kernel, by decide +kernel,
    ⟨_, _, by decide +kernel, rfl, by decide +kernel, by decide +kernel, by decide +kernel⟩, ⟨_, _, by decide +kernel, rfl, by decide +kernel, by decide +kernel, by decide +kernel⟩⟩
theorem witness_VectorLoadResults_misaligned : let s := onT (fun t => regs [(1, spA 8), (2, 4)] { t with vl := 2 })
    Cert.vmRule (.vlds h0 (mf 3 1 2 7 0) true) = some (h0, mf 3 1 2 7 0, true, .strided, false) ∧ Cert.vmLegal .strided false (mf 3 1 2 7 0) ∧ Cert.Issues s.dev h0 8 s.dev ∧
    Cert.on (s.dev.thr h0) 0 1 = true ∧ (Cert.elemAddr (s.dev.thr h0) .strided (mf 3 1 2 7 0) 1).toNat % 8 ≠ 0 ∧
    (∀ m, m < 1 → (Cert.elemAddr (s.dev.thr h0) .strided (mf 3 1 2 7 0) m).toNat % 8 = 0) :=
  ⟨rfl, by unfold Cert.vmLegal; decide, ⟨by decide +kernel, by decide +kernel, rfl⟩, by decide +kernel, by decide +kernel, by decide +kernel⟩
theorem witness_VectorStoreResults : Cert.vmRule (.vst h0 (mf 3 1 0 7 0) true) = some (h0, mf 3 1 0 7 0, true, .unit, true) ∧ Cert.vmLegal .unit true (mf 3 1 0 7 0) ∧
    Cert.vmLegal .wholeK true (mf 0 1 0 0 0) ∧ (∃ d2 locs, Cert.Placed (vl 2).dev d2 h0 .store .bulk (two (spA 8).toNat 8) locs [8, 16]) ∧
    ∃ d2 locs, Cert.Placed (at1 (spA 64)).dev d2 h0 .store .bulk (Cert.whole (spA 64).toNat (Cert.wholeSize .wholeV)) locs [64] :=
  ⟨rfl, by unfold Cert.vmLegal; decide, by unfold Cert.vmLegal; decide, ⟨_, _, by decide +kernel, rfl, by decide +kernel, by decide +kernel, by decide +kernel⟩,
    _, _, by decide +kernel, rfl, by decide +kernel, by decide +kernel, by decide +kernel⟩
/-- The oldest vector instruction of thread 0, with an enabled inexact event or none, precise or not. -/
def vqe (axen : BitVec 5) (p : Bool) : VqEntry := ⟨0, { Ev.none with nx := true }, none, axen, 0, 0, p, false, 1⟩
theorem witness_VectorCompletion : (vqe 0 false).ev.enabled (vqe 0 false).axen = 0 ∧ (vqe 31 false).ev.enabled (vqe 31 false).axen ≠ 0 ∧
    ((onS (fun s => { s with vq := [vqe 0 false] })).dev.stn 0).vq = [vqe 0 false] ∧ ((onS (fun s => { s with vq := [vqe 0 false] })).dev.stn 0).locked = false :=
  ⟨by decide, by decide, by decide +kernel, by decide +kernel⟩
theorem witness_VectorCompletion_precise : let s := onS (fun s => { s.updThr 0 (fun t => { t with wait := .precise }) with vq := [vqe 0 true], running := none })
    (s.dev.stn 0).vq = [vqe 0 true] ∧ ((s.dev.stn 0).thr 0).wait = .precise ∧ ((s.dev.stn 0).thr 0).enabled = true ∧ (s.dev.stn 0).running = none ∧
    (let p := onT (fun t => { t with status := 0x10, vl := 2 })
     Cert.Issues p.dev h0 8 p.dev ∧ (p.dev.thr h0).status.getLsbD 4 = true) :=
  ⟨by decide +kernel, by decide +kernel, by decide +kernel, by decide +kernel, ⟨by decide +kernel, by decide +kernel, rfl⟩, by decide +kernel⟩
theorem witness_VectorCompletion_gate : let s := onS (fun s => { s with pgEn := true, pgOn := 0xFF, pgIdle := 16, cycle := 16, vq := [vqe 0 false] })
    (s.dev.stn 0).pgEn = true ∧ (s.dev.stn 0).pgOn.getLsbD 7 = true ∧ (∀ e ∈ (s.dev.stn 0).vq, e.groups ≤ 7) ∧
    (s.dev.stn 0).pgIdle.toNat ≤ (s.dev.stn 0).cycle - (s.dev.stn 0).pgLast.getD 7 0 := ⟨by decide +kernel, by decide +kernel, by decide +kernel, by decide +kernel⟩

end Sys2Proof.Tests
end

