-- ==== Sys2Proof/Tests/Witness3.lean ====
section
/-! SUPPORT. For every statement with hypotheses, concrete states and operands that meet them: the tile registers, the matrix engine and
its command blocks. -/

namespace Sys2Proof.Tests

set_option Elab.async false

open Sys2Proof.Machine

set_option maxRecDepth 100000

/-! ### Tile registers -/

theorem issuesOwned : Cert.Issues (owned id).dev h0 8 (owned id).dev ∧ ((owned id).dev.stn 0).owns 0 = true :=
  ⟨⟨by decide +kernel, by decide +kernel, rfl⟩, by decide +kernel⟩
/-- The largest and the smallest legal shape, an FP6 row of whole elements, and illegal ones. -/
theorem witness_TileResults_shapes : Cert.cfLegal 0 ∧ Cert.cfLegal 0x0F400040 ∧ Cert.cfLegal 0x0F010400 ∧ Cert.cfLegal 0x08030001 ∧ ¬ Cert.cfLegal 0x08020001 ∧
    ¬ Cert.cfLegal 0x0F400041 ∧ ¬ Cert.cfLegal 0x10010001 := by
  unfold Cert.cfLegal
  refine ⟨?_, ?_, ?_, ?_, ?_, ?_, ?_⟩ <;> decide
/-- Tile 2 with two rows of 16 bytes, and thread 0's g1 in the scratchpad. -/
def tiled (a s : Word) : State := owned (fun x => { x.updThr 0 (regs [(1, a), (2, s)]) with tcfg := x.tcfg.set 2 0x0F010002 })
theorem witness_TileResults : Cert.Issues (tiled (spA 16) 32).dev h0 8 (tiled (spA 16) 32).dev ∧ ((tiled (spA 16) 32).dev.stn 0).owns 0 = true ∧
    ((tiled (spA 16) 32).dev.thr h0).status.getLsbD 4 = false ∧ ((tiled (spA 16) 32).dev.stn 0).eng.hasBlock = false ∧ ((tiled (spA 16) 32).dev.stn 0).tileUsed 2 = false ∧
    (((tiled (spA 16) 32).dev.stn 0).tcfg.getD 2 0).toNat ≠ 0 ∧ ((tiled (spA 16) 32).dev.thr h0).gr 1 = spA 16 ∧ (spA 16).toNat % 16 = 0 := by
  refine ⟨⟨by decide +kernel, by decide +kernel, rfl⟩, ?_⟩
  decide +kernel
theorem witness_TileResults_moves : Cert.rowsAt ((tiled (spA 16) 32).dev.thr h0) ⟨0, 1, 2, 2, 0⟩ 0x0F010002 = [⟨(spA 16).toNat, 16, 0⟩, ⟨(spA 48).toNat, 16, 1⟩] ∧
    (∃ d2 locs, Cert.Placed (tiled (spA 16) 32).dev d2 h0 .load .bulk [⟨(spA 16).toNat, 16, 0⟩, ⟨(spA 48).toNat, 16, 1⟩] locs [16, 48]) ∧
    ∃ d2 locs, Cert.Placed (tiled (spA 16) 32).dev d2 h0 .store .bulk [⟨(spA 16).toNat, 16, 0⟩, ⟨(spA 48).toNat, 16, 1⟩] locs [16, 48] :=
  ⟨by decide +kernel, ⟨_, _, by decide +kernel, rfl, by decide +kernel, by decide +kernel, by decide +kernel⟩,
    _, _, by decide +kernel, rfl, by decide +kernel, by decide +kernel, by decide +kernel⟩
theorem witness_TileResults_row : ((tiled 1 0).dev.thr h0).gr 1 = 1 ∧ 1 < Cert.cfRows 0x0F010002 ∧ Cert.cfRows 0x0F010002 ≤ 2 := by decide +kernel
theorem witness_TileResults_waits : ¬ (((owned (fun x => { x with tops := [⟨2, true, none, false⟩] })).dev.stn 0).eng.hasBlock = false ∧
    ((owned (fun x => { x with tops := [⟨2, true, none, false⟩] })).dev.stn 0).tileUsed 2 = false) := by decide +kernel

theorem witness_OwnershipResults : Cert.Issues up.dev h0 8 up.dev ∧ (1 : BitVec 32).toNat < 2 ∧ (up.dev.stn 0).owner = none ∧ (up.dev.stn 0).owns 0 = false ∧
    ((owned id).dev.stn 0).engIdle = true ∧ (∀ k : Fin 4, ((owned id).dev.stn 0).inTacq k = false) ∧
    ((owned (fun s => { s with tops := [⟨2, true, none, false⟩] })).dev.stn 0).engIdle = false :=
  ⟨issues8, by decide, by decide +kernel, by decide +kernel, by decide +kernel, by decide +kernel, by decide +kernel⟩
theorem witness_OwnershipResults_taken : let s := onS (fun s => { s with owner := some 1 })
    Cert.Issues s.dev h0 8 s.dev ∧ (s.dev.stn 0).owner = some 1 ∧ (1 : Fin 4) ≠ h0.thr := ⟨⟨by decide +kernel, by decide +kernel, rfl⟩, by decide +kernel, by decide⟩
/-- Thread 0's release is pending; threads 3 and 0 wait. -/
def releasing : State := onS (fun s => { (s.updThr 3 (fun t => { t with wait := .tacq 5, enabled := true })) with owner := some 2, ownPend := true, running := none })
theorem witness_OwnershipResults_free : Cert.Live (releasing.dev.stn 0) ∧ (releasing.dev.stn 0).owner = some 2 ∧ (releasing.dev.stn 0).ownPend = true ∧
    (releasing.dev.stn 0).engIdle = true ∧ ((releasing.dev.stn 0).thr 3).wait = .tacq 5 ∧ ((releasing.dev.stn 0).thr 3).enabled = true ∧
    (∀ m : Nat, 1 ≤ m → (∀ q : Nat, 1 ≤ q → q ≤ m → (2 + q) % 4 ≠ 3) → ∀ i : Fin 4, i.val = (2 + m) % 4 → (releasing.dev.stn 0).inTacq i = false) ∧
    ∀ j : Fin 4, ((onS (fun s => { s with owner := some 2, ownPend := true })).dev.stn 0).inTacq j = false :=
  ⟨⟨by decide +kernel, by decide +kernel⟩, by decide +kernel, by decide +kernel, by decide +kernel, by decide +kernel, by decide +kernel,
    fun m h1 h2 => absurd rfl (h2 1 (Nat.le_refl 1) h1), by decide +kernel⟩
theorem witness_OwnershipResults_retire : let s := onS (fun s => { (s.updThr 0 (fun t => { t with wait := .shape ⟨0, 0, 0, 2, 0⟩ })) with tops := [⟨2, true, none, false⟩], running := none })
    Cert.Live (s.dev.stn 0) ∧ (s.dev.stn 0).tops = [⟨2, true, none, false⟩] ∧ ((s.dev.stn 0).thr 0).wait = .shape ⟨0, 0, 0, 2, 0⟩ ∧ ((s.dev.stn 0).thr 0).enabled = true ∧
    (∀ j : Fin 4, j ≠ 0 → ((s.dev.stn 0).thr j).wait = .ready) ∧ (s.dev.stn 0).eng.hasBlock = false ∧ (s.dev.stn 0).eng.queue = [] ∧
    Cert.NoWaiter ((onS (fun s => { s with tops := [⟨2, true, none, false⟩] })).dev.stn 0) :=
  ⟨⟨by decide +kernel, by decide +kernel⟩, by decide +kernel, by decide +kernel, by decide +kernel, by decide +kernel, by decide +kernel, by decide +kernel,
    fun k => match k with | 0 => trivial | 1 => trivial | 2 => trivial | 3 => trivial⟩

/-! ### The matrix engine -/

/-- Station 0 with tile 1 as an FP64 stationary operand, tile 2 as two FP64 rows, tile 3 as FP32 accumulators of one row, and g1. -/
def engine (a : Word) (f : Engine → Engine) : State :=
  owned (fun s => { s.updThr 0 (regs [(1, a)]) with
    tcfg := ((s.tcfg.set 1 (BitVec.ofNat 32 (0x01400040))).set 2 0x01200002).set 3 0x02200001, eng := f s.eng })
theorem issuesEngine : Cert.Issues (engine 0 id).dev h0 8 (engine 0 id).dev := ⟨by decide +kernel, by decide +kernel, rfl⟩
theorem witness_EngineInstructionResults : ((engine 0 id).dev.stn 0).owns 0 = true ∧ ((engine 0 id).dev.stn 0).eng.queue = [] ∧ ((engine 0 id).dev.stn 0).eng.hasBlock = false ∧
    ((engine 0 id).dev.stn 0).eng.count < 8 ∧ (up.dev.stn 0).owns 0 = false := by decide +kernel
theorem witness_EngineInstructionResults_meb : ctlOk false 1 1 = true ∧ ((engine 0 id).dev.stn 0).shapeErr .meb 1 (bShape 1 false) = none ∧
    ((engine 0 id).dev.stn 0).reuse? (Cert.moveOf 1 1) false = none ∧ (∃ wd, ((engine 0 id).dev.stn 0).shapeErr .meb 2 (bShape 1 false) = some wd) :=
  ⟨by decide +kernel, by decide +kernel, by decide +kernel, _, rfl⟩
theorem witness_EngineInstructionResults_reuse : let e := engine 0 (fun e => { e with latch := some 1, sbuf1 := some ⟨⟨1, 1, 0, 0⟩, false, Mem.empty, Mem.empty, 0, 0⟩ })
    (e.dev.stn 0).reuse? (Cert.moveOf 1 1) false = some 1 := by decide +kernel
theorem witness_EngineInstructionResults_mea : ctlOk true 2 1 = true ∧ ((engine 0 id).dev.stn 0).aShapeErr .mea (Cert.moveOf 2 1) = none ∧
    ((engine 0 id).dev.stn 0).aRows [] + Cert.cfRows (((engine 0 id).dev.stn 0).cfg 2) ≤ aCap 1 := by decide +kernel
theorem witness_EngineInstructionResults_meacc : Cert.cfFmt (((engine 0 id).dev.stn 0).cfg 3) = 2 ∧ Cert.cfRow (((engine 0 id).dev.stn 0).cfg 3) = 512 ∧
    (255 : BitVec 32).toNat < 256 ∧ 255 + 1 * Cert.cfRows (((engine 0 id).dev.stn 0).cfg 3) ≤ 256 := by decide +kernel
/-- A drain of row 0 as FP32 to tile 3. -/
def drn : Word := 0x0000004302000000
theorem witness_EngineInstructionResults_mest : ((engine drn id).dev.thr h0).gr 1 = drn ∧ drnOk drn = true ∧ ((engine drn id).dev.stn 0).eng.areasOk drn = true ∧
    (∀ p ∈ drnShapes drn, ((engine drn id).dev.stn 0).shapeErr .mest p.1 p.2 = none) := by decide +kernel
theorem witness_EngineInstructionResults_mego : let e := engine 0x1FC0000 (fun e => { e with bInfo := some ⟨1, 1, 0, 0⟩, alist := [⟨2, 1, 0, 0⟩], aNew := false })
    Cert.Issues e.dev h0 8 e.dev ∧ (e.dev.thr h0).gr 1 = 0x1FC0000 ∧ 0x1FC0000 / 2 ^ 24 = 1 ∧ 0x1FC0000 / 2 ^ 2 % 64 = 0 ∧ (e.dev.stn 0).eng.bInfo = some ⟨1, 1, 0, 0⟩ ∧
    (e.dev.stn 0).eng.alist = [⟨2, 1, 0, 0⟩] ∧ (∀ x ∈ [(⟨2, 1, 0, 0⟩ : AEnt)], (e.dev.stn 0).aShapeErr .mego x = none ∧ fmtGroup x.fmt = fmtGroup 1 ∧ x.bs = 0) ∧
    0x1FC0000 / 2 ^ 16 % 256 = 252 ∧ 252 + 2 * (e.dev.stn 0).aRows [⟨2, 1, 0, 0⟩] ≤ 256 ∧ (e.dev.stn 0).eng.spctl.getLsbD 41 = false :=
  ⟨⟨by decide +kernel, by decide +kernel, rfl⟩, by decide +kernel, by decide, by decide, by decide +kernel, by decide +kernel, by decide +kernel, by decide, by decide +kernel, by decide +kernel⟩
/-- An entry of the queue. -/
def ent (id : Nat) (k : QKind) : QEntry := ⟨id, k, none, false, none⟩
/-- The engine with a queue. -/
def queue (l : List QEntry) : State := engine 0 (fun e => { e with queue := l, nextId := 9 })
theorem witness_EngineInstructionResults_full : ((queue (List.replicate 8 (ent 0 (.meacc true 0 0)))).dev.stn 0).owns 0 = true ∧
    8 ≤ ((queue (List.replicate 8 (ent 0 (.meacc true 0 0)))).dev.stn 0).eng.count ∧ ((queue (List.replicate 8 (ent 0 (.meacc true 0 0)))).dev.stn 0).eng.queue ≠ [] := by decide +kernel

/-- An operation on two rows of tile 2 that has started or not. -/
def op (st sw : Bool) (failed : Bool) : EngOp :=
  { acc := true, swap := true, tag := 0, row0 := 0, rows := 2, buf := 0, alist := [⟨2, 1, 0, 0⟩], kstep := 0, wseq := 0, ovm := false,
    by_ := ⟨0, 0, 0, 0, false⟩, started := st, swapped := sw, next := 0, failed := failed, retried := false, ev := Ev.none }
theorem queueLive (l : List QEntry) : Cert.Live ((queue l).dev.stn 0) ∧ ((queue l).dev.stn 0).eng.queue = l := ⟨⟨rfl, rfl⟩, rfl⟩
theorem witness_EngineStepResults_load : let q := ent 3 (.meb ⟨1, 1, 0, 0⟩ false 1 false)
    Cert.Live ((queue [q]).dev.stn 0) ∧ ((queue [q]).dev.stn 0).eng.queue = [] ++ q :: [] ∧ q.kind = .meb ⟨1, 1, 0, 0⟩ false 1 false ∧
    qWrites [] (AEnt.tiles ⟨1, 1, 0, 0⟩) = false ∧ ((queue [q]).dev.stn 0).topWrites (AEnt.tiles ⟨1, 1, 0, 0⟩) = false ∧ Cert.passes [] q :=
  ⟨⟨rfl, rfl⟩, rfl, rfl, by decide +kernel, by decide +kernel, .inr (fun _ h => by cases h)⟩
theorem witness_EngineStepResults_loadEnd : let q := ent 3 (.meb ⟨1, 1, 0, 0⟩ false 1 true)
    ((queue [q]).dev.stn 0).eng.queue = [] ++ q :: [] ∧ q.setp = none ∧ q.prec = none ∧ Cert.NoWaiter ((queue [q]).dev.stn 0) :=
  ⟨rfl, rfl, rfl, fun k => match k with | 0 => trivial | 1 => trivial | 2 => trivial | 3 => trivial⟩
theorem witness_EngineStepResults_start : let q := ent 3 (.mego (op false false false))
    let s := engine 0 (fun e => { e with queue := [q], level := 8 })
    (s.dev.stn 0).eng.queue = [] ++ q :: [] ∧ (op false false false).started = false ∧ qWrites [] ((op false false false).alist.flatMap AEnt.tiles) = false ∧
    (s.dev.stn 0).topWrites ((op false false false).alist.flatMap AEnt.tiles) = false ∧ s.dev.capL ≤ (s.dev.stn 0).eng.level ∧ Cert.passes [] q :=
  ⟨rfl, rfl, by decide +kernel, by decide +kernel, by decide +kernel, .inr (fun _ h => by cases h)⟩
theorem witness_EngineStepResults_swap : (op true false false).started = true ∧ (op true false false).swapped = false ∧ (ent 2 (.mego (op false true false))).isGo = true := ⟨rfl, rfl, rfl⟩
theorem witness_EngineStepResults_meacc : let q := ent 3 (.meacc false 3 255)
    ((queue [q]).dev.stn 0).eng.queue = [] ++ q :: [] ∧ Cert.cfFmt (((queue [q]).dev.stn 0).cfg 3) = 2 ∧ Cert.cfRow (((queue [q]).dev.stn 0).cfg 3) = 512 ∧
    qWrites [] [3] = false ∧ ((queue [q]).dev.stn 0).topWrites [3] = false ∧ (ent 3 (.meacc true 0 0)).kind = .meacc true 0 0 :=
  ⟨rfl, by decide +kernel, by decide +kernel, by decide +kernel, by decide +kernel, rfl⟩

/-- A started operation of two rows with its stationary buffer; the first element of tile 2 is a NaN or zero. -/
def committing (nan : Bool) (o : EngOp) : State :=
  owned (fun s => { s with
    tcfg := s.tcfg.set 2 0x01200002, tiles := if nan then s.tiles.set 2 (Mem.empty.writeBytes 6 [0xF8, 0x7F]) else s.tiles,
    eng := { s.eng with queue := [ent 3 (.mego o)], sbuf0 := some ⟨⟨1, 1, 0, 0⟩, false, Mem.empty, Mem.empty, 0, 0⟩ } })
theorem witness_RowCommitResults : let s := committing true (op true true false)
    let st := s.dev.stn 0
    Cert.Live st ∧ st.eng.queue = ent 3 (.mego (op true true false)) :: [] ∧ (op true true false).next + 1 < (op true true false).rows ∧
    st.rowOf (op true true false).alist 0 = some (⟨2, 1, 0, 0⟩, 0) ∧ (∃ b, st.eng.buf 0 = some b) ∧
    ∀ bv ps, rowCheck ⟨2, 1, 0, 0⟩ 64 (fun k => st.aElem ⟨2, 1, 0, 0⟩ 0 k) bv ps = .skip :=
  ⟨⟨rfl, rfl⟩, rfl, by decide, by decide +kernel, ⟨_, rfl⟩, fun _ _ => rfl⟩
/-- An element of empty memory is zero. -/
theorem tileElem_empty (a w j : Nat) : tileElem Mem.empty a w j = 0 := by
  have h : ∀ n a, Mem.empty.readN a n = 0 := by
    intro n
    induction n with
    | zero => intro a; rfl
    | succ n ih => intro a; simp [Mem.readN, ih] <;> rfl
  simp [tileElem, h]
/-- Zeros check: the row is not skipped. -/
theorem rowCheck_zeros (ps : List Pass) : rowCheck ⟨2, 1, 0, 0⟩ 64 (fun _ => fp64.decode 0) (fun _ _ => fp64.decode 0) ps ≠ .skip := by
  intro h
  unfold rowCheck at h
  rw [if_neg (by decide +kernel)] at h
  simp only [] at h
  rw [if_neg (by decide +kernel)] at h
  exact (by decide : ∀ b : Bool, (if b = true then RowChk.pass else .fail) ≠ .skip) _ h
theorem witness_RowCommitResults_bad : (op true true true).failed = true ∧ (op true true true).by_.thr < 4 ∧
    ∀ ps, rowCheck ⟨2, 1, 0, 0⟩ 64 (fun k => ((committing false (op true true true)).dev.stn 0).aElem ⟨2, 1, 0, 0⟩ 0 k)
      (SBuf.elem ⟨⟨1, 1, 0, 0⟩, false, Mem.empty, Mem.empty, 0, 0⟩) ps ≠ .skip := by
  have h1 : (fun k => ((committing false (op true true true)).dev.stn 0).aElem ⟨2, 1, 0, 0⟩ 0 k) = fun _ => fp64.decode 0 :=
    funext fun k => congrArg (fun x => opVal 1 0 0 x) (tileElem_empty _ _ _)
  have h2 : SBuf.elem ⟨⟨1, 1, 0, 0⟩, false, Mem.empty, Mem.empty, 0, 0⟩ = fun _ _ => fp64.decode 0 :=
    funext fun k => funext fun n => congrArg (fun x => opVal 1 0 0 x) (tileElem_empty _ _ _)
  refine ⟨rfl, by decide, fun ps => ?_⟩
  rw [h1, h2]
  exact rowCheck_zeros ps

/-! ### The drain path and command blocks -/

/-- A drain of a descriptor, started or not, at a row. -/
def dr (desc : Word) (st : Bool) (next : Nat) : Drn :=
  { desc := desc, rm := 0, ovm := false, daddr := 0, spaddr := 0, wseq := 0, by_ := ⟨0, 0, 0, 0, false⟩, auto := false, started := st, swapped := true, next := next, ev := Ev.none }
theorem witness_DrainResults : let q := ent 3 (.mest (dr drn false 0))
    let st := (queue [q]).dev.stn 0
    Cert.Live st ∧ st.eng.queue = [] ++ q :: [] ∧ (∀ m ∈ q.kind.writes, ∀ o ∈ st.tops, o.tile ≠ m) ∧ st.topWrites q.kind.reads = false ∧ drnScratch drn = false :=
  ⟨⟨rfl, rfl⟩, rfl, by decide +kernel, by decide +kernel, by decide +kernel⟩
theorem witness_DrainResults_row : 0 < drnOut drn ∧ drnMode drn = 0 ∧ drnGrp drn = 0 ∧ drnMerge drn = false ∧ drnBs drn = 0 ∧ drnStats drn = false ∧ drnCausal drn = false ∧
    drn.toNat / 2 ^ 43 % 8 = 0 ∧ drnFmt drn = 2 ∧ (dr drn true 0).rm ≠ 4 ∧ Cert.cfRow (((queue []).dev.stn 0).cfg (drn.toNat / 2 ^ 32 % 8)) = 512 ∧ drnDseg drn = 0 := by decide +kernel
theorem witness_DrainResults_retire : let q := ent 3 (.mest (dr drn true 1))
    (queue [q]).dev.stn 0 |>.eng.queue = [] ++ q :: [] → drnOut drn ≤ (dr drn true 1).next ∧ (dr drn true 1).ev.enabled 0 = 0 := fun _ => ⟨by decide, by decide⟩

/-- A block of one command has it as its next. -/
theorem nextOk (c op : Nat) (h1 : Cert.cOp c = op) (h2 : c / 2 ^ 16 % 256 = 0) (h3 : c / 2 ^ 15 % 2 = 0) : Cert.Next (running [c] 0).dev 0 op (blk [c] 0) c :=
  ⟨⟨rfl, rfl⟩, rfl, rfl, rfl, Nat.zero_lt_one, rfl, h1, h2, fun h => absurd (h3.symm.trans h) (by decide)⟩
theorem witness_CommandBlockResults_next : (∀ op ∈ [0x00, 0x01, 0x02, 0x03, 0x04, 0x05, 0x08, 0x09, 0x0A, 0x0B, 0x0C, 0x10, 0x11, 0x12, 0x1E, 0x1F],
      Cert.Next (running [op] 0).dev 0 op (blk [op] 0) op) ∧ Cert.NoLoopEnd (blk [0] 0) := by
  constructor
  · intro op h
    have h : Cert.cOp op = op ∧ op / 2 ^ 16 % 256 = 0 ∧ op / 2 ^ 15 % 2 = 0 := by
      revert h; revert op; decide
    exact nextOk op op h.1 h.2.1 h.2.2
  · intro l r h; cases h
theorem witness_CommandBlockResults_predicated : Cert.Next (running [0x8300] 0).dev 0 0x00 (blk [0x8300] 0) 0x8300 :=
  ⟨⟨rfl, rfl⟩, rfl, rfl, rfl, Nat.zero_lt_one, rfl, rfl, rfl, fun _ => ⟨by decide +kernel, fun _ h => by cases h⟩⟩
/-- The bytes of a header of one NOP, with no slot, at offset 0 of the scratchpad, and the block that a MERUN queued. -/
def loaded : State := owned (fun s => { s with
  sp := s.sp.writeBytes 0 [1, 0, 1, 0], eng := { s.eng with queue := [ent 3 (.merun (spA 0) ⟨0, 0, 0, 0, false⟩ false)] } })
theorem witness_CommandBlockResults_start : Cert.Live (loaded.dev.stn 0) ∧
    (loaded.dev.stn 0).eng.nextRun = some (ent 3 (.merun (spA 0) ⟨0, 0, 0, 0, false⟩ false), spA 0, ⟨0, 0, 0, 0, false⟩) ∧ (loaded.dev.stn 0).eng.cbResume = false ∧
    (∃ d1 hd, loaded.dev.seqRead (blkHart 0 ⟨0, 0, 0, 0, false⟩) 0 16 (spA 0).toNat 16 = (d1, .ok hd) ∧ natLE hd = 0x10001) ∧
    (∃ d2, loaded.dev.seqRead (blkHart 0 ⟨0, 0, 0, 0, false⟩) 0 16 (spA 0 + 16).toNat 16 = (d2, .ok (List.replicate 16 0))) ∧ firstBad 0 (chunks 16 1 (List.replicate 16 0)) = none :=
  ⟨⟨rfl, rfl⟩, by decide +kernel, by decide +kernel, ⟨_, _, rfl, by decide +kernel⟩, ⟨_, rfl⟩, by decide +kernel⟩
theorem witness_CommandBlockResults_loop : (⟨0, 1, 2, 0⟩ : BLoop).cmd + 1 = (blk [1, 0] 1).next ∧ (⟨0, 1, 2, 0⟩ : BLoop).iter + 1 < 2 ∧ (0x100000001 / 2 ^ 32 % 2 ^ 24) = 1 ∧ (1 / 2 ^ 32 % 2 ^ 24) = 0 := by decide
theorem witness_CommandBlockResults_tile : let c := 0x02000005
    let s := onS (fun s => { s with owner := some 0, tcfg := s.tcfg.set 2 0x0F010002, eng := { s.eng with blk := some (blk [c] 0) } })
    Cert.cTn c = 2 ∧ ((s.dev.stn 0).tcfg.getD 2 0).toNat ≠ 0 ∧ (s.dev.stn 0).tileUsed 2 = false ∧ (blk [c] 0).slotAddr 0 = 0 := by decide +kernel
theorem witness_CommandBlockResults_fill : let s := onS (fun s => { s with owner := some 0, tcfg := s.tcfg.set 2 0x0F010001 })
    ∃ d2 locs, Dev.checkAccs h0 0 .load .bulk [⟨(spA 0).toNat, 16, 0⟩] s.dev [] = (d2, .ok locs) ∧ d2.stn 0 = s.dev.stn 0 ∧ locs.map (fun x => region x.1) = [0].map (fun o => .scratch 0 o) ∧
      (s.dev.stn 0).spState = 0 ∧ (s.dev.stn 0).spPoison = [] := ⟨_, _, rfl, rfl, by decide +kernel, by decide +kernel, by decide +kernel⟩
theorem witness_CommandBlockResults_port : ∃ st2 x, ((running [0x10A] 0).dev.stn 0).meacc { by_ := ⟨0, 0, 0, 0, false⟩, inBlk := true, prec := none, setp := none, ceil := 8 } 0 256 = .ok st2 x := ⟨_, _, rfl⟩
theorem witness_CommandBlockResults_end : let q := ent 3 (.merun 0 ⟨0, 0, 0, 0, false⟩ true)
    let s := onS (fun s => { s with owner := some 0, eng := { s.eng with blk := some (blk [0] 1), queue := [q] } })
    Cert.Live (s.dev.stn 0) ∧ (s.dev.stn 0).eng.blk = some (blk [0] 1) ∧ (blk [0] 1).cmds.length ≤ (blk [0] 1).next ∧ (s.dev.stn 0).eng.queue = [q] ∧ q.running = true ∧
    Cert.NoWaiter (s.dev.stn 0) ∧ ((s.dev.stn 0).thr 0).wait = .ready :=
  ⟨⟨rfl, rfl⟩, by decide +kernel, by decide, by decide +kernel, rfl, fun k => match k with | 0 => trivial | 1 => trivial | 2 => trivial | 3 => trivial, by decide +kernel⟩

end Sys2Proof.Tests
end

