-- ==== Sys2Proof/Tests/Witness4.lean ====
section
/-! SUPPORT. For every statement with hypotheses, concrete states and operands that meet them: the timetable, the coupling, orders,
binding, links and the junction. -/

namespace Sys2Proof.Tests

set_option Elab.async false

open Sys2Proof.Machine

set_option maxRecDepth 100000

/-! ### The timetable -/

/-- The device RUNNING with a timetable. -/
def tt (f : Tt → Tt) : State := on (fun d => { d with tt := f d.tt })
/-- Entry 0: START_TICK 0, DEADLINE_TICK 5, of a kind, REPRO or not. -/
def phase (kind : Nat) (repro : Nat) (t : Tt) : Tt :=
  { t with nphase := 1, len := 5, phases := (t.phases.set 0 0x500000000).set 1 (BitVec.ofNat 64 (kind + 256 * repro)) }

theorem witness_BoundaryResults : (tt id).dev.pw.state = .running ∧ Cert.Settled (tt id).dev ∧ (tt id).dev.tt.role = 0 ∧ (tt id).dev.tt.halt = none ∧
    (tt id).dev.tt.sched.active = false ∧ (tt id).dev.tt.state ≠ 5 := ⟨rfl, .inr ⟨rfl, rfl, fun h => nomatch h.1⟩, rfl, rfl, rfl, by decide⟩
theorem witness_BoundaryResults_first : let d := (tt (fun t => { phase 0 0 t with state := 1, enable := true, sched := ⟨true, true, 0, 0, 0, false, 0, 0⟩ })).dev
    Cert.Settled d ∧ d.tt.state = 1 ∧ d.tt.sched.active = true ∧ d.dfatal = false ∧ 1 ≤ d.tt.nphase ∧ 0 < Cert.deadTick d.tt 0 ∧ d.tt.sched.first = true :=
  ⟨.inr ⟨rfl, rfl, fun h => nomatch h.1⟩, rfl, rfl, rfl, by decide, by decide +kernel, rfl⟩
theorem witness_BoundaryResults_next : let t := (tt (fun t => { phase 0 0 t with state := 1, tick := 9, sched := ⟨true, false, 10, 0, 0, false, 0, 10⟩ })).dev.tt
    t.sched.first = false ∧ t.sched.k = 0 ∧ 0 < t.nphase ∧ ¬ (Cert.kind t 0 = 5 ∧ t.sched.base + Cert.deadTick t 0 ≤ t.tick + 1) ∧ t.sched.base + Cert.startTick t 0 ≤ t.tick + 1 := by decide +kernel
theorem witness_BoundaryResults_last : let t := (tt (fun t => { phase 0 0 t with state := 1, tick := 14, sched := ⟨true, false, 10, 0, 1, false, 0, 15⟩ })).dev.tt
    t.sched.first = false ∧ t.nphase ≤ t.sched.k ∧ t.sched.base + t.len ≤ t.tick + 1 ∧ t.sched.prevEnd ≤ t.tick + 1 := by decide +kernel

theorem witness_PhaseResults_start : let t := (tt (fun t => { phase 0 0 t with startDue := some 0 })).dev.tt
    t.startDue = some 0 ∧ Cert.fl (t.phases.getD 1 0) 31 16 = 0 ∧ Cert.kind t 0 ≠ 5 := by decide +kernel
/-- Phase 0 runs. -/
def phasing (kind repro : Nat) (f : Tt → Tt) : State := tt (fun t => f { phase kind repro t with state := 2, inPhase := true, sched := ⟨true, false, 0, 0, 0, true, 0, 0⟩ })
theorem witness_PhaseResults_deadline : let t := (phasing 0 0 (fun t => { t with tick := 5 })).dev.tt
    t.inPhase = true ∧ Cert.kind t t.phase.toNat ≠ 5 ∧ t.state = 2 ∧ t.sched.base + Cert.deadTick t t.phase.toNat ≤ t.tick := by decide +kernel
theorem witness_PhaseResults_end : let d := (phasing 0 0 (fun t => { t with done := true })).dev
    Cert.Quiet d ∧ d.tt.role = 0 ∧ Cert.fl (d.tt.phases.getD 1 0) 8 8 = 0 ∧ d.tt.recEn = false ∧ d.bd.counting = false ∧ d.now < d.tt.lastB + d.tt.curPeriod * 17 ∧ d.tt.ended = none :=
  ⟨⟨rfl, by decide +kernel, by decide +kernel, by decide +kernel, by decide +kernel⟩, rfl, by decide +kernel, rfl, rfl, by decide +kernel, rfl⟩
theorem witness_PhaseResults_repro : let s : State := { phasing 1 1 (fun t => { t with done := true }) with
      dev := (phasing 1 1 (fun t => { t with done := true })).dev.updStn 0 (fun s => { s with logs := ⟨[(0, [⟨8, 0x3F800000, 3, 1⟩])]⟩ }) }
    Cert.Quiet s.dev ∧ Cert.fl (s.dev.tt.phases.getD 1 0) 8 8 = 1 ∧ (s.dev.stn 0).logs = ⟨[(0, [⟨8, 0x3F800000, 3, 1⟩])]⟩ ∧ (s.dev.stn 0).spPoison = [] :=
  ⟨⟨by decide +kernel, by decide +kernel, by decide +kernel, by decide +kernel, by decide +kernel⟩, by decide +kernel, by decide +kernel, by decide +kernel⟩
theorem witness_PhaseResults_stores : Cert.Reaches up.dev h0 .tt 0x30 ∧ Cert.Reaches up.dev h0 .tt 0x10 ∧ Cert.Reaches up.dev h0 .tt 0 ∧
    (phasing 0 0 id).dev.tt.inPhase = true ∧ Cert.fl 0 5 0 = (phasing 0 0 id).dev.tt.phase.toNat ∧ Cert.fl 63 5 0 ≠ (phasing 0 0 id).dev.tt.phase.toNat ∧
    100000 ≤ Cert.fl 100000 29 0 ∧ Cert.fl 1000000000 29 0 ≤ 1000000000 ∧ ¬ (100000 ≤ Cert.fl 99999 29 0) := by
  refine ⟨⟨by decide +kernel, ⟨rfl, rfl⟩, rfl, rfl⟩, ⟨by decide +kernel, ⟨rfl, rfl⟩, rfl, rfl⟩, ⟨by decide +kernel, ⟨rfl, rfl⟩, rfl, rfl⟩, ?_⟩
  decide +kernel
theorem witness_PhaseResults_enable : Cert.tableOk (tt (phase 5 0)).dev.tt ∧ ¬ Cert.tableOk up.dev.tt ∧
    (∃ j, j < 1 ∧ ¬ Cert.entryOk (tt (phase 6 0)).dev.tt j) := by
  refine ⟨?_, fun h => by exact absurd h.1 (by decide +kernel), 0, by decide, fun h => by exact absurd h.2.1 (by decide +kernel)⟩
  unfold Cert.tableOk Cert.entryOk
  decide +kernel

theorem witness_HaltAndResumeResults : Cert.Reaches up.dev h0 .tt 0 ∧ (64 : Word).getLsbD 0 = up.dev.tt.enable ∧ (64 : Word).getLsbD 7 = false ∧ up.dev.tt.role ≠ 2 ∧
    up.dev.tt.halt = none ∧ up.dev.tt.ann = [] ∧ (on id).dev.pw.state = .running := by
  refine ⟨⟨by decide +kernel, ⟨rfl, rfl⟩, rfl, rfl⟩, ?_⟩
  decide +kernel
theorem witness_HaltAndResumeResults_resume : let t := (tt (fun t => { t with state := 5 })).dev.tt
    (128 : Word).getLsbD 6 = false ∧ t.state = 5 ∧ t.role = 0 ∧ (tt (fun t => { t with state := 5 })).dev.cfatal = false := by decide +kernel
theorem witness_HaltAndResumeResults_tick : let d := (tt (fun t => { t with halt := some (1, 17000, 6) })).dev
    d.tt.halt = some (1, 17000, 6) ∧ d.tt.ann = [] ∧ Cert.Settled d ∧ d.dfatal = false ∧ d.tt.inPhase = false ∧ Cert.Live (d.stn 0) :=
  ⟨rfl, rfl, .inr ⟨rfl, rfl, fun h => nomatch h.1⟩, rfl, rfl, rfl, rfl⟩
theorem witness_HaltAndResumeResults_held : let d := (on (fun d => { d with tt := { d.tt with state := 4, why := 1 }, bd := { d.bd with counting := true }, sec := { d.sec with image := some ⟨0x1000, 0x40, 0, 0x100⟩ } })).dev
    d.tt.state = 4 ∧ (∀ p ∈ d.sh.chans.entries, p.2.mode = 0) ∧ (∀ p ∈ d.jn.groups.entries, p.2.inst = none) ∧ d.host.ld.flushes = [] ∧ d.listed = none ∧ d.tt.why ≠ 4 ∧
    d.bd.counting = true ∧ d.present 0 = true ∧ Cert.Live (d.stn 0) :=
  ⟨rfl, by decide +kernel, by decide +kernel, rfl, rfl, by decide, rfl, by decide +kernel, rfl, rfl⟩
theorem witness_HaltAndResumeResults_boundary : let t := (tt (fun t => { phase 0 0 t with resumeDue := true, enable := true, cur := some ⟨1, 17000000, false, true, true, false, 0, 7, 1000000⟩ })).dev.tt
    t.resumeDue = true ∧ t.cur = some ⟨1, 17000000, false, true, true, false, 0, 7, 1000000⟩ ∧ t.enable = true ∧ Cert.tableOk t := by
  refine ⟨rfl, rfl, rfl, ?_⟩
  unfold Cert.tableOk Cert.entryOk
  decide +kernel

/-! ### The coupling, orders and binding -/

/-- Link 3 is UP to device 9. -/
def linked (f : Tt → Tt) (g : Dev → Dev) : State := on (fun d => g { d with tt := f d.tt, links := d.links.set 3 { Link.reset with state := 4, peer := 9, vmaj := 1, lanes := 0xFF } })
theorem readyLinked (f : Tt → Tt) (g : Dev → Dev) (h : (linked f g).dev.link 3 = { Link.reset with state := 4, peer := 9, vmaj := 1, lanes := 0xFF }) :
    Cert.ReadyLink ((linked f g).dev.link 3) := by
  rw [h]
  exact ⟨rfl, rfl, rfl, Nat.zero_lt_succ _, fun _ _ => Nat.zero_lt_succ _⟩
/-- A master that holds the staff over the device behind link 3. -/
def master (f : Tt → Tt) : State := linked (fun t => f { t with role := 1, hold := true, cplChild := 8, expiry := 100 }) id
theorem witness_CouplingResults : let t := (master id).dev.tt
    Cert.Powered (master id).dev ∧ t.role = 1 ∧ t.hold = true ∧ t.ann = [] ∧ t.plan.running = false ∧ t.cplChild = BitVec.ofNat 24 (2 ^ 3) ∧
    Cert.ReadyLink ((master id).dev.link 3) ∧ t.halt = none ∧ t.tick + 1 < t.expiry ∧ t.state ≠ 4 ∧ t.state ≠ 5 ∧ t.plan.active = false :=
  ⟨⟨.inr rfl, rfl⟩, rfl, rfl, rfl, rfl, rfl, readyLinked _ _ rfl, rfl, by decide, by decide, by decide, rfl⟩
/-- A flit of a kind delivered from link 3, of data bytes. -/
def inbox (kind tc : Nat) (data : List Byte) (f : Tt → Tt) (g : Dev → Dev) : State :=
  linked f (fun d => g { d with jn := { d.jn with inbox := [(3, 0, ⟨BitVec.ofNat 4 kind, false, false, BitVec.ofNat 3 tc, 1, 0, 9, 0, data⟩)], routes := d.jn.routes.set 9 3 } })
/-- A BOUNDARY of number 1 in 1,000,000 ns, of epoch 1. -/
def boundary : List Byte := Cert.bytes 4 1 ++ Cert.bytes 8 1 ++ Cert.bytes 8 0 ++ Cert.bytes 4 1000000 ++ Cert.bytes 4 1000000 ++ Cert.bytes 4 1 ++ Cert.bytes 2 9
theorem witness_CouplingResults_receive : let s := inbox 2 0 boundary (fun t => { t with role := 2, cplParent := 3 }) id
    ∃ f, Cert.Delivered s.dev 3 0 f [] ∧ f.kind = 2 ∧ flitU f 12 1 = 1 ∧ s.dev.tt.epoch ≤ flitU f 40 4 ∧ s.dev.tt.tick < flitU f 16 8 ∧
      0 < 0 + flitU f 32 4 * 17 - (s.dev.link 3).lat * 17 ∧ s.dev.tt.cplParent = 3 ∧ s.dev.tt.cplChild = 0 :=
  ⟨_, rfl, rfl, by decide +kernel, by decide +kernel, by decide +kernel, by decide +kernel, rfl, rfl⟩
theorem witness_CouplingResults_refused : let s := inbox 2 0 boundary (fun t => { t with role := 2, cplParent := 4, epoch := 2, tick := 1 }) id
    ∃ f, Cert.Delivered s.dev 3 0 f [] ∧ flitU f 40 4 < s.dev.tt.epoch ∧ flitU f 16 8 ≤ s.dev.tt.tick ∧ s.dev.tt.cplParent ≠ 3 := ⟨_, rfl, by decide +kernel, by decide +kernel, by decide +kernel⟩
theorem witness_CouplingResults_second : let s := inbox 2 0 boundary (fun t => { t with role := 1, epoch := 1 }) id
    ∃ f, Cert.Delivered s.dev 3 0 f [] ∧ flitU f 12 1 = 1 ∧ s.dev.tt.role = 1 ∧ flitU f 40 4 = s.dev.tt.epoch ∧ s.dev.tt.halt = none ∧ s.dev.tt.ann = [] := ⟨_, rfl, by decide +kernel, rfl, by decide +kernel, rfl, rfl⟩
theorem witness_CouplingResults_missed : let d := (tt (fun t => { t with role := 2 })).dev
    d.tt.role = 2 ∧ Cert.Settled d ∧ d.tt.ann = [] ∧ d.tt.cplChild = 0 ∧ (d.link d.tt.cplParent).state ≠ 4 ∧ d.tt.parting = false ∧ d.tt.sched.active = false ∧ d.tt.sched.running = false :=
  ⟨rfl, .inr ⟨rfl, rfl, fun h => nomatch h.1⟩, rfl, rfl, by decide +kernel, rfl, rfl, rfl⟩
/-- A report of boundary 1, READY, of phase 0 and miss 0, with or without HALTREQ. -/
def report (fl : Nat) : List Byte := Cert.bytes 1 2 ++ Cert.bytes 1 fl ++ Cert.bytes 2 0x0600 ++ Cert.bytes 8 1 ++ Cert.bytes 8 0 ++ Cert.bytes 4 0 ++ Cert.bytes 4 0 ++ Cert.bytes 4 1
theorem witness_CouplingResults_report : ∀ fl ∈ [2, 3], let s := inbox 2 0 (report fl) (fun t => { t with role := 1, cplChild := 8, epoch := 1 }) id
    ∃ f, Cert.Delivered s.dev 3 0 f [] ∧ f.kind = 2 ∧ flitU f 12 1 = 2 ∧ s.dev.tt.cplChild.getLsbD 3 = true ∧ s.dev.tt.role = 1 ∧ flitU f 40 4 ≤ s.dev.tt.epoch ∧ flitU f 13 1 = fl := by
  intro fl h
  rcases List.mem_cons.1 h with h | h
  · subst h; exact ⟨_, rfl, rfl, by decide +kernel, by decide +kernel, rfl, by decide +kernel, by decide +kernel⟩
  · rcases List.mem_singleton.1 h with rfl; exact ⟨_, rfl, rfl, by decide +kernel, by decide +kernel, rfl, by decide +kernel, by decide +kernel⟩
theorem witness_CouplingResults_reportTimeout : let s := linked (fun t => { t with role := 2, cplParent := 3, repSent := 0, tick := 1 }) id
    s.dev.tt.role = 2 ∧ s.dev.tt.repSent ≠ s.dev.tt.tick ∧ Cert.ReadyLink (s.dev.link s.dev.tt.cplParent) := ⟨rfl, by decide, readyLinked _ _ rfl⟩
theorem witness_CouplingResults_partition : let t := (master (fun t => { t with incomplete := 3 })).dev.tt
    3 ≤ t.incomplete ∧ t.state ≠ 4 ∧ t.state ≠ 5 ∧ t.halt = none ∧ t.ann = [] ∧ t.hold = true := by decide +kernel
theorem witness_CouplingResults_lease : let t := (master (fun t => { t with expiry := 1, cplChild := 0 })).dev.tt
    t.expiry ≤ t.tick + 1 ∧ t.state ≠ 5 ∧ t.halt = none ∧ t.cplChild = 0 ∧ t.plan.running = false := by decide +kernel

theorem witness_OrderResults : (on id).dev.pw.state = .running ∧ (on id).dev.tt.role ≠ 2 ∧ (on id).dev.tt.halt = none ∧ (on id).dev.tt.ann = [] ∧ (on id).dev.bd.state ≠ 2 ∧
    (on id).dev.dfatal = false := by decide +kernel
theorem witness_OrderResults_resume : let d := (on (fun d => { d with tt := { d.tt with state := 5, hold := true }, bd := { d.bd with state := 2 } })).dev
    d.tt.state = 5 ∧ d.tt.hold = true ∧ d.bd.state = 2 ∧ d.tt.tick < (1 : Word).toNat ∧ d.now + d.tt.lead * 17000 ≤ d.tt.lastB + ((1 : Word).toNat - d.tt.tick) * d.tt.curPeriod * 17 ∧
    (1 : Word).toNat < d.tt.expiry ∧ d.tt.role = 0 ∧ d.cfatal = false := by decide +kernel
theorem witness_OrderResults_lease : let t := (tt (fun t => { t with hold := true, epoch := 1, expiry := 2, state := 5 })).dev.tt
    (1 : BitVec 32).toNat = t.epoch ∧ t.hold = true ∧ t.tick < (1 : Word).toNat ∧ t.tick < t.expiry ∧ t.epoch < (2 : BitVec 32).toNat := by decide +kernel
theorem witness_OrderResults_bind : Cert.bindReason (on id).dev [] = 1 := by unfold Cert.bindReason; decide +kernel
theorem witness_OrderResults_retire : let d := (on id).dev
    (127 : BitVec 16).toNat < 128 ∧ d.made.getLsbD 127 = true ∧ d.retStn.getLsbD 127 = false ∧ d.retPend.getLsbD 127 = false ∧ d.bd.state = 0 ∧ ¬ (128 : BitVec 16).toNat < 128 := by decide +kernel
/-- An ORDER flit of a segment of a message. -/
def orderFlit (seg nseg len : Nat) : List Byte := Cert.bytes 4 7 ++ Cert.bytes 2 seg ++ Cert.bytes 2 nseg ++ Cert.bytes 2 len ++ Cert.bytes 6 0
theorem witness_OrderResults_flit : (∃ f, Cert.Delivered (inbox 3 1 (orderFlit 0 1 224) id id).dev 3 0 f [] ∧ f.kind = 3 ∧ flitU f 18 2 = 1 ∧ flitU f 16 2 = 0 ∧ flitU f 20 2 = 224 ∧
      (inbox 3 1 (orderFlit 0 1 224) id id).dev.dict.orders = []) ∧
    ∃ f, Cert.Delivered (inbox 3 1 (orderFlit 31 32 7168) id id).dev 3 0 f [] ∧ flitU f 18 2 = 32 ∧ flitU f 16 2 = 31 ∧ flitU f 20 2 = 7168 ∧ 32 = (7168 + 223) / 224 :=
  ⟨⟨_, rfl, rfl, by decide +kernel, by decide +kernel, by decide +kernel, rfl⟩, _, rfl, by decide +kernel, by decide +kernel, by decide +kernel, by decide⟩
theorem witness_OrderResults_forward : (on (fun d => { d with dict := { d.dict with forwards := [⟨5, .flit 9 4, 1, 1, 0⟩] } })).dev.dict.forwards = ⟨5, .flit 9 4, 1, 1, 0⟩ :: [] := rfl

/-- Step n of a binding sequence in a state. -/
def binding (n st : Nat) (new : Option NewBind) : State := on (fun d => { d with bd := { d.bd with step := n, state := st, new := new } })
theorem witness_BindingSteps : ∀ n ∈ [1, 2, 3, 4, 5, 6, 7, 8], (binding n 1 none).dev.bd.step = n ∧ (binding n 1 none).dev.pw.state = .running ∧ (binding n 1 none).dev.dfatal = false ∧
    (binding n 1 none).dev.retPend = 0 := by decide +kernel
theorem witness_BindingSteps_new : let b : NewBind := ⟨List.replicate 64 0, zero64, 3, none, none⟩
    (binding 7 1 (some b)).dev.bd.new = some b ∧ recOf b.rec_ 5 = [] ∧ (binding 6 3 none).dev.bd.state = 3 := by decide +kernel
theorem witness_BindingSteps_seal : (on (fun d => { d with bd := { d.bd with unsigned := [Cert.sealOf d 3] } })).dev.bd.unsigned = Cert.sealOf (on id).dev 3 :: [] := rfl

/-! ### Links and the junction -/

/-- Link 3 as given. -/
def link (k : Link) : State := on (fun d => { d with links := d.links.set 3 k })
theorem noTree (k : Link) : Cert.NoTree (link k).dev 3 := fun _ _ h => absurd rfl h
theorem witness_LinkResults : Cert.Reaches (link Link.reset).dev h0 (.lk 3) 0 ∧ (1 : Word).getLsbD 2 = false ∧ (4 : Word).getLsbD 0 = ((link Link.reset).dev.link 3).en ∧
    Cert.NoTree (link Link.reset).dev 3 := ⟨⟨by decide +kernel, ⟨rfl, rfl⟩, by decide +kernel, by decide +kernel⟩, by decide, by decide +kernel, noTree _⟩
theorem witness_LinkResults_states : ∀ n : BitVec 3, ((link { Link.reset with state := n }).dev.link 3).state = n ∧ ((link { Link.reset with state := n }).dev.link 3).outq = [] ∧
    ((link { Link.reset with state := n }).dev.link 3).recovering = false ∧ ((link { Link.reset with state := n }).dev.link 3).trained.getLsbD 7 = false := by decide +kernel
theorem witness_LinkResults_caps : 1 ≤ (1 : BitVec 8).toNat ∧ (2 : BitVec 16).getLsbD 1 = true ∧ 4 ≤ Cert.lanesOf ((0xFF : BitVec 8) &&& 0x0F) ∧ ¬ 4 ≤ Cert.lanesOf ((0xFF : BitVec 8) &&& 0x07) := by decide +kernel
/-- A flit in the replay buffer after n replays. -/
def tx (n : Nat) : TxFlit := ⟨0, ⟨4, false, false, 0, 1, 0, 0, 9, []⟩, n, []⟩
theorem witness_LinkResults_replay : let k : Link := { Link.reset with state := 4, unacked := [tx 7], txSeq := 1 }
    (Cert.acks 0 0xFFFF k).unacked = [tx 7] ∧ (tx 7).replays < 8 ∧ (Cert.acks 0 0 k).unacked = [] ∧ 8 ≤ (tx 8).replays := by decide +kernel
theorem witness_LinkResults_sequence : let k : Link := { Link.reset with state := 4, rxNext := 5 }
    (5 : BitVec 16).toNat = k.rxNext ∧ (6 : BitVec 16).toNat ≠ k.rxNext ∧ k.recovering = false := by decide
theorem witness_LinkResults_lanes : let k : Link := { Link.reset with state := 4, lanes := 0x1F, exhT := [(0, 5), (0, 5), (0, 5)] }
    k.lanes.getLsbD 0 = true ∧ 4 < Cert.lanesOf k.lanes ∧ Cert.lanesOf (0x0F : BitVec 8) ≤ 4 ∧ 3 ≤ Cert.within1s 5 0 k.exhT ∧ k.arm = true := by decide +kernel

/-- A flit from link 3 waits at the junction. -/
def atJunction (f : Flit) (devid : Nat) : State := linked id (fun d => { d with jn := { d.jn with devid := devid, inq := [(3, 0, f)], routes := d.jn.routes.set 9 3 } })
theorem witness_JunctionResults : let f : Flit := ⟨4, true, false, 3, 1, 0, 9, 2, []⟩
    (atJunction f 2).dev.jn.inq = [] ++ ((3 : Fin 24).val, 0, f) :: [] ∧ ¬ Cert.malformed ((atJunction f 2).dev.link 3).vmaj f ∧ f.dst.toNat = (atJunction f 2).dev.jn.devid ∧ f.sys = true ∧
    Cert.NoRoute (atJunction f 3).dev 2 ∧ Cert.Route (atJunction f 2).dev 9 3 := by
  refine ⟨rfl, ?_, rfl, rfl, .inl (by decide +kernel), by decide +kernel, by decide, by decide +kernel, readyLinked _ _ rfl⟩
  intro h
  rcases h with h | h | h | h | h | h
  iterate 5 exact absurd h (by decide +kernel)
  rcases h with h | h <;> exact absurd h (by decide +kernel)
theorem witness_JunctionResults_malformed : Cert.malformed 1 ⟨1, true, false, 3, 1, 0, 9, 2, []⟩ ∧ Cert.malformed 1 ⟨4, true, false, 6, 1, 0, 9, 2, []⟩ ∧ Cert.asks ⟨5, true, false, 3, 1, 0, 9, 2, []⟩ :=
  ⟨.inl (by decide), .inr (.inr (.inl (by decide))), .inr ⟨rfl, rfl⟩⟩
/-- A request for n bytes at an address. -/
def request (a n : Nat) : List Byte := Cert.bytes 8 a ++ Cert.bytes 2 7 ++ Cert.bytes 1 (n - 1) ++ Cert.bytes 5 0
theorem witness_JunctionResults_read : let s := inbox 4 3 (request 0x1000 2) id (fun d => { d with jn := { d.jn with devid := 2 } })
    ∃ f, Cert.Delivered s.dev 3 0 f [] ∧ Cert.Route s.dev f.src.toNat 3 ∧ f.kind = 4 ∧ flitU f 12 8 = 0x1000 ∧ flitU f 22 1 + 1 = 2 ∧ Cert.Plain s.dev 0x1000 ∧ Cert.Plain s.dev 0x1001 :=
  ⟨_, rfl, ⟨by decide +kernel, by decide, by decide +kernel, readyLinked _ _ rfl⟩, rfl, by decide +kernel, by decide +kernel,
    .inl ⟨by decide +kernel, by decide +kernel, by decide +kernel, by decide +kernel⟩, .inl ⟨by decide +kernel, by decide +kernel, by decide +kernel, by decide +kernel⟩⟩
theorem witness_JunctionResults_alien : region 0x40000000000 = .host 0 := by decide +kernel
theorem witness_JunctionResults_resp : let y : Chan := { Chan.reset with ctx := 1, mode := 2, req := some (7, 2, 0), cur := { Desc.zero with src := 0x1000, dst := 0x2000, count := 2, ctl := 0x4040 } }
    let s := inbox 6 4 (request 0x1000 2) id (fun d => { d with sh := { d.sh with chans := ⟨[(5, y)]⟩ } })
    ∃ f, Cert.Delivered s.dev 3 0 f [] ∧ f.kind = 6 ∧ s.dev.sh.chans.entries = [(5, y)] ∧ y.req = some (flitU f 20 2, 2, 0) ∧ flitU f 23 1 = 0 ∧ y.mode = 2 ∧ y.fin = none ∧
      y.cur.count ≤ y.acked + 2 ∧ y.cur.remote = 1 ∧ y.cur.swap = 0 ∧ Cert.Lands s.dev y.ctx .store (y.cur.dstAt 0) 0x2000 :=
  ⟨_, rfl, rfl, rfl, by decide +kernel, by decide +kernel, rfl, rfl, by decide, by decide +kernel, by decide +kernel, ⟨_, rfl⟩,
    .inl ⟨by decide +kernel, by decide +kernel, by decide +kernel, by decide +kernel⟩, .inl (by decide)⟩
theorem witness_JunctionResults_routes : Cert.Reaches up.dev h0 .jn 0x10 ∧ ringMayReg (up.dev.thr h0).ring false .jn 0x10 = true ∧ Cert.fl 23 4 0 < 24 ∧ ¬ Cert.fl 24 4 0 < 24 :=
  ⟨⟨by decide +kernel, ⟨rfl, rfl⟩, rfl, rfl⟩, by decide +kernel, by decide, by decide⟩

end Sys2Proof.Tests
end

