-- ==== Sys2Proof/Tests/Witness5.lean ====
section
/-! SUPPORT. For every statement with hypotheses, concrete states and operands that meet them: shunters, gather engines, reductions, memory
units, the ledger, host ports, boot, the dictionary, the recorder, power and the register and test access ports. -/

namespace Sys2Proof.Tests

set_option Elab.async false

open Sys2Proof.Machine

set_option maxRecDepth 100000

/-! ### Shunters, gather engines, reductions -/

/-- Channel 2 of engine 8 as given. -/
def chan (y : Chan) : State := on (fun d => { d with sh := { d.sh with chans := d.sh.chans.set 130 y } })
/-- A direct transfer of two bytes from 0x1000 to 0x2000 in the physical context of thread 0. -/
def direct (mode : Nat) : Chan := { Chan.reset with ctx := 1, src := 0x1000, dst := 0x2000, cnt := 2, mode := mode, cur := { Desc.zero with src := 0x1000, dst := 0x2000, count := 2, ctl := 0x4000 } }
theorem witness_ShunterResults : Cert.Reaches up.dev h0 (.sh 8) (0x120 + 0x40 * 2) ∧ (1 : Word).getLsbD 2 = false ∧ (4 : Word).getLsbD 0 = false ∧
    ((chan (direct 0)).dev.sh.chans.getD 130 Chan.reset).mode = 0 ∧ ((chan (direct 2)).dev.sh.chans.getD 130 Chan.reset).mode = 2 ∧ (direct 2).cur.ctl / 64 % 4 = 0 := by
  refine ⟨⟨by decide +kernel, ⟨rfl, rfl⟩, by decide +kernel, by decide +kernel⟩, ?_⟩
  decide +kernel
theorem witness_ShunterResults_begun : let x : Desc := ⟨0x1000, 0x2000, 0, 0x4000, 2, 0, 0, true⟩
    Cert.begun (chan (direct 0)).dev 1 x false none ∧ Cert.begun (chan (direct 0)).dev 1 { x with count := 0 } false (some ⟨0, 0, 0, 0⟩) ∧
    Cert.begun (chan (direct 0)).dev 1 { x with ctl := 0x400C } true (some ⟨2, 0, 0, 0⟩) := by
  refine ⟨.inr ⟨fun h => (by cases h), .inr ⟨by decide, .inr ⟨?_, rfl⟩⟩⟩, .inr ⟨fun h => (by cases h), .inl ⟨rfl, rfl⟩⟩,
    .inr ⟨fun _ => ?_, .inr ⟨by decide, .inl ⟨?_, rfl⟩⟩⟩⟩
  · unfold Cert.shapeOk; decide +kernel
  · unfold Cert.codesOk; decide +kernel
  · intro h; exact absurd h.2.2.2.2.2.2.2.1 (by decide +kernel)
/-- A descriptor at 0x3000 of two bytes, OWN set. -/
def described : State := on (fun d => { d with
  mem := { d.mem with gddr := ((d.mem.gddr.writeBytes 0x3001 [0x10]).writeBytes 0x3007 [0x20]).writeBytes 0x3013 [0x40, 2] |>.writeBytes 0x303F [0x80] },
  sh := { d.sh with chans := d.sh.chans.set 130 { direct 1 with chain := 0x3000, isChain := true } } })
theorem witness_ShunterResults_chain : ∀ b, b < 64 → Cert.Lands described.dev 1 .load (0x3000 + Cert.nat b) (0x3000 + b) := by
  have h : ∀ b, b < 64 → described.dev.dmaPlace 1 .load (0x3000 + Cert.nat b).toNat = .ok (0x3000 + b) (TlbE.phys (0x3000 + b)) ∧
      region (0x3000 + b) = .gddr ∧ channelOf (0x3000 + b) ∉ described.dev.mem.retired ∧ (0x3000 + b) / 128 ∉ described.dev.mem.poison := by decide +kernel
  intro b hb
  have hb := h b hb
  exact ⟨⟨_, hb.1⟩, .inl ⟨hb.2.1, by decide +kernel, hb.2.2.1, hb.2.2.2⟩, .inl (by decide)⟩
theorem witness_ShunterResults_fault : (chan { direct 1 with chain := 0x800000000000, ctx := 6 }).dev.dmaPlace 6 .load 0x800000000000 = .fault 8 := by decide +kernel
theorem witness_ShunterResults_bytes : let d := (chan (direct 2)).dev
    ∀ b, b < 2 → Cert.Lands d 1 .load (Cert.srcOf (direct 2).cur b) (0x1000 + b) ∧ Cert.Lands d 1 .store (Cert.dstOf (direct 2).cur b) (0x2000 + b) := by
  intro d b hb
  have h : ∀ b, b < 2 → d.dmaPlace 1 .load (Cert.srcOf (direct 2).cur b).toNat = .ok (0x1000 + b) (TlbE.phys (0x1000 + b)) ∧
      d.dmaPlace 1 .store (Cert.dstOf (direct 2).cur b).toNat = .ok (0x2000 + b) (TlbE.phys (0x2000 + b)) ∧ region (0x1000 + b) = .gddr ∧ region (0x2000 + b) = .gddr ∧
      channelOf (0x1000 + b) ∉ d.mem.retired ∧ channelOf (0x2000 + b) ∉ d.mem.retired := by decide +kernel
  have hb := h b hb
  exact ⟨⟨⟨_, hb.1⟩, .inl ⟨hb.2.2.1, by decide +kernel, hb.2.2.2.2.1, fun h => by cases h⟩, .inl (by decide)⟩,
    ⟨_, hb.2.1⟩, .inl ⟨hb.2.2.2.1, by decide +kernel, hb.2.2.2.2.2, fun h => by cases h⟩, .inl (by decide)⟩

/-- Stream 3 of station 0 as given. -/
def stream (g : GStream) : State := onS (fun s => { s with ge := s.ge.set 3 g })
/-- A stream of 2 elements of 8 bytes with 4-byte indices at 0x1000, into offset 0. -/
def gather (store : Bool) : GStream := { GStream.reset with idxaddr := 0x1000, dbase := 0x2000, count := 2, cfg := if store then 0x6E else 0x4E, state := 1 }
theorem witness_GatherResults : Cert.Reaches up.dev h0 (.stGe 0) 0 ∧ ¬ Cert.badEntry (gather false) ∧ Cert.badEntry { gather false with spoff := 4 } ∧ (gather false).count.toNat ≤ 2 := by
  refine ⟨⟨by decide +kernel, ⟨rfl, rfl⟩, by decide +kernel, by decide +kernel⟩, ?_, ?_, by decide⟩ <;> unfold Cert.badEntry <;> decide +kernel
theorem witness_GatherResults_turn : Cert.Live ((stream (gather false)).dev.stn 0) ∧ Cert.issues (((stream (gather false)).dev.stn 0).stream 3) ∧
    ∀ i, i < 64 → i ≠ 3 → (((stream (gather false)).dev.stn 0).stream i).state ≠ 1 := ⟨⟨rfl, rfl⟩, ⟨by decide +kernel, by decide +kernel, by decide +kernel⟩, by decide +kernel⟩
theorem witness_GatherResults_element : ∀ st ∈ [true, false], let d := (stream (gather st)).dev
    (∃ d1 e, d.geXlat 0 0 .load 0x1000 = (d1, .ok 0x1000 e) ∧ ∃ d2 f, d1.geXlat 0 0 (if (gather st).cfg.getLsbD 5 then .store else .load) 0x2000 = (d2, .ok 0x2000 f)) ∧
    region 0x1000 = .gddr ∧ region 0x2000 = .gddr ∧ (gather st).spoff.toNat + (0 + 1) * Cert.elBytes (gather st) ≤ 2 ^ 23 ∧ Cert.elBytes (gather st) ≤ 64 ∧ (gather st).cfg.getLsbD 5 = st := by
  intro st h
  cases st <;> exact ⟨⟨_, _, rfl, _, _, rfl⟩, by decide +kernel, by decide +kernel, by decide +kernel, by decide +kernel, by decide +kernel⟩
theorem witness_GatherResults_fault : (∃ d1 code, (stream (gather false)).dev.geXlat 0 0 .load 0x20000000000000 = (d1, .fault code)) ∧ (0x2004 : Word).toNat % 8 ≠ 0 := ⟨⟨_, _, rfl⟩, by decide⟩
theorem witness_GatherResults_end : ({ gather false with pos := 2 } : GStream).ends = none ∧ (gather false).count.toNat ≤ 2 ∧ ({ gather false with ends := some (4, 0, 0) } : GStream).ends = some (4, 0, 0) ∧
    ({ gather false with cfg := 0xCE } : GStream).cfg.getLsbD 7 = true := by decide

/-- Group 5 as given. -/
def grp (x : RedGrp) (g : Dev → Dev) : State := linked id (fun d => g { d with jn := { d.jn with groups := d.jn.groups.set 5 x } })
/-- A SUM of 56 elements of INT32 (8 of the group's one chunk), with the local operand; the root or a leaf under link 3. -/
def red (fmt op : Nat) : RedInst :=
  { addr := 0x3000, src := 0x1000, dst := 0x2000, count := 8, op := op, fmt := fmt, wire := 0, all := false, seq := 7, ops := [], nextLocal := 0, chunks := [], done := 0, flags := 0, fin := none }
def root (i : RedInst) : RedGrp := { RedGrp.reset with cfg := 0x21FFFFFFFFFFF, ctx := 1, addr := 0x3000, inst := some i }
theorem witness_ReductionResults : Cert.AllOn State.reset.dev ∧ Cert.Powered (grp RedGrp.reset id).dev ∧ Cert.Reaches up.dev h0 .jn (0x200 + 8 * 5) ∧
    ((grp RedGrp.reset id).dev.jn.grp 5).inst = none ∧ ((grp (root (red 2 0)) id).dev.jn.grp 5).inst = some (red 2 0) :=
  ⟨fun _ => rfl, ⟨.inr rfl, rfl⟩, ⟨by decide +kernel, ⟨rfl, rfl⟩, by decide +kernel, by decide +kernel⟩, by decide +kernel, by decide +kernel⟩
theorem witness_ReductionResults_local : let x := root (red 2 0)
    (red 2 0).nextLocal * Cert.perChunk (red 2 0) < (red 2 0).count ∧ x.cfg.getLsbD 49 = true ∧ Cert.inChunk (red 2 0) 0 = 8 ∧ x.parent = 0x1F ∧ x.nchild = 0 := by decide +kernel
theorem witness_ReductionResults_lands : let d := (grp (root (red 2 0)) id).dev
    ∀ b, b < 8 * 4 → Cert.Lands d 1 .load (Cert.chunkAt (red 2 0) (red 2 0).src 0 b) (0x1000 + b) ∧ Cert.Lands d 1 .store (Cert.chunkAt (red 2 0) (red 2 0).dst 0 b) (0x2000 + b) := by
  intro d b hb
  have h : ∀ b, b < 8 * 4 → d.dmaPlace 1 .load (Cert.chunkAt (red 2 0) (red 2 0).src 0 b).toNat = .ok (0x1000 + b) (TlbE.phys (0x1000 + b)) ∧
      d.dmaPlace 1 .store (Cert.chunkAt (red 2 0) (red 2 0).dst 0 b).toNat = .ok (0x2000 + b) (TlbE.phys (0x2000 + b)) ∧ region (0x1000 + b) = .gddr ∧ region (0x2000 + b) = .gddr ∧
      channelOf (0x1000 + b) ∉ d.mem.retired ∧ channelOf (0x2000 + b) ∉ d.mem.retired := by decide +kernel
  have hb := h b hb
  exact ⟨⟨⟨_, hb.1⟩, .inl ⟨hb.2.2.1, by decide +kernel, hb.2.2.2.2.1, fun h => by cases h⟩, .inl (by decide)⟩,
    ⟨_, hb.2.1⟩, .inl ⟨hb.2.2.2.1, by decide +kernel, hb.2.2.2.2.2, fun h => by cases h⟩, .inl (by decide)⟩
/-- The header of a RED flit of group 5. -/
def redHead (dir status : Nat) : List Byte := Cert.bytes 1 5 ++ Cert.bytes 1 dir ++ Cert.bytes 2 0 ++ Cert.bytes 4 7 ++ Cert.bytes 4 0 ++ Cert.bytes 1 0 ++ Cert.bytes 1 2 ++ Cert.bytes 1 0 ++ Cert.bytes 1 status
theorem witness_ReductionResults_flit : ∀ dir ∈ [0, 1, 2], let s := inbox 7 2 (redHead dir 0) id id
    ∃ f, Cert.Delivered s.dev 3 0 f [] ∧ f.kind = 7 ∧ flitU f 12 1 = 5 ∧ flitU f 13 1 = dir ∧ flitU f 16 4 = 7 ∧ flitU f 24 1 = 0 ∧ flitU f 25 1 = 2 ∧ flitU f 26 1 = 0 ∧ flitU f 20 4 = 0 := by
  intro dir h
  refine ⟨_, rfl, ?_⟩
  revert h; revert dir; decide +kernel
theorem witness_ReductionResults_end : let i := { red 2 0 with chunks := [0], done := 8 }
    i.fin = none ∧ i.op ≠ 3 ∧ i.chunks.length * Cert.perChunk i ≥ i.count ∧ i.addr = (root i).addr := by decide +kernel

/-! ### Memory units, the ledger, the host ports -/

theorem witness_MemoryUnitResults : Cert.Reaches up.dev h0 (.stSp 0) 0 ∧ Cert.Reaches up.dev h0 (.stMm 0) 0 ∧ Cert.Reaches up.dev h0 (.stMm 0) 8 ∧ Cert.Reaches up.dev h0 .ft 0 ∧ Cert.Reaches up.dev h0 .ft 8 ∧
    (up.dev.stn 0).engIdle = true ∧ (∀ k, k < 64 → ((up.dev.stn 0).stream k).state ≠ 1) ∧ Cert.fl 3 1 0 = 3 := by
  refine ⟨⟨by decide +kernel, ⟨rfl, rfl⟩, by decide +kernel, by decide +kernel⟩, ⟨by decide +kernel, ⟨rfl, rfl⟩, by decide +kernel, by decide +kernel⟩,
    ⟨by decide +kernel, ⟨rfl, rfl⟩, by decide +kernel, by decide +kernel⟩, ⟨by decide +kernel, ⟨rfl, rfl⟩, by decide +kernel, by decide +kernel⟩,
    ⟨by decide +kernel, ⟨rfl, rfl⟩, by decide +kernel, by decide +kernel⟩, ?_⟩
  decide +kernel
theorem witness_MemoryUnitResults_ready : ∀ k : Fin 4, ((up.dev.stn 0).thr k).wait = .ready := by decide +kernel
theorem witness_MemoryUnitResults_wake : ∃ op, Cert.ldRule (.lw h0 3 1 0 true) = some (h0, 3, 1, 0, 4, true, true, op) ∧
    (let s := onS (fun s => { s.updThr 0 (fun t => { t with wait := .wake op [(0x10000000008, TlbE.phys 0x10000000008)] }) with spState := 3, running := none })
     (s.dev.stn 0).spState = 3 ∧ (s.dev.thr h0).wait = .wake op [(0x10000000008, TlbE.phys 0x10000000008)] ∧ Cert.Live (s.dev.stn 0) ∧ region 0x10000000008 = .scratch 0 8) :=
  ⟨_, rfl, by decide +kernel, by decide +kernel, ⟨rfl, rfl⟩, by decide +kernel⟩
theorem witness_MemoryUnitResults_order : up.dev.stns.entries.Pairwise (fun p q => p.1 < q.1) ∧ ∀ p ∈ up.dev.stns.entries, p.1 < 128 := by decide +kernel
theorem witness_MemoryUnitResults_ports : (up.dev.mem.ports.getD 0 0).getLsbD 0 = false ∧ ((onD (fun d => { d with mem := { d.mem with ports := d.mem.ports.set 0 1 } })).dev.mem.ports.getD 0 0).getLsbD 0 = true ∧
    Cert.fl 0x2FF8000000 47 27 * 0x8000000 ≤ 0x2FF8000000 ∧ ¬ Cert.fl 0x3000000000 47 27 * 0x8000000 ≤ 0x2FF8000000 := by decide +kernel

/-- Queue 3's window in the far tier, with the ledger key; its ring in GDDR7, its replies in a host window; bytes in its window. -/
def ledger (l : List (Nat × List Byte)) (f : Sq → Sq) (g : Ledger → Ledger) : State := on (fun d => { d with
  mem := { d.mem with
    smEn := true, key1 := some 3, ports := d.mem.ports.set 0 1, gddr := d.mem.gddr.set 0 0x4D,
    far := l.foldl (fun m p => m.writeBytes (farCell 3 0 p.1) p.2) d.mem.far },
  host := { d.host with
    ports := d.host.ports.set 0 { HiPort.reset with winb := HiPort.reset.winb.set 0 0x8000040000000000 },
    ld := g { d.host.ld with sqs := d.host.ld.sqs.set 3 (f { Sq.reset with base := 0x10000, winBase := 0x100000000000, rplBase := 0x40000000000, en := true, winEn := true }) } } })
/-- The entry of sequence number 1 in a state. -/
def entry (state : Nat) : List Byte := Cert.entryBytes 1 state 0 0 3 0 9 0 0 0 0 0
theorem witness_LedgerResults : let d := (ledger [] id id).dev
    Cert.Powered d ∧ Cert.RingOn d 3 ∧ d.ldRead 0x100000000000 64 = some 0 ∧ (d.ldWrite 0x100000000000 [1]).isSome = true ∧
    2 ^ 31 ≤ ((0x80000000 : BitVec 32).toNat + 2 ^ 32 - 0) % 2 ^ 32 ∧ 2 ^ 4 < ((17 : BitVec 32).toNat + 2 ^ 32 - 0) % 2 ^ 32 ∧ ¬ 2 ^ 4 < ((16 : BitVec 32).toNat + 2 ^ 32 - 0) % 2 ^ 32 :=
  ⟨⟨.inr rfl, rfl⟩, ⟨0, by decide +kernel, by decide +kernel⟩, by decide +kernel, by decide +kernel, by decide, by decide, by decide⟩
theorem witness_LedgerResults_waybill : (let z := (ledger [] (fun z => { z with prod := 1 }) id).dev.host.ld.sqs.getD 3 Sq.reset
     z.taken ≠ z.prod ∧ z.recovering = false) ∧ Cert.outcome (ledger [] id id).dev 3 0 (.reject 1) ∧ Cert.outcome (ledger [] id id).dev 3 (1 + 3 * 2 ^ 8 + 2 ^ 64) .accept := by
  have hr : (ledger [] id id).dev.ldRead 0x100000000040 64 = some 0 := by decide +kernel
  refine ⟨by decide +kernel, ?_, ?_⟩
  · unfold Cert.outcome
    rw [if_pos (by decide +kernel)]
  · unfold Cert.outcome
    rw [if_neg (by decide +kernel), if_neg (by decide +kernel), if_neg (by decide +kernel)]
    refine ⟨fun h => ?_, fun e h => ?_⟩
    · exact absurd (hr.symm.trans h) (by decide)
    · cases Option.some.inj (hr.symm.trans h)
      rw [if_neg (by decide +kernel), if_neg (by decide +kernel), if_neg (by decide +kernel), if_pos (by decide +kernel)]
theorem witness_LedgerResults_duplicate : Cert.outcome (ledger [(0x40, entry 1)] (fun z => { z with next := 2 }) id).dev 3 (1 + 3 * 2 ^ 8 + 2 ^ 64) (.dup (.ofNat (natLE (entry 1)))) := by
  have hr : (ledger [(0x40, entry 1)] (fun z => { z with next := 2 }) id).dev.ldRead 0x100000000040 64 = some (natLE (entry 1)) := by decide +kernel
  unfold Cert.outcome
  rw [if_neg (by decide +kernel), if_neg (by decide +kernel), if_neg (by decide +kernel)]
  refine ⟨fun h => ?_, fun e h => ?_⟩
  · exact absurd (hr.symm.trans h) (by simp)
  · cases Option.some.inj (hr.symm.trans h)
    rw [if_pos (by decide +kernel), if_pos (by decide +kernel)]
theorem witness_LedgerResults_flush : ∀ w ∈ [FlushFor.accepted, .committed, .completed, .failed, .returned],
    let d := (ledger [(0x40, entry 3)] id (fun l => { l with flushes := [⟨3, 1, w, 0, 0⟩] })).dev
    d.host.ld.flushes = [] ++ ⟨3, 1, w, 0, 0⟩ :: [] ∧ d.ldRead 0x100000000040 64 = some (natLE (entry 3)) ∧ d.ldRead (0x100000000000 + 64 * 16 + 256) 8 = some 0 := by decide +kernel
theorem witness_LedgerResults_commands : ∀ st ∈ [1, 2], let d := (ledger [(0x40, entry st)] id (fun l => { l with dl := [⟨3, 1, 0⟩] })).dev
    d.host.ld.halted = false ∧ d.host.ld.dl[Cert.fl 0 19 8]? = some ⟨3, 1, 0⟩ ∧ d.ldRead 0x100000000040 64 = some (natLE (entry st)) ∧
    Cert.part (natLE (entry st)) 63 0 = 1 ∧ Cert.part (natLE (entry st)) 71 64 = st ∧ d.host.ld.commits = [] := by decide +kernel
theorem witness_LedgerResults_reaches : Cert.Reaches up.dev h0 .ld 8 ∧ Cert.Reaches up.dev h0 .ld 0 ∧ ∀ st ∈ [1, 2], (ledger [(0x40, entry st)] id (fun l => { l with dl := [⟨3, 1, 0⟩] })).dev.ldWrite 0x100000000040 (entry 2) ≠ none :=
  ⟨⟨by decide +kernel, ⟨rfl, rfl⟩, by decide +kernel, by decide +kernel⟩, ⟨by decide +kernel, ⟨rfl, rfl⟩, by decide +kernel, by decide +kernel⟩, by decide +kernel⟩
theorem witness_LedgerResults_switch : let d := (ledger [(0x40, entry 2)] id (fun l => { l with commits := [⟨3, 1, false, 0⟩] })).dev
    d.host.ld.halted = false ∧ d.host.ld.commits = [⟨3, 1, false, 0⟩] ∧ d.ldRead 0x100000000040 64 = some (natLE (entry 2)) ∧ Cert.part (natLE (entry 2)) 63 0 = 1 ∧
    d.ldRead (0x100000000000 + 64 * 16 + 256) 64 = some 0 ∧ (1 : Word).toNat ≤ 1 := by decide +kernel
theorem witness_LedgerResults_recovery : let d := (ledger [(0x40, entry 2)] (fun z => { z with recovering := true }) id).dev
    (d.host.ld.sqs.getD 3 Sq.reset).recovering = true ∧
    (∀ i, i < 2 ^ 4 → d.ldRead (0x100000000000 + 64 * i) 64 = some (if i = 1 then natLE (entry 2) else 0)) ∧ crc32c (Cert.bytes 60 (natLE (entry 2))) = Cert.part (natLE (entry 2)) 511 480 ∧
    Cert.part (natLE (entry 2)) 123 112 = d.consist := by decide +kernel

/-- Port 1 is UP with one queue pair that may write queue 3, and a range of 4 KiB at 0x1000 that may be read and written. -/
def hosted : State := on (fun d => { d with host := { d.host with
  ports := d.host.ports.set 1 { HiPort.reset with en := true, up := true }, qps := [⟨1, 5, 8, 9, 0, 2, 0⟩], regions := [⟨1, 5, 0x1000, 1, 77, 3⟩] } })
theorem witness_HostPortResults : Cert.Powered hosted.dev ∧ (hosted.dev.host.port 1).up = true ∧ (hosted.dev.host.port 0).up = false ∧ hosted.dev.host.qps = [] ++ ⟨1, 5, 8, 9, 0, 2, 0⟩ :: [] ∧
    (⟨1, 5, 0x1000, 1, 77, 3⟩ : Region_) ∈ hosted.dev.host.regions ∧ (3 : Nat).testBit 1 = true ∧ 0x1000 ≤ 0x1FFF ∧ 0x1FFF + 1 ≤ 0x1000 + 1 * 4096 ∧ (8 : Nat).testBit 3 = true := by
  refine ⟨⟨.inr rfl, rfl⟩, ?_⟩
  decide +kernel
theorem witness_HostPortResults_plain : Cert.Plain hosted.dev 0x1FFF := .inl ⟨by decide +kernel, by decide +kernel, by decide +kernel, by decide +kernel⟩
theorem witness_HostPortResults_exhausted : (∃ op, Cert.ldRule (.ld h0 3 1 0 false) = some (h0, 3, 1, 0, 8, false, false, op) ∧
      ((waiting (.reply op [(0x40000000008, TlbE.phys 0x40000000008)]) 0).dev.thr h0).wait = .reply op [(0x40000000008, TlbE.phys 0x40000000008)]) ∧
    region 0x40000000008 = .host 8 ∧ (up.dev.thr h0).mchk = none ∧ ((onT (fun t => { t with acks := 1 })).dev.thr h0).acks ≠ 0 := ⟨⟨_, rfl, by decide +kernel⟩, by decide +kernel, by decide +kernel, by decide +kernel⟩
theorem witness_HostPortResults_channel : let y : Chan := { Chan.reset with ctx := 1, mode := 2, cur := { Desc.zero with src := 0x40000000000, dst := 0x2000, count := 2, ctl := 0x4000 } }
    let d := (ledger [] id id).dev
    y.mode = 2 ∧ y.fin = none ∧ 1 < y.cur.count ∧ (∀ b, b < 2 → ∃ pa t off, d.dmaPlace 1 .load (Cert.srcOf y.cur b).toNat = .ok pa t ∧ region pa = .host off) := by
  refine ⟨rfl, rfl, by decide, fun b hb => ?_⟩
  match b, hb with
  | 0, _ => exact ⟨_, _, 0, rfl, by decide +kernel⟩
  | 1, _ => exact ⟨_, _, 1, rfl, by decide +kernel⟩

/-! ### Boot, dictionary, recorder, power, ports -/

theorem witness_BootResults : let d := (onD (fun d => { d with sec := { d.sec with verifying := some 8192 } })).dev
    d.pw.state = .boot ∧ d.dfatal = false ∧ d.sec.verifying ≠ none ∧ Cert.imageCode d.sec (d.mem.bootWin.readBytes 0 8192) [] = 2 := by
  refine ⟨rfl, rfl, by decide, ?_⟩
  unfold Cert.imageCode
  rw [if_neg]
  intro h
  exact absurd h.1 (by decide +kernel)
/-- A device that boots over host port 1. -/
def booting : State := onD (fun d => { d with sec := { d.sec with strap := 5 }, host := { d.host with ports := d.host.ports.set 1 { HiPort.reset with en := true, up := true } } })
theorem witness_BootResults_connect : booting.dev.pw.state = .boot ∧ booting.dev.sec.strap.toNat % 4 = 1 ∧ booting.dev.sec.strap.toNat / 4 = (1 : Fin 4).val ∧ (booting.dev.host.port 1).up = true ∧
    booting.dev.sec.cm = none ∧ Cert.Powered booting.dev := ⟨rfl, by decide, by decide, by decide +kernel, rfl, .inl rfl, rfl⟩

/-- A message to this device. -/
def msg (typ idx sub : Nat) (data : List Byte) : DMsg := ⟨1, BitVec.ofNat 8 typ, 9, BitVec.ofNat 16 idx, BitVec.ofNat 8 sub, 0, 0xFFFF, BitVec.ofNat 16 data.length, 0, data⟩
theorem asked (s : State) (h1 : s.dev.dict.restarting = false) (h2 : s.dev.pw.state = .running) (h3 : s.dev.dict.queue = []) (m : DMsg) (typ : Nat) (h4 : Cert.good m) (h5 : m.typ.toNat = typ) (h6 : m.devid = 0xFFFF) :
    Cert.Asked s.dev (.t1s 0 0) .bc m typ := ⟨⟨h1, .inl ⟨h2, rfl⟩⟩, h3, h4, h5, .inl h6⟩
theorem witness_DictionaryMessageResults : Cert.Asked (on id).dev (.t1s 0 0) .bc (msg 1 0x1000 0 []) 1 ∧ Cert.Asked (on id).dev (.t1s 0 0) .bc (msg 2 0x5010 0 [0, 4, 0, 0]) 2 ∧
    Cert.Open (on id).dev .bc 0x1000 ∧ Cert.Mirrors 0x2000 0 .tt 0 ∧ Cert.valueOf (on id).dev 0x1000 0 true (Cert.bytes 4 1) ∧ Cert.IsRow 1 (.t1s 0 0) (msg 1 0x1000 0 []) true (.dictRead (.t1s 0 0) (msg 1 0x1000 0 []) true) := by
  refine ⟨asked _ rfl rfl rfl _ _ ?_ rfl rfl, asked _ rfl rfl rfl _ _ ?_ rfl rfl, ⟨fun h => (by cases h), fun h => (by cases h)⟩, .inl ⟨0, .inl (by decide), rfl, rfl, rfl, rfl⟩, .inl ⟨rfl, rfl, rfl, rfl⟩, .inl ⟨rfl, rfl⟩⟩ <;>
    exact ⟨by decide, by decide, by decide, by decide, by decide, by decide, by decide⟩
theorem witness_DictionaryMessageResults_bad : ¬ Cert.good (msg 0 0x1000 0 []) ∧ Cert.From (on id).dev .box .sb ∧ ¬ Cert.Open (booting).dev .ha 0x2000 := by
  refine ⟨fun h => absurd h.2.2.1 (by decide), ⟨rfl, .inl ⟨rfl, rfl⟩⟩, fun h => ?_⟩
  have := h.2 rfl
  omega
/-- An open transfer of 2,048 bytes. -/
def xfer (write : Bool) (idx : Nat) (next : Nat) (data : List Byte) : State :=
  on (fun d => { d with dict := { d.dict with xfers := [⟨.t1s 0 0, 9, idx, 0, write, 2048, next, data, 0⟩] } })
theorem witness_DictionaryTransferResults : Cert.Asked (on id).dev (.t1s 0 0) .bc (msg 3 0x3001 0 []) 3 ∧ Cert.domainOf (on id).dev 0x3001 0 [] ∧
    Cert.Asked (on id).dev (.t1s 0 0) .bc { msg 4 0x3001 0 [] with arg := 40960 } 4 ∧ (on id).dev.bd.state ≠ 1 := by
  refine ⟨asked _ rfl rfl rfl _ _ ?_ rfl rfl, ⟨rfl, .inl ⟨rfl, rfl⟩⟩, asked _ rfl rfl rfl _ _ ?_ rfl rfl, by decide⟩ <;> exact ⟨by decide, by decide, by decide, by decide, by decide, by decide, by decide⟩
theorem witness_DictionaryTransferResults_segments : ∀ w ∈ [true, false], Cert.Asked (xfer w 0x3001 0 []).dev (.t1s 0 0) .bc (msg 5 0 0 []) 5 ∧
    (xfer w 0x3001 0 []).dev.dict.xfers = [] ++ ⟨.t1s 0 0, 9, 0x3001, 0, w, 2048, 0, [], 0⟩ :: [] := by
  intro w _
  exact ⟨asked _ rfl rfl rfl _ _ ⟨by decide, by decide, by decide, by decide, by decide, by decide, by decide⟩ rfl rfl, rfl⟩
theorem witness_DictionaryTransferResults_last : let bs : List Byte := List.replicate 2047 7 ++ [8]
    bs.length = 2048 ∧ bs ≠ [] ∧ Cert.Open (on id).dev .bc 0x3001 := ⟨by decide +kernel, by decide +kernel, fun h => (by cases h), fun h => (by cases h)⟩
theorem witness_DictionaryTransferResults_queue : (on (fun d => { d with dict := { d.dict with queue := [⟨.box, msg 1 0x1000 0 [], 0⟩] } })).dev.dict.queue = ⟨.box, msg 1 0x1000 0 [], 0⟩ :: [] := rfl
theorem witness_SignalBoxResults : (on id).dev.pw.state = .running ∧ (on id).dev.dict.restarting = false ∧ up.dev.pw.state ≠ .running ∧ (on (fun d => { d with dict := { d.dict with restarting := true } })).dev.dict.restarting = true := by decide +kernel

/-- An event of a source and instance. -/
def event (src inst : Nat) : RecEv := ⟨0, 0, src, 1, 3, 1, 0, inst, 0, false⟩
theorem witness_RecorderResults : Cert.Reaches up.dev h0 .rc 0 ∧ Cert.Reaches up.dev h0 .rc 24 ∧
    (let r := { Rec.reset with queue := [event 2 0, event 1 1, event 1 2], hold := [event 3 0] }
     r.queue = [event 2 0] ++ event 1 1 :: [event 1 2] ∧ (∀ y ∈ [event 2 0], y.tick = 0 ∧ y.ns = 0 ∧ (1 < y.src ∨ (1 = y.src ∧ 1 < y.inst))) ∧ r.hold = event 3 0 :: []) ∧
    up.dev.present 0 = true ∧ Cert.Powered up.dev ∧ up.dev.tt.role ≠ 2 ∧ up.dev.tt.ann = [] :=
  ⟨⟨by decide +kernel, ⟨rfl, rfl⟩, by decide +kernel, by decide +kernel⟩, ⟨by decide +kernel, ⟨rfl, rfl⟩, by decide +kernel, by decide +kernel⟩, by decide +kernel, by decide +kernel, ⟨.inl rfl, rfl⟩, by decide, rfl⟩
theorem witness_PowerAndResetResults : Cert.Lit up.dev ∧ up.dev.pw.lock &&& 0x8F#8 = 0x8F#8 ∧ up.dev.pw.lock &&& (0x80 : BitVec 8) &&& 0x8F#8 ≠ 0 ∧ up.dev.pw.lock &&& (0x70 : BitVec 8) &&& 0x8F#8 = 0 :=
  ⟨.inl rfl, by decide +kernel, by decide +kernel, by decide +kernel⟩
theorem witness_PowerAndResetResults_states : ∀ x ∈ [Power.off, .standby, .tripped], let d := (onD (fun d => { d with pw := { d.pw with state := x } })).dev
    ¬ Cert.Lit d ∧ d.pw.state = x := by
  intro x h
  refine ⟨?_, rfl⟩
  show ¬ (x = .boot ∨ x = .running)
  revert h; revert x
  decide
theorem witness_PowerAndResetResults_resets : Cert.Reaches up.dev h0 .ck 0 ∧ (up.dev.thr h0).ring = 0 ∧ Cert.Reaches up.dev h0 .ck (8 + 8 * (1 : Fin 2).val) ∧ up.dev.sh.chans.entries = [] ∧ up.dev.present 127 = true :=
  ⟨⟨by decide +kernel, ⟨rfl, rfl⟩, by decide +kernel, by decide +kernel⟩, by decide +kernel, ⟨by decide +kernel, ⟨rfl, rfl⟩, by decide +kernel, by decide +kernel⟩, rfl, by decide +kernel⟩
theorem witness_RegisterAndPortResults : region (0x20100000020 : BitVec 48).toNat = .reg .tt 0x20 ∧ Cert.Reaches up.dev h0 .tt 0x20 ∧ up.dev.tt.state = 0 ∧ (∀ u off, region (0x1000 : BitVec 48).toNat ≠ .reg u off) ∧ Cert.Lit up.dev := by
  refine ⟨by decide +kernel, ⟨by decide +kernel, ⟨rfl, rfl⟩, rfl, rfl⟩, rfl, fun u off h => ?_, .inl rfl⟩
  have h2 : region (0x1000 : BitVec 48).toNat = .gddr := by decide +kernel
  exact absurd (h2.symm.trans h) (by simp)
theorem witness_RegisterAndPortResults_port : let d := (onD (fun d => { d.updStn 5 (fun s => { s with held := true }) with sec := { d.sec with dbg := true }, tap := { d.tap with ir := 0x22, stnsel := 5, stnaddr := 0x40000003 } })).dev
    d.sec.dbg = true ∧ d.tap.ir = 0x22 ∧ d.tap.stnsel.toNat % 512 = 5 ∧ d.present 5 = true ∧ (d.stn 5).held = true ∧ d.tap.stnaddr.toNat / 2 ^ 30 = 1 ∧ d.tap.stnaddr.toNat % 2 ^ 28 = 3 := by decide +kernel

end Sys2Proof.Tests
end

section
/-! PROOFS. How an instruction that issues answers where it completes or transfers control, and the words of the rules'
integers. -/

namespace Sys2Proof.Cert

open Sys2Proof.Machine

/-! ### An instruction that issues -/

/-- An instruction that issues runs its body on the device its fetch leaves. -/
theorem exec_of_issues {i : Instr} {s : State} {d1 : Dev} {h : Hart} {len : Nat} {body : Dev → Dev}
    (hx : exec i s = onDev s (fun d => d.issue h len body)) (hi : Issues s.dev h len d1) :
    exec i s = .next { s with dev := body d1 } := by
  obtain ⟨hcan, hnone, hfetch⟩ := hi
  rw [hx, onDev_eq, Dev.issue_ready body hcan hnone hfetch]

theorem onlyThread_finish (d : Dev) (h : Hart) (len c : Nat) (f : Thread → Thread) :
    OnlyThread d (d.finish h len c f) h c :=
  ⟨rfl, fun _ hn => Dev.finish_stn_ne _ _ _ _ _ hn, Dev.finish_stn _ _ _ _ _, fun _ hk => Dev.finish_thr_ne _ _ _ _ _ hk⟩

theorem onlyThread_transfer (d : Dev) (h : Hart) (p : Word) (b : Bool) (f : Thread → Thread) :
    OnlyThread d (d.transfer h p b f) h 2 :=
  ⟨rfl, fun _ hn => Dev.transfer_stn_ne _ _ _ _ _ hn, Dev.transfer_stn _ _ _ _ _,
    fun _ hk => Dev.transfer_thr_ne _ _ _ _ _ hk⟩

/-- An instruction whose body completes in c cycles changes its own thread, to what the change leaves once it is done. -/
theorem runs_of_finish {i : Instr} {s : State} {d1 : Dev} {h : Hart} {len c : Nat} {f : Thread → Thread} {body : Dev → Dev}
    (hx : exec i s = onDev s (fun d => d.issue h len body)) (hi : Issues s.dev h len d1) (hb : body d1 = d1.finish h len c f) :
    Runs i s d1 h c ((f (d1.thr h)).done len) :=
  ⟨_, exec_of_issues hx hi, rfl, hb ▸ onlyThread_finish d1 h len c f, hb ▸ Dev.finish_thr d1 h len c f⟩

/-- An instruction whose body transfers control changes its own thread, to what the jump leaves, in two cycles. -/
theorem goes_of_transfer {i : Instr} {s : State} {d1 : Dev} {h : Hart} {len : Nat} {p : Word} {b : Bool} {f : Thread → Thread}
    {body : Dev → Dev} {P : Thread → Prop}
    (hx : exec i s = onDev s (fun d => d.issue h len body)) (hi : Issues s.dev h len d1) (hb : body d1 = d1.transfer h p b f)
    (hP : P ((f (d1.thr h)).jump p b)) : Goes i s d1 h P :=
  ⟨_, hP, _, exec_of_issues hx hi, rfl, hb ▸ onlyThread_transfer d1 h p b f, hb ▸ Dev.transfer_thr d1 h p b f⟩

/-! ### Integers as words -/

theorem w_toInt (x : Word) : w x.toInt = x := BitVec.ofInt_toInt

theorem w_natCast (n : Nat) : w n = word n := BitVec.ofInt_natCast 64 n

theorem w_toNat (x : Word) : w x.toNat = x := by simp [w_natCast, word]

theorem w_mul (x y : Int) : w (x * y) = w x * w y := BitVec.ofInt_mul x y

/-- Integers that agree modulo 2^64 are one word. -/
theorem w_bmod (x : Int) : w (x.bmod (2 ^ 64)) = w x :=
  BitVec.eq_of_toInt_eq (by simp [w, BitVec.toInt_ofInt])

end Sys2Proof.Cert
end

section
/-! PROOFS. The precise exceptions (R93 to R100): an entry to the handler's ring, or the lock-up of the station, is what the statements'
terms say of it. -/

namespace Sys2Proof.Machine

/-! ### Bits of a number with a bit or a field replaced -/

/-- A number less a bit that it has. -/
theorem sub_two_pow_of_testBit {x i : Nat} (hx : x.testBit i = true) :
    x - 2 ^ i = 2 ^ (i + 1) * (x / 2 ^ (i + 1)) + x % 2 ^ i := by
  have hbit : x / 2 ^ i % 2 = 1 := by simpa [Nat.testBit_eq_decide_div_mod_eq] using hx
  have hmod : x % 2 ^ (i + 1) = x % 2 ^ i + 2 ^ i := by rw [Nat.mod_pow_succ, hbit, Nat.mul_one]
  have hdiv := Nat.div_add_mod x (2 ^ (i + 1))
  omega

theorem testBit_setBit (x i : Nat) (b : Bool) (j : Nat) :
    (setBit x i b).testBit j = if j = i then b else x.testBit j := by
  unfold setBit
  cases b with
  | true =>
    by_cases hj : j = i
    · simp [hj]
    · simp [hj, Nat.testBit_two_pow_of_ne (Ne.symm hj)]
  | false =>
    by_cases hx : x.testBit i = true
    · have hlow : x % 2 ^ i < 2 ^ (i + 1) := Nat.lt_trans (Nat.mod_lt x (Nat.two_pow_pos i)) (Nat.pow_lt_pow_succ (by decide))
      rw [if_neg Bool.false_ne_true, if_pos hx, sub_two_pow_of_testBit hx, Nat.testBit_two_pow_mul_add _ hlow,
        Nat.testBit_mod_two_pow, Nat.testBit_div_two_pow]
      rcases Nat.lt_trichotomy j i with hj | hj | hj
      · simp [hj, Nat.lt_succ_of_lt hj, Nat.ne_of_lt hj]
      · simp [hj]
      · simp [Nat.ne_of_gt hj, Nat.not_lt.mpr hj, Nat.sub_add_cancel hj]
    · by_cases hj : j = i
      · simp [hj, hx]
      · simp [hj, hx]

/-- A number with its two lowest bits replaced. -/
theorem testBit_setFld_one_zero (x v j : Nat) :
    (setFld x 1 0 v).testBit j = if j < 2 then v.testBit j else x.testBit j := by
  have hform : setFld x 1 0 v = 2 ^ 2 * (x >>> 2) + v % 2 ^ 2 := by
    simp [setFld, Nat.shiftLeft_eq, Nat.mul_comm, Nat.mod_one]
  rw [hform, Nat.testBit_two_pow_mul_add _ (Nat.mod_lt v (by decide)), Nat.testBit_mod_two_pow, Nat.testBit_shiftRight]
  by_cases hj : j < 2
  · simp [hj]
  · simp [hj, Nat.add_sub_cancel' (Nat.not_lt.mp hj)]

/-! ### Multiplier writes that land -/

theorem Thread.le_lastLanding {t : Thread} {p : Nat × Nat × Word} (hp : p ∈ t.mqPend) : p.1 ≤ t.lastLanding := by
  have hfold : ∀ (l : List (Nat × Nat × Word)) (m : Nat), m ≤ l.foldl (fun m p => max m p.1) m ∧
      (p ∈ l → p.1 ≤ l.foldl (fun m p => max m p.1) m) := by
    intro l
    induction l with
    | nil => simp
    | cons q l ih =>
      intro m
      obtain ⟨hle, hmem⟩ := ih (max m q.1)
      refine ⟨Nat.le_trans (Nat.le_max_left _ _) hle, fun h => ?_⟩
      rcases List.mem_cons.mp h with rfl | h
      · exact Nat.le_trans (Nat.le_max_right _ _) hle
      · exact hmem h
  exact (hfold t.mqPend 0).2 hp

/-- Once its last multiplier write is due, none is on its way. -/
theorem Thread.land_mqPend_of_le {t : Thread} {c : Nat} (hc : t.lastLanding ≤ c) : (t.land c).mqPend = [] := by
  refine List.filter_eq_nil_iff.mpr fun p hp => ?_
  simp [Nat.le_trans (Thread.le_lastLanding hp) hc]

theorem Thread.land_of_mqPend_nil {t : Thread} (c : Nat) (ht : t.mqPend = []) : t.land c = t := by
  obtain ⟨⟩ := t
  subst ht
  rfl

/-! ### The device a lock-up leaves -/

/-- A link that sends changes the links and the messages out, and nothing else. -/
theorem Dev.pump_frame (l n : Nat) (d : Dev) : ∃ ls o, Dev.pump l n d = { d with links := ls, out := o } := by
  induction n generalizing d with
  | zero => exact ⟨_, _, rfl⟩
  | succ n ih =>
    unfold Dev.pump
    split
    · exact ⟨_, _, rfl⟩
    · obtain ⟨ls, o, h⟩ := ih _
      exact ⟨ls, o, h⟩

theorem Dev.sendReport_frame (d : Dev) (why : Option Nat) : ∃ ls o, d.sendReport why = { d with links := ls, out := o } := by
  unfold Dev.sendReport Dev.toTree
  split
  · exact ⟨_, _, rfl⟩
  · split
    · obtain ⟨ls, o, h⟩ := Dev.pump_frame d.tt.cplParent _ _
      exact ⟨ls, o, h⟩
    · exact ⟨_, _, rfl⟩

/-- A halt request changes the timetable, the links and the messages out. -/
theorem Dev.haltRequest_frame (d : Dev) (reason : Nat) :
    ∃ tt ls o, d.haltRequest reason = { d with tt := tt, links := ls, out := o } := by
  unfold Dev.haltRequest
  split
  · obtain ⟨ls, o, h⟩ := Dev.sendReport_frame d (some reason)
    exact ⟨_, ls, o, h⟩
  · unfold Dev.placeHalt
    split <;> exact ⟨_, _, _, rfl⟩

@[simp] theorem Dev.haltRequest_stns (d : Dev) (reason : Nat) : (d.haltRequest reason).stns = d.stns := by
  obtain ⟨tt, ls, o, h⟩ := Dev.haltRequest_frame d reason
  rw [h]

@[simp] theorem Dev.haltRequest_rc (d : Dev) (reason : Nat) : (d.haltRequest reason).rc = d.rc := by
  obtain ⟨tt, ls, o, h⟩ := Dev.haltRequest_frame d reason
  rw [h]

@[simp] theorem Dev.haltRequest_cfatal (d : Dev) (reason : Nat) : (d.haltRequest reason).cfatal = d.cfatal := by
  obtain ⟨tt, ls, o, h⟩ := Dev.haltRequest_frame d reason
  rw [h]

@[simp] theorem Rec.offer_cnt (r : Rec) (e : RecEv) : (r.offer e).cnt = r.cnt := by
  unfold Rec.offer
  extract_lets room
  split
  · rfl
  · split <;> rfl

/-- An event of class 4 is counted once. -/
theorem Rec.event_cnt_of_cls (r : Rec) {e : RecEv} (he : e.cls = 4) :
    (r.event e).cnt = r.cnt.set 4 ((r.cnt.getD 4 0 + 1) % 2 ^ 64) := by
  unfold Rec.event
  simp [he]

/-- A contained error of the halting kind is one event of class 4 (R489). -/
theorem Dev.containedHalt_cnt (d : Dev) (src code inst data : Nat) :
    (d.containedHalt src code inst data).rc.cnt.getD 4 0 = (d.rc.cnt.getD 4 0 + 1) % 2 ^ 64 := by
  unfold Dev.containedHalt
  rw [Dev.haltRequest_rc]
  simp [Dev.event, Rec.event_cnt_of_cls]

@[simp] theorem Dev.containedHalt_cfatal (d : Dev) (src code inst data : Nat) :
    (d.containedHalt src code inst data).cfatal = true := by
  simp [Dev.containedHalt]

@[simp] theorem Dev.containedHalt_stns (d : Dev) (src code inst data : Nat) :
    (d.containedHalt src code inst data).stns = d.stns := by
  simp [Dev.containedHalt]

/-- The stations after a lock-up: its own stops. -/
theorem Dev.lockup_stn_self (d : Dev) (h : Hart) (ring occupied new : Nat) :
    (d.lockup h ring occupied new).stn h.stn =
      { d.stn h.stn with locked := true, running := none, eng := { (d.stn h.stn).eng with falling := true } } := by
  unfold Dev.lockup Dev.stn
  rw [Dev.containedHalt_stns]
  exact Dev.stn_updStn_self _ _ _

end Sys2Proof.Machine

namespace Sys2Proof.Cert

open Sys2Proof.Machine

/-- An instruction's cycle passes and its station locks up. -/
theorem lockedUp_lockup (d : Dev) (h : Hart) (c ring occupied new : Nat) :
    LockedUp d ((d.pass h.stn c).lockup h ring occupied new) h := by
  have hstn := Dev.lockup_stn_self (d.pass h.stn c) h ring occupied new
  have hpass : (d.pass h.stn c).stn h.stn = (d.stn h.stn).pass c := Dev.stn_updStn_self _ _ _
  refine ⟨by rw [hstn], by rw [hstn], fun k => ?_, Dev.containedHalt_cfatal _ _ _ _ _, by simp, by rw [hstn, hpass]; rfl,
    Dev.containedHalt_cnt _ _ _ _ _⟩
  unfold Dev.thr
  rw [hstn]
  change (((d.pass h.stn c).stn h.stn).thr k).g = _
  rw [hpass, Station.thr_pass]
  rfl

/-! ### Entry to a ring -/

/-- From one station to the other nothing changes but thread t, the cycle count, and the multiplier registers of the other threads. -/
def StnFrame (t : Fin 4) (s u : Station) : Prop :=
  (∃ th c, u = { s with th := th, cycle := c }) ∧ ∀ k : Fin 4, k ≠ t → ∃ m q, u.thr k = { s.thr k with mq := m, mqPend := q }

theorem StnFrame.trans {t : Fin 4} {s u v : Station} (hsu : StnFrame t s u) (huv : StnFrame t u v) : StnFrame t s v := by
  obtain ⟨⟨_, _, rfl⟩, hthr⟩ := hsu
  obtain ⟨⟨th, c, rfl⟩, hthr'⟩ := huv
  refine ⟨⟨th, c, rfl⟩, fun k hk => ?_⟩
  obtain ⟨m, q, hm⟩ := hthr k hk
  obtain ⟨m', q', hm'⟩ := hthr' k hk
  exact ⟨m', q', by rw [hm', hm]⟩

theorem stnFrame_pass (t : Fin 4) (s : Station) (n : Nat) : StnFrame t s (s.pass n) :=
  ⟨⟨_, _, rfl⟩, fun k _ => ⟨_, _, Station.thr_pass n s k⟩⟩

theorem stnFrame_updThr (t : Fin 4) (s : Station) (f : Thread → Thread) : StnFrame t s (s.updThr t f) :=
  ⟨⟨_, _, rfl⟩, fun k hk => ⟨_, _, Station.thr_updThr_ne s f (fun e : (t : Nat) = k => hk (Fin.ext e.symm))⟩⟩

theorem onlyHart_updStn {d : Dev} {h : Hart} {f : Station → Station} (hf : StnFrame h.thr (d.stn h.stn) (f (d.stn h.stn))) :
    OnlyHart d (d.updStn h.stn f) h := by
  obtain ⟨⟨th, c, hunits⟩, hthr⟩ := hf
  refine ⟨rfl, fun n hn => Dev.stn_updStn_ne _ _ (Ne.symm hn), ?_, fun k hk => ?_⟩
  · rw [Dev.stn_updStn_self, hunits]
  · obtain ⟨m, q, hm⟩ := hthr k hk
    rw [Dev.thr_updStn _ _ _ ⟨h.stn, k⟩ rfl, hm]
    rfl

theorem OnlyHart.trans {d1 d2 d3 : Dev} {h : Hart} (h12 : OnlyHart d1 d2 h) (h23 : OnlyHart d2 d3 h) : OnlyHart d1 d3 h := by
  obtain ⟨hdev, hne, hself, hthr⟩ := h12
  obtain ⟨hdev', hne', hself', hthr'⟩ := h23
  refine ⟨?_, fun n hn => (hne' n hn).trans (hne n hn), ?_, fun k hk => ?_⟩
  · rw [hdev', hdev]
  · rw [hself', hself]
  · rw [hthr' k hk, hthr k hk]

theorem onlyHart_pass (d : Dev) (h : Hart) (c : Nat) : OnlyHart d (d.pass h.stn c) h := onlyHart_updStn (stnFrame_pass _ _ _)

/-- An entry to a ring whose shadow set is free changes nothing but its station's threads and cycle count. -/
theorem onlyHart_enter {d : Dev} {h : Hart} {x : XEntry} (hfree : (d.thr h).occ x.target = false) :
    OnlyHart d (d.enter h x) h := by
  rw [Dev.enter_free _ _ _ hfree]
  exact onlyHart_updStn (((stnFrame_pass _ _ _).trans (stnFrame_updThr _ _ _)).trans (stnFrame_pass _ _ _))

/-- The cycle at which a hart's entry finds every multiplier write of its thread landed (R96). -/
def landing (d : Dev) (h : Hart) : Nat := (d.stn h.stn).cycle + ((d.thr h).lastLanding - (d.stn h.stn).cycle)

theorem land_landing (d : Dev) (h : Hart) : ((d.thr h).land (landing d h)).mqPend = [] :=
  Thread.land_mqPend_of_le (by unfold landing; omega)

/-- What an entry writes, as one record: its g is that of the thread with the gate's sp, where the ring becomes more privileged. -/
theorem enter_eq (t : Thread) (c : Nat) (x : XEntry) (pc : Word) :
    t.enter c x pc =
      { t with
        xpc := t.xpc.set x.target x.xpc, xst := t.xst.set x.target (w (t.status.toNat + t.lflags.toNat * 2 ^ 16)),
        xcause := t.xcause.set x.target x.cause, xaddr := t.xaddr.set x.target x.xaddr, xsp := t.xsp.set x.target (t.gr 31),
        status := BitVec.ofNat 16 (setFld (setBit (setBit t.status.toNat (12 + x.target) true) 2 false) 1 0 x.target),
        lflags := t.lflags &&& 4#3, nointFrom := c, pc := pc,
        g := if x.target < t.ring then (t.setG 31 (t.gateSp.getD x.target 0)).g else t.g } := by
  have hsaved : word (t.status.toNat + t.lflags.toNat * 2 ^ 16) = w (t.status.toNat + t.lflags.toNat * 2 ^ 16) := by
    rw [← w_natCast, Int.natCast_add, Int.natCast_mul, Int.natCast_pow]
    rfl
  unfold Thread.enter
  rw [hsaved]
  extract_lets
  split <;> rfl

/-- The general registers after an entry: sp comes from the gate where the ring becomes more privileged. -/
theorem enter_gr (t : Thread) (c : Nat) (x : XEntry) (pc : Word) (r : Nat) :
    (t.enter c x pc).gr r = if r = 31 ∧ x.target < t.ring then t.gateSp.getD x.target 0 else t.gr r := by
  unfold Thread.enter
  extract_lets
  by_cases hring : x.target < t.ring
  · rw [if_pos hring, Thread.gr_setG]
    by_cases hr : r = 31
    · rw [if_pos ⟨by simp [hr], hr⟩, if_pos ⟨hr, hring⟩]
    · rw [if_neg (fun e => hr e.2), if_neg (fun e => hr e.1)]
      rfl
  · rw [if_neg hring, if_neg (fun e => hring e.2)]
    rfl

/-- The thread that enters a ring whose shadow set is free: its multiplier writes land first. -/
theorem enter_thr {d : Dev} {h : Hart} {x : XEntry} (hfree : (d.thr h).occ x.target = false) :
    (d.enter h x).thr h =
      { ((d.thr h).land (landing d h)).enter (landing d h) x ((d.stn h.stn).vector x) with wait := .ready } := by
  rw [Dev.enter_free _ _ _ hfree, Dev.thr_updStn _ _ _ _ rfl, Station.thr_pass, Station.thr_updThr_self, Station.thr_pass]
  refine Thread.land_of_mqPend_nil _ (Eq.trans ?_ (land_landing d h))
  rw [enter_eq]
  rfl

/-- STATUS after an entry to ring T: OCC of T set, IE clear, RING = T. -/
theorem entered_status (st : BitVec 16) (T b : Nat) (hb : b < 16) :
    (BitVec.ofNat 16 (setFld (setBit (setBit st.toNat (12 + T) true) 2 false) 1 0 T)).getLsbD b =
      if b = 12 + T then true else if b = 2 then false else if b < 2 then decide (T / 2 ^ b % 2 = 1) else st.getLsbD b := by
  rw [BitVec.getLsbD_ofNat, testBit_setFld_one_zero, testBit_setBit, testBit_setBit, Nat.testBit_eq_decide_div_mod_eq,
    BitVec.testBit_toNat]
  simp only [hb, decide_true, Bool.true_and]
  by_cases hring : b < 2
  · simp [hring, show b ≠ 12 + T by omega, show b ≠ 2 by omega]
  · by_cases hocc : b = 12 + T
    · simp [hocc, show ¬ 12 + T < 2 by omega, show 12 + T ≠ 2 by omega]
    · simp [hring, hocc]

/-- A thread after its entry, with no multiplier write on its way, is as R95 says. -/
theorem entered_enter {t : Thread} (x : XEntry) (c : Nat) (pc : Word) (ht : t.mqPend = []) :
    Entered t { t.enter c x pc with wait := .ready } x.target x.cause x.xaddr x.xpc pc := by
  have hact : ∀ f : BitVec 3, (f &&& 4#3).getLsbD 0 = false ∧ (f &&& 4#3).getLsbD 1 = false ∧
      (f &&& 4#3).getLsbD 2 = f.getLsbD 2 := by decide
  obtain ⟨hact0, hact1, horder⟩ := hact t.lflags
  have hgr := enter_gr t c x pc
  rw [enter_eq] at hgr ⊢
  refine ⟨rfl, rfl, rfl, rfl, rfl, entered_status t.status x.target, hact0, hact1, horder, ?_, fun r hr => ?_, rfl, ht, rfl, rfl⟩
  · exact (hgr 31).trans (by simp [Thread.ring])
  · exact (hgr r).trans (if_neg fun e => Nat.ne_of_lt hr e.1)

/-- Entered speaks of no multiplier register but those after the entry, so it holds before or after some writes land. -/
theorem entered_of_land {t u : Thread} {n T : Nat} {cause xaddr xpc pc : Word} (hu : Entered (t.land n) u T cause xaddr xpc pc) :
    Entered t u T cause xaddr xpc pc := hu

/-- A hart that enters a ring whose shadow set is free is as R95 says. -/
theorem entered_enter_dev {d : Dev} {h : Hart} {x : XEntry} (hfree : (d.thr h).occ x.target = false) :
    Entered (d.thr h) ((d.enter h x).thr h) x.target x.cause x.xaddr x.xpc ((d.stn h.stn).vector x) := by
  rw [enter_thr hfree]
  exact entered_of_land (entered_enter x _ _ (land_landing d h))

/-! ### The precise exception of an instruction -/

/-- The entry of a precise exception (R93, R94). -/
def preciseEntry (d : Dev) (h : Hart) (code : Nat) (xaddr : Word) (detail : Nat) : XEntry :=
  { code := code, int := false, impr := false, multi := false, detail := detail, xaddr := xaddr, xpc := (d.thr h).pc,
    target := min (d.thr h).ring ((d.stn h.stn).del code) }

theorem exc_eq (d : Dev) (h : Hart) (code : Nat) (xaddr : Word) (detail : Nat) :
    d.exc h code xaddr detail = (d.pass h.stn 1).enter h (preciseEntry d h code xaddr detail) := rfl

theorem bits_eq_wfld (x : Word) (hi lo : Nat) : bits x hi lo = wfld x hi lo := by
  simp [bits, wfld, fld, Nat.shiftRight_eq_div_pow]

/-- The target ring of a code that XDEL0 delegates. -/
theorem preciseEntry_target {d : Dev} {h : Hart} {code : Nat} (xaddr : Word) (detail : Nat) (hcode : code < 32) (hm : code ≠ 18) :
    (preciseEntry d h code xaddr detail).target = targetOf (d.stn h.stn) (d.thr h) code := by
  simp [preciseEntry, targetOf, Station.del, hcode, hm, bits_eq_wfld, Thread.ring, wfld, fld]

theorem preciseEntry_cause {d : Dev} {h : Hart} {code : Nat} (xaddr : Word) (detail : Nat) (hcode : code < 64) :
    (preciseEntry d h code xaddr detail).cause = w (detail % 256 * 256 + code) := by
  simp [preciseEntry, XEntry.cause, b2n, ← w_natCast, Nat.mod_eq_of_lt hcode]

theorem vector_preciseEntry {s : Station} {d : Dev} {h : Hart} {code : Nat} (xaddr : Word) (detail : Nat) (hcode : code < 31) :
    s.vector (preciseEntry d h code xaddr detail) =
      s.xvec.getD (preciseEntry d h code xaddr detail).target 0 + w (64 * code : Nat) := by
  rw [w_natCast]
  simp [Station.vector, preciseEntry, Nat.ne_of_lt hcode]

/-- An instruction whose body is a precise exception takes it. The codes are those whose handler XDEL0 and XVEC place: all below
0x1F but MCHK. -/
theorem traps_of_exc {i : Instr} {s : State} {d1 : Dev} {h : Hart} {len code detail : Nat} {xaddr : Word} {body : Dev → Dev}
    (hx : exec i s = onDev s (fun d => d.issue h len body)) (hi : Issues s.dev h len d1)
    (hb : body d1 = d1.exc h code xaddr detail) (hcode : code < 31) (hm : code ≠ 18) :
    Traps i s d1 h code xaddr detail := by
  have hthr : (d1.pass h.stn 1).thr h = (d1.thr h).land ((d1.stn h.stn).cycle + 1) := by
    rw [Dev.pass, Dev.thr_updStn _ _ _ _ rfl, Station.thr_pass]
    rfl
  have hstn : (d1.pass h.stn 1).stn h.stn = (d1.stn h.stn).pass 1 := Dev.stn_updStn_self _ _ _
  have htarget := preciseEntry_target (d := d1) (h := h) xaddr detail (by omega : code < 32) hm
  have hocc : ((d1.pass h.stn 1).thr h).occ (preciseEntry d1 h code xaddr detail).target =
      (d1.thr h).status.getLsbD (12 + targetOf (d1.stn h.stn) (d1.thr h) code) := by
    rw [hthr, htarget]
    rfl
  refine ⟨_, exec_of_issues hx hi, rfl, ?_⟩
  rw [hb, exc_eq]
  split
  case isTrue hset =>
    rw [Dev.enter_occ _ _ _ (hocc.trans hset)]
    exact lockedUp_lockup _ _ _ _ _ _
  case isFalse hclear =>
    have hfree := hocc.trans (Bool.eq_false_iff.mpr hclear)
    refine ⟨(onlyHart_pass d1 h 1).trans (onlyHart_enter hfree), ?_⟩
    have hentered := entered_enter_dev hfree
    rw [hthr, hstn, vector_preciseEntry _ _ hcode, preciseEntry_cause _ _ (by omega), htarget] at hentered
    exact entered_of_land hentered

end Sys2Proof.Cert
end

section
/-! PROOFS. Multiplies into the mq registers, and divides (R71, R73). -/

namespace Sys2Proof.Cert

open Sys2Proof.Machine

/-! ### Multiplies and divides -/

theorem toInt_eq_zero_iff (x : Word) : x.toInt = 0 ↔ x = 0 := BitVec.toInt_inj (y := 0)

theorem toNat_eq_zero_iff (x : Word) : (x.toNat : Int) = 0 ↔ x = 0 := by
  rw [Int.natCast_eq_zero]; exact BitVec.toNat_inj (y := 0)

/-- −2^63 ÷ −1 wraps to −2^63, as the machine's signed quotient does. -/
theorem divS_eq_quot (a b : Word) : divS a b = quot a.toInt b.toInt := by
  unfold divS quot
  simp only [toInt_eq_zero_iff]
  split
  · rfl
  · rw [← w_toInt (a.sdiv b), BitVec.toInt_sdiv, w_bmod]

theorem divU_eq_quot (a b : Word) : divU a b = quot a.toNat b.toNat := by
  unfold divU quot
  simp only [toNat_eq_zero_iff]
  split
  · rfl
  · rw [← Int.ofNat_tdiv, ← BitVec.toNat_udiv, w_toNat]

theorem remS_eq_rest (a b : Word) : remS a b = rest a.toInt b.toInt := by
  unfold remS rest
  simp only [toInt_eq_zero_iff]
  split
  · exact (w_toInt a).symm
  · rw [← BitVec.toInt_srem, w_toInt]

theorem remU_eq_rest (a b : Word) : remU a b = rest a.toNat b.toNat := by
  unfold remU rest
  simp only [toNat_eq_zero_iff]
  split
  · exact (w_toNat a).symm
  · rw [← Int.ofNat_tmod, ← BitVec.toNat_umod, w_toNat]

/-- A multiply whose rd names an mq register issues a write of that register. -/
theorem onDev_mulOp {rd a b : Fin 32} {f : Word → Word → Word} {v : Thread → Word} (hrd : rd.val < 4)
    (hv : ∀ t, f (t.gr a) (t.gr b) = v t) (s : State) (h : Hart) (fn : Nat) :
    onDev s (fun d => d.mulOp h fn rd a b f) =
      onDev s (fun d => d.issue h 4 (fun d1 => d1.finish h 4 1 (fun t => t.mqIssue (d1.cycleOf h) rd (v t)))) := by
  simp only [Dev.mulOp, if_neg (Nat.not_lt.mpr (Nat.le_of_lt_succ hrd)), hv]

/-- The high half of a product of unsigned numbers. -/
theorem mulHi_natCast (m n : Nat) : mulHi m n = w (m * n / 2 ^ 64 : Nat) := by
  unfold mulHi w
  rw [Int.natCast_ediv, Int.natCast_mul, Int.natCast_pow]
  rfl

/-- The fields that R71 requires of MFMQ and MTMQ. -/
theorem mq_fields {r b : Fin 32} (hf : r.val < 4 ∧ b = 0) : ¬ (r.val > 3 ∨ b ≠ 0) := by
  obtain ⟨hr, rfl⟩ := hf
  simpa using Nat.le_of_lt_succ hr

/-- A multiply or MTMQ with the fields R71 requires issues its rule's value into its mq register, in one cycle. -/
theorem exec_of_mqRule {i : Instr} {h : Hart} {rd : Fin 32} {v : Thread → Word} (hr : mqRule i = some (h, rd, v)) (s : State) :
    exec i s = onDev s (fun d => d.issue h 4 (fun d1 => d1.finish h 4 1 (fun t => t.mqIssue (d1.cycleOf h) rd (v t)))) := by
  unfold mqRule at hr
  split at hr
  case h_6 => cases hr
  all_goals
    obtain ⟨hf, heq⟩ := Option.ite_none_right_eq_some.mp hr
    cases heq
  case h_1.refl => exact onDev_mulOp hf (fun t => by rw [w_mul, w_toInt, w_toInt]) s h 0x000
  case h_2.refl => exact onDev_mulOp hf (fun _ => rfl) s h 0x001
  case h_3.refl => exact onDev_mulOp hf (fun _ => mulHi_natCast _ _) s h 0x002
  case h_4.refl => exact onDev_mulOp hf (fun _ => rfl) s h 0x003
  case h_5.refl a b =>
    change execMtmq h rd a b s = _
    simp only [execMtmq, if_neg (mq_fields hf)]

/-- MFMQ with the fields R71 requires, or a divide, writes its rule's value to rd. -/
theorem exec_of_mdRule {i : Instr} {h : Hart} {c : Nat} {rd : Fin 32} {v : Thread → Word} (hr : mdRule i = some (h, c, rd, v))
    (s : State) : exec i s = onDev s (fun d => d.issue h 4 (fun d1 => d1.finish h 4 c (fun t => t.setG rd (v t)))) := by
  unfold mdRule at hr
  split at hr
  case h_1 h' rd' a b =>
    obtain ⟨hf, heq⟩ := Option.ite_none_right_eq_some.mp hr
    cases heq
    change execMfmq h rd a b s = _
    simp only [execMfmq, if_neg (mq_fields hf)]
    rfl
  all_goals cases hr
  case h_2.refl => simp only [← divS_eq_quot]; rfl
  case h_3.refl => simp only [← divU_eq_quot]; rfl
  case h_4.refl => simp only [← remS_eq_rest]; rfl
  case h_5.refl => simp only [← remU_eq_rest]; rfl

/-- Settles O6: the rule of each instruction is the thread update that its body completes with. -/
theorem multiplyAndDivideResults : Obligations.MultiplyAndDivideResults := by
  constructor
  · intro i s d1 h rd v hr hi
    simpa only [Thread.mqIssue, Dev.cycleOf] using runs_of_finish (exec_of_mqRule hr s) hi rfl
  · intro i s d1 h c rd v hr hi
    have hrun := runs_of_finish (exec_of_mdRule hr s) hi rfl
    exact hrun

end Sys2Proof.Cert
end

section
/-! PROOFS. Branches, jumps and calls (R62 to R64, R82): what a jump does to the loops it leaves, the offsets and conditions of the
branches, and the statement about them. -/

namespace Sys2Proof.Cert

open Sys2Proof.Machine

/-! ### Loops that a jump leaves -/

/-- A jump to p from t leaves the body of loop n. -/
def leaves (t : Thread) (p : Word) (n : Nat) : Prop := inLoop t n t.pc ∧ ¬ inLoop t n p

/-- Loop n goes inactive where the jump leaves its body; every other loop flag stays. -/
theorem abandon_lflags (t : Thread) (p : Word) (n : Nat) {m : Nat} (hm : m < 3) :
    (t.abandon p n).lflags.getLsbD m = true ↔ t.lflags.getLsbD m = true ∧ ¬ (m = n ∧ leaves t p n) := by
  have hclear : (BitVec.ofNat 3 (setBit t.lflags.toNat n false)).getLsbD m = true ↔ t.lflags.getLsbD m = true ∧ m ≠ n := by
    rw [BitVec.getLsbD_ofNat, testBit_setBit, BitVec.testBit_toNat]
    by_cases hmn : m = n <;> simp [hmn, hm]
  unfold Thread.abandon
  extract_lets inside
  have hguard : (t.act n && inside t.pc && !inside p) = true ↔ t.act n = true ∧ leaves t p n := by
    have hinside : ∀ a, inside a = true ↔ inLoop t n a := by simp [inside, inLoop]
    simp only [leaves, Bool.and_eq_true, Bool.not_eq_true', ← Bool.not_eq_true, hinside, and_assoc]
  split
  case isTrue hleft => rw [hclear, and_iff_left (hguard.mp hleft).2]
  case isFalse hstays =>
    refine ⟨fun hact => ⟨hact, ?_⟩, And.left⟩
    rintro ⟨rfl, hleaves⟩
    exact hstays (hguard.mpr ⟨hact, hleaves⟩)

/-- Abandoning a loop changes nothing but the loop flags. -/
theorem abandon_eq (t : Thread) (p : Word) (n : Nat) : ∃ f, t.abandon p n = { t with lflags := f } := by
  unfold Thread.abandon
  extract_lets
  split <;> exact ⟨_, rfl⟩

/-- The loop flags after a branch or a plain jump. -/
theorem jump_lflags (t : Thread) (p : Word) {m : Nat} (hm : m < 3) :
    (t.jump p true).lflags.getLsbD m = true ↔
      t.lflags.getLsbD m = true ∧ ¬ (m = 0 ∧ leaves t p 0) ∧ ¬ (m = 1 ∧ leaves t p 1) := by
  have hleaves : leaves (t.abandon p 0) p 1 ↔ leaves t p 1 := by
    obtain ⟨f, hf⟩ := abandon_eq t p 0
    rw [hf]
    exact Iff.rfl
  exact (abandon_lflags (t.abandon p 0) p 1 hm).trans (by rw [abandon_lflags t p 0 hm, hleaves, and_assoc])

/-- A branch or a plain jump abandons the loops it leaves. -/
theorem jumped_jump (t : Thread) (p : Word) : jumped t p (t.jump p true) := by
  refine ⟨?_, ?_, fun n hn => ?_⟩
  · obtain ⟨f, hf⟩ := abandon_eq t p 0
    obtain ⟨f', hf'⟩ := abandon_eq { t with lflags := f } p 1
    simp only [Thread.jump, if_true, hf, hf']
  · rw [Bool.eq_iff_iff, jump_lflags t p (by decide)]
    simp
  · unfold Thread.act
    rw [jump_lflags t p (by omega)]
    obtain rfl | rfl : n = 0 ∨ n = 1 := by omega
    · simp [leaves]
    · simp [leaves]

/-- A call abandons no loop. -/
theorem jump_false (t : Thread) (p : Word) : t.jump p false = called t p := rfl

/-! ### Offsets and conditions -/

theorem shiftLeft_two_eq_w (x : Int) : w x <<< 2 = w (4 * x) := by
  rw [w_mul, BitVec.mul_comm, BitVec.shiftLeft_eq_mul_twoPow]
  rfl

theorem off12_eq (o : BitVec 12) : off12 o = w (4 * o.toInt) := shiftLeft_two_eq_w o.toInt

theorem off25_eq (o : BitVec 25) : off25 o = w (4 * o.toInt) := shiftLeft_two_eq_w o.toInt

theorem sltB_eq (a b : Word) : sltB a b = decide (a.toInt < b.toInt) := rfl

theorem ultB_eq (a b : Word) : ultB a b = decide (a.toNat < b.toNat) := rfl

theorem not_sltB_eq (a b : Word) : (!sltB a b) = decide (b.toInt ≤ a.toInt) := by
  simp [sltB_eq, ← decide_not]

theorem not_ultB_eq (a b : Word) : (!ultB a b) = decide (b.toNat ≤ a.toNat) := by
  simp [ultB_eq, ← decide_not]

theorem toInt_imm5 (i : BitVec 5) : (imm5 i).toInt = i.toInt := BitVec.toInt_signExtend_of_le (by decide)

/-- A compare-and-branch is the shared branch with its rule's offset and condition. -/
theorem exec_of_branchRule {i : Instr} {h : Hart} {o : Int} {c : Thread → Bool} (hr : branchRule i = some (h, o, c)) (s : State) :
    ∃ off : BitVec 12, o = off.toInt ∧ exec i s = onDev s (fun d => d.branch h off c) := by
  unfold branchRule at hr
  split at hr
  all_goals cases hr
  all_goals refine ⟨_, rfl, ?_⟩
  case h_1.refl | h_3.refl | h_5.refl | h_7.refl | h_11.refl => rfl
  case h_2.refl | h_8.refl => simp only [ne_eq, decide_not]; rfl
  case h_4.refl => simp only [← not_sltB_eq]; rfl
  case h_6.refl => simp only [← not_ultB_eq]; rfl
  case h_9.refl => simp only [← toInt_imm5]; rfl
  case h_10.refl => simp only [← toInt_imm5, ← not_sltB_eq]; rfl
  case h_12.refl => simp only [← not_ultB_eq]; rfl

/-- A branch goes to its target where its condition holds, and otherwise to the next instruction. -/
theorem branch_results {i : Instr} {s : State} {d1 : Dev} {h : Hart} {off : BitVec 12} {c : Thread → Bool}
    (hx : exec i s = onDev s (fun d => d.branch h off c)) (hi : Issues s.dev h 4 d1) :
    (c (d1.thr h) = true → Goes i s d1 h (jumped (d1.thr h) ((d1.thr h).pc + w (4 * off.toInt)))) ∧
    (c (d1.thr h) = false → Runs i s d1 h 1 ((d1.thr h).done 4)) := by
  constructor
  · intro hc
    refine goes_of_transfer hx hi (if_pos hc) ?_
    rw [off12_eq]
    exact jumped_jump _ _
  · intro hc
    have hrun := runs_of_finish hx hi (if_neg (Bool.eq_false_iff.mp hc))
    exact hrun

/-- JR is a plain jump where it neither links nor is RET. -/
theorem jrAbandons_iff (rd a : Fin 32) (i : BitVec 15) : jrAbandons rd a i = true ↔ rd = 0 ∧ ¬ (a = 30 ∧ i = 0) := by
  simp only [jrAbandons, Bool.and_eq_true, Bool.not_eq_true', decide_eq_true_eq, ← Bool.not_eq_true]

/-- JR to an aligned target, with its jump or call. -/
theorem jr_transfers {s : State} {d1 : Dev} {h : Hart} {rd a : Fin 32} {i : BitVec 15} (hi : Issues s.dev h 4 d1)
    (hp : ((d1.thr h).gr a + w i.toInt).toNat % 4 = 0) {P : Thread → Prop}
    (hP : P (((d1.thr h).setG rd ((d1.thr h).pc + 4)).jump ((d1.thr h).gr a + w i.toInt) (jrAbandons rd a i))) :
    Goes (.jr h rd a i) s d1 h P :=
  goes_of_transfer (i := .jr h rd a i) rfl hi (if_neg (not_not_intro hp)) hP

/-- Settles O8: a branch or plain jump is a transfer that abandons the loops it leaves, a call one that abandons none, and a misaligned
JR the precise exception ALIGN. -/
theorem branchAndJumpResults : Obligations.BranchAndJumpResults := by
  refine ⟨fun i s d1 h o c hr hi => ?branch, fun s d1 h hi => ⟨fun o => ?j, fun o => ?call, fun rd a i =>
    ⟨fun hp => ⟨?jrPlain, ?jrCall⟩, fun hp => ?jrMisaligned⟩⟩⟩
  case branch =>
    obtain ⟨off, rfl, hx⟩ := exec_of_branchRule hr s
    exact branch_results hx hi
  case j =>
    refine goes_of_transfer (i := .j h o) rfl hi rfl ?_
    rw [off25_eq]
    exact jumped_jump _ _
  case call =>
    refine goes_of_transfer (i := .call h o) rfl hi rfl ?_
    rw [off25_eq]
    exact jump_false _ _
  case jrPlain =>
    rintro ⟨rfl, hret⟩
    refine jr_transfers hi hp ?_
    rw [(jrAbandons_iff 0 a i).mpr ⟨rfl, hret⟩]
    exact jumped_jump _ _
  case jrCall =>
    intro hlink
    refine jr_transfers hi hp ?_
    have hcall : ¬ (rd = 0 ∧ ¬ (a = 30 ∧ i = 0)) := fun ⟨hrd, hret⟩ => hlink.elim (· hrd) hret
    rw [Bool.eq_false_iff.mpr (mt (jrAbandons_iff rd a i).mp hcall)]
    exact jump_false _ _
  case jrMisaligned => exact traps_of_exc (i := .jr h rd a i) rfl hi (if_pos hp) (by decide) (by decide)

end Sys2Proof.Cert
end

section
/-! PROOFS. GATE and XRET (R95 to R98, R103): a completion keeps STATUS, an instruction that changes one thread and takes
some cycles, the gates that may be entered, and what XRET gives back. -/

namespace Sys2Proof.Machine

/-! ### STATUS after a completion -/

@[simp] theorem Thread.loopEnd_status (n : Nat) (t : Thread) : (t.loopEnd n).1.status = t.status := by
  unfold Thread.loopEnd
  split
  case isTrue => split <;> rfl
  case isFalse => rfl

/-- The advance to the next instruction keeps STATUS: it is a new PC on the thread that one or both loop checks leave. -/
@[simp] theorem Thread.advance_status (len : Nat) (t : Thread) : (t.advance len).status = t.status := by
  unfold Thread.advance
  extract_lets i
  have hinner := Thread.loopEnd_status i t
  split
  case h_1 t1 p hloop =>
    rw [hloop] at hinner
    exact hinner
  case h_2 t1 hloop =>
    rw [hloop] at hinner
    have houter := (Thread.loopEnd_status (1 - i) t1).trans hinner
    split
    case h_1 t2 p hloop | h_2 t2 hloop =>
      rw [hloop] at houter
      exact houter

@[simp] theorem Thread.done_status (len : Nat) (t : Thread) : (t.done len).status = t.status := Thread.advance_status len t

/-! ### What XRET gives back -/

/-- The fields that XRET from ring c puts together in STATUS: the saved bits below OCC, and OCC of ring c clear. -/
theorem testBit_returnStatus (saved st c b : Nat) :
    (setBit (st / 4096 * 4096 + saved % 4096) (12 + c) false).testBit b =
      if b < 12 then saved.testBit b else if b = 12 + c then false else st.testBit b := by
  have hform : st / 4096 * 4096 + saved % 4096 = 2 ^ 12 * (st >>> 12) + saved % 2 ^ 12 := by omega
  rw [testBit_setBit, hform, Nat.testBit_two_pow_mul_add _ (Nat.mod_lt saved (by decide)), Nat.testBit_mod_two_pow,
    Nat.testBit_shiftRight]
  by_cases hb : b < 12
  · simp [hb, show b ≠ 12 + c by omega]
  · simp [hb, Nat.add_sub_cancel' (Nat.not_lt.mp hb)]

/-- STATUS after XRET: the saved bits 11:0, OCC of the ring it leaves clear, and the OCC of the other rings kept. -/
theorem Thread.xret_status_getLsbD (t : Thread) (c : Nat) {b : Nat} (hb : b < 16) :
    (t.xret c).status.getLsbD b =
      if b < 12 then (t.xst.getD t.ring 0).getLsbD b else if b = 12 + t.ring then false else t.status.getLsbD b := by
  change (BitVec.ofNat 16 _).getLsbD b = _
  rw [BitVec.getLsbD_ofNat, testBit_returnStatus, decide_eq_true hb, Bool.true_and]
  rfl

/-- The loop flags after XRET are bits 18:16 of the saved word. -/
theorem Thread.xret_lflags_getLsbD (t : Thread) (c : Nat) {b : Nat} (hb : b < 3) :
    (t.xret c).lflags.getLsbD b = (t.xst.getD t.ring 0).getLsbD (16 + b) := by
  change (BitVec.ofNat 3 ((t.xst.getD t.ring 0).toNat >>> 16)).getLsbD b = _
  rw [BitVec.getLsbD_ofNat, Nat.testBit_shiftRight, decide_eq_true hb, Bool.true_and, BitVec.testBit_toNat]

end Sys2Proof.Machine

namespace Sys2Proof.Cert

open Sys2Proof.Machine

/-! ### An instruction that changes one thread -/

/-- A change of a hart's thread by what its station holds, and some cycles, touch nothing else. -/
theorem onlyThread_pass (d : Dev) (h : Hart) (c : Nat) (f : Station → Thread → Thread) :
    OnlyThread d (d.updStn h.stn (fun s => (s.updThr h.thr (f s)).pass c)) h c := by
  refine ⟨rfl, fun n hn => Dev.stn_updStn_ne _ _ (Ne.symm hn), ?_, fun k hk => ?_⟩
  · rw [Dev.stn_updStn_self]
    rfl
  · rw [Dev.thr_updStn _ _ _ ⟨h.stn, k⟩ rfl, Station.thr_pass,
      Station.thr_updThr_ne _ _ (fun e : (h.thr : Nat) = k => hk (Fin.ext e.symm))]
    rfl

/-- An instruction whose body is such a change and c cycles runs to it. -/
theorem runs_of_pass {i : Instr} {s : State} {d1 : Dev} {h : Hart} {len c : Nat} {f : Station → Thread → Thread} {body : Dev → Dev}
    (hx : exec i s = onDev s (fun d => d.issue h len body)) (hi : Issues s.dev h len d1)
    (hb : body d1 = d1.updStn h.stn (fun x => (x.updThr h.thr (f x)).pass c)) :
    Runs i s d1 h c (f (d1.stn h.stn) (d1.thr h)) := by
  refine ⟨_, exec_of_issues hx hi, rfl, hb ▸ onlyThread_pass d1 h c f, ?_⟩
  change (body d1).thr h = _
  rw [hb, Dev.thr_updStn _ _ _ _ rfl, Station.thr_pass, Station.thr_updThr_self]
  rfl

/-! ### The gates of a station -/

/-- The byte of gate n in GTAB (R102). -/
def gateByte (s : Station) (n : Nat) : Nat := bits (s.gtab.getD (n / 8) 0) (8 * (n % 8) + 7) (8 * (n % 8))

/-- A gate with this byte may be entered from ring c: EN, ALLOW[c], and a target ring no less privileged (R103). -/
abbrev GateOpen (g c : Nat) : Prop := g / 128 = 1 ∧ g / 2 ^ c % 2 = 1 ∧ g / 16 % 4 ≤ c

theorem gate_eq_gateByte (s : Station) (n : Nat) : s.gate n = gateByte s n := (bits_eq_wfld _ _ _).symm

theorem gateByte_lt (s : Station) (n : Nat) : gateByte s n < 256 := by
  unfold gateByte bits
  rw [show 8 * (n % 8) + 7 + 1 - 8 * (n % 8) = 8 by omega]
  exact Nat.mod_lt _ (by decide)

theorem gate_target_eq (g : Nat) : fld g 5 4 = g / 16 % 4 := by simp [fld, Nat.shiftRight_eq_div_pow]

theorem gate_check_iff {g : Nat} (hg : g < 256) (c : Nat) :
    (bitOf g 7 && bitOf g c && decide (fld g 5 4 ≤ c)) = true ↔ GateOpen g c := by
  have hen : bitOf g 7 = true ↔ g / 128 = 1 := by
    rw [bitOf, Nat.testBit_eq_decide_div_mod_eq, decide_eq_true_eq]
    omega
  have hallow : bitOf g c = true ↔ g / 2 ^ c % 2 = 1 := by
    rw [bitOf, Nat.testBit_eq_decide_div_mod_eq, decide_eq_true_eq]
  rw [Bool.and_eq_true, Bool.and_eq_true, hen, hallow, decide_eq_true_eq, gate_target_eq, and_assoc]

/-- GATE with zero fields calls its gate, or takes GATE_FAULT. -/
theorem exec_gate (s : State) (h : Hart) {n : BitVec 15} (hn : n.toNat < 256) :
    exec (.gate h 0 0 n) s = onDev s (fun d => d.issue h 4 (fun d1 =>
      if GateOpen (gateByte (d1.stn h.stn) n.toNat) (d1.thr h).ring
      then d1.takeGate h n.toNat (gateByte (d1.stn h.stn) n.toNat / 16 % 4) else d1.exc h 0x0C 0 n.toNat)) := by
  have hfields : ¬ ((0 : Fin 32) ≠ 0 ∨ (0 : Fin 32) ≠ 0 ∨ n.toNat / 256 ≠ 0) := by simp [Nat.div_eq_of_lt hn]
  change execGate h 0 0 n s = _
  simp only [execGate, if_neg hfields, Nat.mod_eq_of_lt hn, gate_eq_gateByte, gate_check_iff (gateByte_lt _ _)]
  simp only [gate_target_eq]

/-! ### Entry by a gate -/

/-- The device in which the GATE of a hart has completed, in one cycle, before it enters (R98). -/
def gateDone (d : Dev) (h : Hart) : Dev := (d.updThr h (Thread.done 4)).pass h.stn 1

/-- The entry by gate n to ring T (R91, R103). -/
def gateEntry (n T : Nat) (xpc : Word) : XEntry :=
  { code := 0x1F, int := false, impr := false, multi := false, detail := n, xaddr := 0, xpc := xpc, target := T }

theorem takeGate_occ {d : Dev} {h : Hart} (n : Nat) {T : Nat} (ho : (d.thr h).occ T = true) :
    d.takeGate h n T = d.enter h (gateEntry n T (d.thr h).pc) := if_pos ho

theorem gateEntry_cause {n : Nat} (hn : n < 256) (T : Nat) (xpc : Word) : (gateEntry n T xpc).cause = w (n * 256 + 0x1F : Nat) := by
  rw [w_natCast]
  simp [gateEntry, XEntry.cause, b2n, Nat.mod_eq_of_lt hn]

theorem vector_gateEntry (s : Station) (n T : Nat) (xpc : Word) :
    s.vector (gateEntry n T xpc) = s.gatePc.getD T 0 + w (64 * n : Nat) := by
  rw [w_natCast]
  rfl

theorem onlyHart_gateDone (d : Dev) (h : Hart) : OnlyHart d (gateDone d h) h :=
  (onlyHart_updStn (stnFrame_updThr _ _ _)).trans (onlyHart_pass _ h 1)

theorem gateDone_thr (d : Dev) (h : Hart) : (gateDone d h).thr h = ((d.thr h).done 4).land ((d.stn h.stn).cycle + 1) := by
  unfold gateDone Dev.pass Dev.updThr
  rw [Dev.thr_updStn _ _ _ _ rfl, Station.thr_pass, Dev.stn_updStn_self, Station.thr_updThr_self]
  rfl

theorem takeGate_free {d : Dev} {h : Hart} (n : Nat) {T : Nat} (ho : (d.thr h).occ T = false) :
    d.takeGate h n T = (gateDone d h).enter h (gateEntry n T ((d.thr h).done 4).pc) := by
  refine (if_neg (Bool.eq_false_iff.mp ho)).trans ?_
  change (gateDone d h).enter h (gateEntry n T ((gateDone d h).thr h).pc) = _
  rw [gateDone_thr, Thread.land_pc]

theorem gateDone_gatePc (d : Dev) (h : Hart) : ((gateDone d h).stn h.stn).gatePc = (d.stn h.stn).gatePc := by
  unfold gateDone Dev.pass Dev.updThr
  rw [Dev.stn_updStn_self, Dev.stn_updStn_self, Station.pass_gatePc, Station.updThr_gatePc]

/-- A station that locks up at once. -/
theorem lockedUp_lockup_now (d : Dev) (h : Hart) (ring occupied new : Nat) : LockedUp d (d.lockup h ring occupied new) h := by
  have hstn := Dev.lockup_stn_self d h ring occupied new
  refine ⟨by rw [hstn], by rw [hstn], fun k => ?_, Dev.containedHalt_cfatal _ _ _ _ _, by simp, by rw [hstn],
    Dev.containedHalt_cnt _ _ _ _ _⟩
  unfold Dev.thr
  rw [hstn]
  rfl

/-- A gate whose target ring's shadow set is occupied locks the station up, its GATE not completed (R98, R99). -/
theorem lockedUp_takeGate {d : Dev} {h : Hart} {n T : Nat} (ho : (d.thr h).occ T = true) : LockedUp d (d.takeGate h n T) h := by
  rw [takeGate_occ n ho, Dev.enter_occ _ _ _ ho]
  exact lockedUp_lockup_now _ _ _ _ _

/-- A gate whose target ring's shadow set is free enters that ring, its GATE completed first (R95, R98, R103). -/
theorem entered_takeGate {d : Dev} {h : Hart} {n T : Nat} (hn : n < 256) (ho : (d.thr h).occ T = false) :
    OnlyHart d (d.takeGate h n T) h ∧
      Entered ((d.thr h).done 4) ((d.takeGate h n T).thr h) T (w (n * 256 + 0x1F : Nat)) 0 ((d.thr h).done 4).pc
        ((d.stn h.stn).gatePc.getD T 0 + w (64 * n : Nat)) := by
  have hfree : ((gateDone d h).thr h).occ T = false := by
    rw [gateDone_thr, Thread.occ, Thread.land_status, Thread.done_status]
    exact ho
  rw [takeGate_free n ho]
  refine ⟨(onlyHart_gateDone d h).trans (onlyHart_enter hfree), ?_⟩
  have hentered := entered_enter_dev (x := gateEntry n T ((d.thr h).done 4).pc) hfree
  rw [gateEntry_cause hn, vector_gateEntry, gateDone_gatePc, gateDone_thr] at hentered
  exact entered_of_land hentered

/-! ### XRET -/

/-- The thread in which XRET has completed: no loop check, the PC is the saved one (R97). -/
def xretDone (s : Station) (t : Thread) : Thread := { (t.xret s.cycle) with instret := t.instret + 1 }

/-- XRET with zero fields returns, or takes PRIV where the saved ring is more privileged (R97). -/
theorem exec_xret (s : State) (h : Hart) :
    exec (.xret h 0 0 0) s = onDev s (fun d => d.issue h 4 (fun d1 =>
      if ((d1.thr h).xst.getD (d1.thr h).ring 0).toNat % 4 < (d1.thr h).ring
      then d1.exc h 2 (wordA 0x3E 0x021 0 0 0) 0
      else d1.updStn h.stn (fun x => (x.updThr h.thr (xretDone x)).pass 3))) := rfl

/-- Settles O18: an open gate is an entry once its GATE has completed, or a lock-up where the shadow set is occupied, a shut one the
precise exception GATE_FAULT; XRET is one change of its thread, or PRIV. -/
theorem gateAndReturnResults : Obligations.GateAndReturnResults := by
  refine ⟨fun s d1 h n hi hn =>
      ⟨fun (hopen : GateOpen (gateByte (d1.stn h.stn) n.toNat) (d1.thr h).ring) => ?gate, fun hshut => ?fault⟩,
    fun s d1 h hi => ⟨fun hpriv => ?priv, fun hring => ?ret⟩⟩
  case gate =>
    have hx : exec (.gate h 0 0 n) s =
        .next { s with dev := d1.takeGate h n.toNat (gateByte (d1.stn h.stn) n.toNat / 16 % 4) } := by
      rw [exec_of_issues (exec_gate s h hn) hi, if_pos hopen]
    refine ⟨_, hx, rfl, ?_⟩
    split
    case isTrue hset => exact lockedUp_takeGate hset
    case isFalse hclear => exact entered_takeGate hn (Bool.eq_false_iff.mpr hclear)
  case fault => exact traps_of_exc (exec_gate s h hn) hi (if_neg hshut) (by decide) (by decide)
  case priv => exact traps_of_exc (exec_xret s h) hi (if_pos hpriv) (by decide) (by decide)
  case ret =>
    exact ⟨xretDone (d1.stn h.stn) (d1.thr h), rfl, fun _ hb => Thread.xret_lflags_getLsbD _ (d1.stn h.stn).cycle hb,
      fun _ hb => Thread.xret_status_getLsbD _ (d1.stn h.stn).cycle hb,
      runs_of_pass (exec_xret s h) hi (if_neg (Nat.not_lt.mpr hring))⟩

end Sys2Proof.Cert
end

section
/-! PROOFS. Telemetry samples and a restart of the signal box (R534, R540, R541). -/

namespace Sys2Proof.Cert

open Sys2Proof.Machine

theorem makes_of_onDev {i : Instr} {s : State} {f : Dev → Dev} {d : Dev} (hx : exec i s = onDev s f) (hd : f s.dev = d) :
    Makes i s d := by
  rw [Makes, hx, onDev_eq, hd]

/-! ### The telemetry record -/

/-- Peeling off the low byte and taking each byte at its place give the same bytes. -/
theorem bytesLE_eq_bytes (n x : Nat) : bytesLE n x = bytes n x := by
  induction n generalizing x with
  | zero => rfl
  | succ n ih =>
    have hshift : byteOf (x / 256) = byteOf x ∘ Nat.succ := by
      funext j
      simp only [byteOf, Function.comp_apply, Nat.div_div_eq_div_mul, Nat.pow_succ']
    rw [bytesLE, ih, bytes, bytes, List.range_succ_eq_map, List.map_cons, List.map_map, hshift]
    simp [byteOf]

/-- The two bytes FLAGS and reserved of a record (R534). -/
theorem bytesLE_flags (degraded : Bool) : bytesLE 1 (b2n degraded) ++ bytesLE 1 0 = [if degraded = true then 1 else 0, 0] := by
  cases degraded <;> rfl

/-- A record is the fields of R534, each at its offset. -/
theorem telemRec_eq (d : Dev) (degraded : Bool) (pin iin vin tjmax tjstn : Nat) :
    d.telemRec degraded pin iin vin tjmax tjstn = BitVec.ofNat 256 (natLE (bytes 8 d.tt.tick ++ bytes 4 ((d.now - d.tt.lastB) / 17) ++
      [if degraded = true then 1 else 0, 0] ++ bytes 2 pin ++ bytes 2 iin ++ bytes 2 vin ++ bytes 2 tjmax ++ bytes 2 tjstn ++ bytes 4 0 ++
      bytes 4 d.dict.tseq)) := by
  rw [Dev.telemRec, List.append_assoc (bytesLE 8 _ ++ bytesLE 4 _) (bytesLE 1 _), bytesLE_flags]
  simp only [bytesLE_eq_bytes, nsU]

/-! ### The sample -/

/-- Below 4,096 records the ring loses nothing; from there on it loses the oldest (R534). -/
theorem telemRoom_eq (l : List (BitVec 256)) :
    (if telemSize ≤ l.length then l.drop 1 else l) = if l.length < 4096 then l else l.drop 1 := by
  simp only [telemSize, ← Nat.not_lt, ite_not]

/-- What a sample finds that starts the degraded sampling (R540). -/
def crowded (x : Dict) : Bool := decide (192 < x.queue.length) || x.busy

/-- What a sample finds that ends the degraded sampling (R540). -/
def calm (x : Dict) : Bool := decide (x.queue.length < 64) && !x.busy

theorem crowded_iff (x : Dict) : crowded x = true ↔ 192 < x.queue.length ∨ x.busy = true := by
  rw [crowded, Bool.or_eq_true, decide_eq_true_eq]

theorem calm_iff (x : Dict) : calm x = true ↔ x.queue.length < 64 ∧ x.busy = false := by
  rw [calm, Bool.and_eq_true, decide_eq_true_eq, Bool.not_eq_true']

theorem degradedNext_eq (above degraded low : Bool) :
    (above || (degraded && !low)) = decide (above = true ∨ (degraded = true ∧ ¬ low = true)) := by
  rw [Bool.decide_or, Bool.decide_and, decide_not, Bool.decide_eq_true, Bool.decide_eq_true, Bool.decide_eq_true]

/-- A sample of a box in service, at its instant t (R540). -/
theorem sample_eq {d : Dev} (hlive : ¬ (d.pw.state ≠ .running ∨ d.dict.restarting = true)) {t : Nat}
    (ht : max d.now (d.dict.sampled + d.dict.period * 17000 * (if d.dict.degraded then 8 else 1)) = t) (pin iin vin tjmax tjstn : Nat) :
    d.sample pin iin vin tjmax tjstn = { d with
      now := t,
      dict := { d.dict with
        telem := (if telemSize ≤ d.dict.telem.length then d.dict.telem.drop 1 else d.dict.telem) ++
          [{ d with now := t }.telemRec (crowded d.dict || d.dict.degraded) pin iin vin tjmax tjstn],
        tseq := (d.dict.tseq + 1) % 2 ^ 32, degraded := crowded d.dict || (d.dict.degraded && !calm d.dict), busy := false, sampled := t } } := by
  subst ht
  exact if_neg hlive

theorem exec_telemetrySample (s : State) (pin iin vin tjmax tjstn : BitVec 16) : exec (.telemetrySample pin iin vin tjmax tjstn) s =
    onDev s (fun d => d.sample pin.toNat iin.toNat vin.toNat tjmax.toNat tjstn.toNat) := rfl

/-- Settles O56: the sample of a box in service is its record in the ring and the marks of R540 moved on (DEGRADED set in the record of the
sample that triggers it and cleared after the calm one is the model's choice, log entry 97); the other cases are the branches of the
restart and of its end. -/
theorem signalBoxResults : Obligations.SignalBoxResults := by
  refine fun s => ⟨fun pin iin vin tjmax tjstn => ⟨fun hrun hup => ?sample, fun hsilent => ?silent⟩, fun hrun => ?restart, fun hrun => ?off,
    fun hre => ?resume, fun hre => ?idle⟩
  case sample =>
    have hlive : ¬ (s.dev.pw.state ≠ .running ∨ s.dev.dict.restarting = true) := by simp [hrun, hup]
    refine makes_of_onDev (exec_telemetrySample s pin iin vin tjmax tjstn) ?_
    simp only [sample_eq hlive rfl, telemRec_eq, telemRoom_eq, degradedNext_eq, Bool.or_eq_true, crowded_iff, calm_iff]
  case silent => exact makes_of_onDev (exec_telemetrySample s pin iin vin tjmax tjstn) (if_pos hsilent)
  case restart => exact makes_of_onDev rfl (if_pos hrun)
  case off => exact makes_of_onDev rfl (if_neg hrun)
  case resume => exact makes_of_onDev rfl (if_pos hre)
  case idle => exact makes_of_onDev rfl (if_neg (Bool.eq_false_iff.mp hre))

end Sys2Proof.Cert
end
